-- ==== Sys2Proof/Word.lean ====
section
/-!
DEFINITION. The word types of the machine (02 R37, R39; 06 R129).
-/

namespace Sys2Proof

/-- The 64-bit contents of an x register, an address or a system register (02 R37). -/
abbrev Word := BitVec 64

/-- The 32-bit contents of an f register, and an instruction word (02 R37, R39). -/
abbrev W32 := BitVec 32

/-- A byte of memory. -/
abbrev Byte := BitVec 8

end Sys2Proof
end

