-- ==== Sys2Proof/Fields.lean ====
section
/-!
DEFINITION. The operand types of instruction words (02 R41-R46), and the names of the places where
threads run (01 R15; 00 R2).
-/

namespace Sys2Proof

/-- A 5-bit register field (02 R41). The instruction says which file it names. -/
abbrev Reg := Fin 32

/-- A predicate number 0-95 (02 R41). -/
abbrev Pred := Fin 96

/-- A polynomial register z0-z15 (02 R38). -/
abbrev ZReg := Fin 16

/-- The rounding field of FPU and FMA (02 R44). -/
inductive Rnd | dyn | rne | rtz | rup | rdn
  deriving DecidableEq, Repr

/-- The four scopes of Table 01-3 (01 R18). -/
inductive Scope | cl | die | pkg | sys
  deriving DecidableEq, Repr

/-- The MEMSYNC size field (02 R45). -/
inductive MemSize | b | h | w | d
  deriving DecidableEq, Repr

/-- The hint field of LOAD and STORE (02 R46). -/
inductive Hint | normal | nl | la
  deriving DecidableEq, Repr

/-- The cc field of PCMP and PCMPI (02 Table 02-3). -/
inductive Cc | eq | ne | lt | ge | ltu | geu
  deriving DecidableEq, Repr

/-- The cc field of FCMP (02 Table 02-3). -/
inductive Fcc | eq | ne | lt | le | uno | ord
  deriving DecidableEq, Repr

/-- The VSHFL modes (07 R171). -/
inductive Shfl | idx | up | down | xor
  deriving DecidableEq, Repr

/-- The VRED and VSCAN operations (07 Table 07-5). -/
inductive RedOp | add | min | max | minu | maxu | and | or | xor | fadd | fmin | fmax
  deriving DecidableEq, Repr

/-- The side of a bank operation: A is 0, B is 1 (12 Table 12-15). -/
inductive Side | a | b
  deriving DecidableEq, Repr

/-- The rotation direction: A is 1, B is 2, AB is 3 (12 Table 12-15). -/
inductive Dir | a | b | ab
  deriving DecidableEq, Repr

/-- The bank's configuration registers, numbered 0-7 (12 Table 12-15). -/
inductive Cfg | wgp | wkp0 | wkp1 | wkp2 | wkp3 | wacb | wrotc | wtl
  deriving DecidableEq, Repr

/-- What TLREAD reads: V, the issued count, the failed flag or count, the completed-early set
(10 Table 10-6: no suffix, .I, .F, .C). -/
inductive TlSel | v | i | f | c
  deriving DecidableEq, Repr

/-- The system registers of Table 02-9. -/
inductive SysReg
  | fmode | fflags | nbv | chksb | guardst | mgrec | dqbase | dqlim | gtimeout
  | rank | nranks | cluster | core | context | lane | engine | gangid
  | trrdown | trrdoth | trwrown | trwroth | trlhit | trlink0 | trlink1 | trcsav
  | featcap0 | featcap1 | featcap2 | featcap3 | featack0 | featack1 | featack2 | featack3
  | status | cause | epc | eval | eguard | tvec | escr
  deriving DecidableEq, Repr

/-- The three kinds of engine (02 Table 02-7; 02 Table 02-9 ENGINE). -/
inductive Engine | scalar | lane | landing
  deriving DecidableEq, Repr

/-- A core: scalar core c of cluster cl, or landing core c of landing l (00 R2). -/
inductive CoreId
  | scalar (cl c : Nat)
  | landing (l c : Nat)
  deriving DecidableEq, Repr

/-- What issues words: a scalar context, a wave in slot sl of wide engine e, or a landing-core
context (01 R15). -/
inductive Crew
  | ctx (cl c k : Nat)
  | wave (cl e sl : Nat)
  | lctx (l c k : Nat)
  deriving DecidableEq, Repr

/-- Where a thread stands: a scalar context, a lane, or a landing-core context (01 R15). -/
inductive Place
  | ctx (cl c k : Nat)
  | lane (cl e sl ln : Nat)
  | lctx (l c k : Nat)
  deriving DecidableEq, Repr

/-- A queue that a parcel leaves: a core's outbound queue, a wide engine's outbound queue, or the
i-th parcel the mesh itself carries (replies, dispatcher and trigger messages) (03 R76; 10 R244). -/
inductive OutQ
  | core (c : CoreId)
  | eng (cl e : Nat)
  | mesh (i : Nat)
  deriving DecidableEq, Repr

/-- A request on the memory path: the load or atomic numbered n of the thread at p, or the store or
merge numbered n (09 R207). -/
inductive MemReq
  | load (p : Place) (n : Nat)
  | store (n : Nat)
  deriving DecidableEq, Repr

/-- A copy engine: of a cluster, or the copy unit of a landing (10 R236). -/
inductive CopyUnit
  | cluster (cl : Nat)
  | landing (l : Nat)
  deriving DecidableEq, Repr

/-- The settings of the Eopra table (17 Table 17-2) and what else the manual says it sets. -/
structure Eopra where
  /-- Split S in GiB (09 R201). -/
  split : Nat
  /-- Base of the host record region (03 R66). -/
  recordBase : Nat
  /-- Pager cores per cluster (01 R17). -/
  pagers : Nat
  /-- Firmware column width (01 R17). -/
  column : Nat
  /-- Firewall windows (base, size) of every column core (17 R379). -/
  firewall : List (Nat × Nat × Nat)
  /-- Novilo EtherType (17 R376). -/
  etherType : Nat
  /-- This package's peer number (17 R377). -/
  peer : Nat
  /-- Peers reachable, one bit per group of 4 (17 Table 17-3). -/
  nvPeers : Word
  /-- Security version (17 R378). -/
  version : Nat
  deriving DecidableEq, Repr

/-- What a device measures for its attestation (17 R380). -/
inductive Measured
  | bootRom (version : Nat)
  | eopra (t : Eopra)
  | firmware (image : List Byte)
  | featcap (v : BitVec 256)
  deriving DecidableEq, Repr

/-- What a Novilo frame carries (17 R376, R377): messages of 64 bytes; copy data, as writes at offsets of the receiver's
interleaved region; or the acknowledgement of a frame of copy data. How frames are numbered and acknowledged is the
model's own. DESIGN CHOICE (log 37). -/
inductive NvBody
  | messages (ms : List (List Byte))
  | data (writes : List (Nat × List Byte))
  | ack
  deriving DecidableEq, Repr

/-- The head of a Novilo frame: the port, the package it goes to or comes from, its EtherType, and its number among the
frames between the two on that port (an acknowledgement's is that of the frame it answers) (17 R376). -/
structure NvHead where
  port : Nat
  peer : Nat
  etherType : Nat
  number : Nat
  deriving DecidableEq, Repr

/-- A Novilo frame: its head and what it carries (17 R376). -/
structure NvFrame extends NvHead where
  body : NvBody
  deriving DecidableEq, Repr

/-- A flit sent again over a Lafold link: which one, and whether it arrived (17 R375). -/
structure FlitRetry where
  flit : Nat
  ok : Bool
  deriving DecidableEq, Repr

/-- What the boot ROM reads from the package flash: the Eopra table, and the firmware image it starts (17 R378, R380). -/
structure BootFlash where
  table : Eopra
  image : List Byte
  deriving DecidableEq, Repr

/-- What makes an access of its own: a thread, a stream register, a copy unit, a bank, an MREQ (15 R344,
Table 15-4; R356). -/
inductive Asker
  | thread (p : Place)
  | stream (p : Place) (f : Nat)
  | copy (u : CopyUnit)
  | bank (cl : Nat)
  | mreq (n : Nat)
  deriving DecidableEq, Repr

end Sys2Proof
end

