-- ==== Sys2Proof/Machine/Bits.lean ====
section
/-!
DEFINITION. The pseudocode helpers of Table 00-3 (00 R10) and the bit-string helpers the entries use.
-/

namespace Sys2Proof.Machine

/-- `zext(v, w)`: bits [w-1:0] of v read as an unsigned integer. -/
def zext (v w : Nat) : Nat := v % 2 ^ w

/-- `sext(v, w)`: bits [w-1:0] of v read as a two's-complement integer; v is any integer. -/
def sext (v : Int) (w : Nat) : Int :=
  let m := v % (2 : Int) ^ w
  if w = 0 then 0 else if m ≥ (2 : Int) ^ (w - 1) then m - (2 : Int) ^ w else m

/-- `bits(v, hi, lo)` of a natural number. -/
def nbits (v hi lo : Nat) : Nat := v / 2 ^ lo % 2 ^ (hi + 1 - lo)

/-- `bits(v, hi, lo)` of a word. -/
def wbits (v : Word) (hi lo : Nat) : Nat := nbits v.toNat hi lo

/-- Bit i of a word. -/
def wbit (v : Word) (i : Nat) : Bool := v.getLsbD i

/-- `wrap(v, w)`: v reduced modulo 2^w into the signed range. -/
def wrap (v : Int) (w : Nat) : Int := sext v w

/-- `sat(v, w)`: v clamped to the signed w-bit range. -/
def sat (v : Int) (w : Nat) : Int :=
  max (-(2 : Int) ^ (w - 1)) (min v ((2 : Int) ^ (w - 1) - 1))

/-- `satu(v, w)`: v clamped to [0, 2^w - 1]. -/
def satu (v : Int) (w : Nat) : Int := max 0 (min v ((2 : Int) ^ w - 1))

/-- An integer as a 64-bit register value, modulo 2^64. -/
def ofI (v : Int) : Word := BitVec.ofInt 64 v

/-- A natural number as a 64-bit register value, modulo 2^64. -/
def ofN (v : Nat) : Word := BitVec.ofNat 64 v

/-- A Bool as the integer 0 or 1. -/
def b2n (b : Bool) : Nat := if b then 1 else 0

/-- A natural number with bits [lo+w-1:lo] replaced by the low w bits of f. -/
def setField (v lo w f : Nat) : Nat :=
  v % 2 ^ lo + (f % 2 ^ w) * 2 ^ lo + v / 2 ^ (lo + w) * 2 ^ (lo + w)

/-- The number of bits of v: 0 for 0. -/
def bitLen (v : Nat) : Nat := if v = 0 then 0 else Nat.log2 v + 1

/-- Number of 1 bits of the low n bits of v. -/
def popCount : Nat → Nat → Nat
  | 0, _ => 0
  | n + 1, v => v % 2 + popCount n (v / 2)

/-- Number of trailing 0 bits of v within n bits; n when v mod 2^n is 0. -/
def ctzN : Nat → Nat → Nat
  | 0, _ => 0
  | n + 1, v => if v % 2 = 1 then 0 else 1 + ctzN n (v / 2)

/-- The low n bits of v in reverse order. -/
def bitRev : Nat → Nat → Nat
  | 0, _ => 0
  | n + 1, v => (v % 2) * 2 ^ n + bitRev n (v / 2)

/-- The low n bytes of v in reverse order. -/
def byteRev : Nat → Nat → Nat
  | 0, _ => 0
  | n + 1, v => (v % 256) * 256 ^ n + byteRev n (v / 256)

/-- Ceiling of a/b. -/
def cdiv (a b : Nat) : Nat := (a + b - 1) / b

/-- Ceiling of log2 v, for v ≥ 1. -/
def clog2 (v : Nat) : Nat := if v ≤ 1 then 0 else Nat.log2 (v - 1) + 1

/-- Little-endian value of a list of bytes. -/
def leNat : List Byte → Nat
  | [] => 0
  | b :: bs => b.toNat + 256 * leNat bs

/-- The n little-endian bytes of v. -/
def leBytes : Nat → Nat → List Byte
  | 0, _ => []
  | n + 1, v => BitVec.ofNat 8 (v % 256) :: leBytes n (v / 256)

/-- The largest s with s*s ≤ v, found bit by bit from bit n-1 down, starting at s0. -/
def isqrtFrom : Nat → Nat → Nat → Nat
  | 0, s0, _ => s0
  | n + 1, s0, v =>
    let t := s0 + 2 ^ n
    isqrtFrom n (if t * t ≤ v then t else s0) v

/-- Integer square root. -/
def isqrt (v : Nat) : Nat := isqrtFrom (Nat.log2 v / 2 + 1) 0 v

/-- v rounded to an integer as v = n / 2^k, ties to even (12 R281). -/
def shiftRne (c : Int) (k : Nat) : Int :=
  let u := (2 : Int) ^ k
  let lo := c / u
  let r := c - lo * u
  if 2 * r < u then lo else if 2 * r > u then lo + 1 else if lo % 2 = 0 then lo else lo + 1

end Sys2Proof.Machine
end

