-- ==== Sys2Proof/Machine/Flags.lean ====
section
/-!
DEFINITION. Rounding into the floating-point formats with the flags it sets (06 R131, R139-R142): NV 16,
DZ 8, OF 4, UF 2, NX 1.
-/

namespace Sys2Proof.Machine

/-- A rounding mode (06 R139). -/
inductive Rm | rne | rtz | rup | rdn
  deriving DecidableEq, Repr

/-- The rounding mode FMODE.RM names (06 Table 06-3). -/
def rmOf (n : Nat) : Rm :=
  match n % 4 with
  | 0 => .rne
  | 1 => .rtz
  | 2 => .rup
  | _ => .rdn

/-- The mode of a word: its own code, or FMODE.RM for code 0 (06 R139). -/
def rndMode (r : Rnd) (fmode : Word) : Rm :=
  match r with
  | .dyn => rmOf fmode.toNat
  | .rne => .rne
  | .rtz => .rtz
  | .rup => .rup
  | .rdn => .rdn

/-- A format: width, significand bits, bias (06 Table 06-1). -/
structure Fmt where
  w : Nat
  p : Nat
  bias : Nat
  deriving DecidableEq, Repr

/-- FP32. -/
def fp32 : Fmt := { w := 32, p := 24, bias := 127 }
/-- FP16. -/
def fp16 : Fmt := { w := 16, p := 11, bias := 15 }
/-- BF16. -/
def bf16 : Fmt := { w := 16, p := 8, bias := 127 }

/-- The exponent of the smallest normal value (06 R141). -/
def Fmt.emin (f : Fmt) : Int := 1 - (f.bias : Int)

/-- The exponent of the largest finite value. -/
def Fmt.emax (f : Fmt) : Int := f.bias

/-- A zero of sign s. -/
def signBits (f : Fmt) (s : Bool) : Nat := if s then 2 ^ (f.w - 1) else 0

/-- The magnitude m × 2^e, plus less than one unit of 2^e if sticky, rounded to a multiple of 2^q:
the multiple and whether the value changed (06 R141). A sticky value has q > e. -/
def roundAt (rm : Rm) (s : Bool) (m : Nat) (e : Int) (sticky : Bool) (q : Int) : Nat × Bool :=
  if q ≤ e then (m * 2 ^ (e - q).toNat, sticky)
  else
    let k := (q - e).toNat
    let lo := m / 2 ^ k
    let rem := m % 2 ^ k
    let half := 2 ^ (k - 1)
    let inexact := rem != 0 || sticky
    let up :=
      match rm with
      | .rtz => false
      | .rup => inexact && !s
      | .rdn => inexact && s
      | .rne => decide (half < rem) || (rem == half && (sticky || lo % 2 == 1))
    (if up then lo + 1 else lo, inexact)

/-- The bits of r × 2^q in a format, where r has at most p + 1 bits and q is the unit of R141. -/
def packFmt (f : Fmt) (s : Bool) (r : Nat) (q : Int) : Nat :=
  signBits f s +
    (if r < 2 ^ (f.p - 1) then r else (q + f.p - 1 + f.bias - 1).toNat * 2 ^ (f.p - 1) + r)

/-- round(v, fmt, rm) of R141 for v = ±(m × 2^e, plus a part below 2^e if sticky), m > 0: the bits and
the flags OF, UF, NX. -/
def roundFmt (f : Fmt) (rm : Rm) (ftz s : Bool) (m : Nat) (e : Int) (sticky : Bool) : Nat × Nat :=
  let top := e + (bitLen m : Int) - 1
  let t := roundAt rm s m e sticky (top - f.p + 1)
  let tiny := decide ((bitLen t.1 : Int) + (top - f.p + 1) - 1 < f.emin)
  let q := max top f.emin - f.p + 1
  let r := roundAt rm s m e sticky q
  if (bitLen r.1 : Int) + q - 1 > f.emax then
    let big := signBits f s + ((2 ^ (f.w - f.p) - 1) * 2 ^ (f.p - 1) - 1)
    let inf := signBits f s + (2 ^ (f.w - f.p) - 1) * 2 ^ (f.p - 1)
    let v :=
      match rm with
      | .rne => inf
      | .rtz => big
      | .rup => if s then big else inf
      | .rdn => if s then inf else big
    (v, 5)
  else
    let nx := if r.2 then 1 else 0
    if tiny && ftz then (signBits f s, 3)
    else (packFmt f s r.1 q, if tiny && r.2 then 3 else nx)

end Sys2Proof.Machine
end

