-- ==== Sys2Proof/Machine/Float.lean ====
section
/-!
DEFINITION. Floating-point arithmetic on bit patterns: exact values, the operations of the FPU and FMA
classes, FCMP, the conversions and the function approximations (06 R131, R132, R138, R141-R157).
-/

namespace Sys2Proof.Machine

/-- A result's bits with the flags it sets: NV 16, DZ 8, OF 4, UF 2, NX 1 (06 Table 06-4). -/
abbrev FRes := Nat × Nat

/-! ### Unpacking -/

/-- A floating-point datum: a NaN, an infinity, a zero, or m × 2^e with m > 0; the Bool is the sign. -/
inductive Fp
  | nan (signalling : Bool)
  | inf (s : Bool)
  | zero (s : Bool)
  | fin (s : Bool) (m : Nat) (e : Int)
  deriving DecidableEq, Repr

/-- The datum a bit pattern stands for; DAZ reads a subnormal as a zero of its sign (06 R131, R142). -/
def unpack (f : Fmt) (daz : Bool) (b : Nat) : Fp :=
  let s := b / 2 ^ (f.w - 1) % 2 == 1
  let e := b / 2 ^ (f.p - 1) % 2 ^ (f.w - f.p)
  let m := b % 2 ^ (f.p - 1)
  if e = 2 ^ (f.w - f.p) - 1 then
    if m = 0 then .inf s else .nan (decide (m < 2 ^ (f.p - 2)))
  else if e = 0 then
    if m = 0 || daz then .zero s else .fin s m (f.emin - (f.p - 1))
  else .fin s (m + 2 ^ (f.p - 1)) ((e : Int) - f.bias - (f.p - 1))

/-- Whether a datum is a NaN. -/
def Fp.isNan : Fp → Bool
  | .nan _ => true
  | _ => false

/-- NV (16) for a signalling NaN operand (06 R132). -/
def Fp.snv : Fp → Nat
  | .nan true => 16
  | _ => 0

/-- NV for any signalling NaN among two operands. -/
def snv2 (a b : Fp) : Nat := if a.snv = 16 ∨ b.snv = 16 then 16 else 0

/-- A datum with its sign inverted. -/
def Fp.neg : Fp → Fp
  | .nan q => .nan q
  | .inf s => .inf (!s)
  | .zero s => .zero (!s)
  | .fin s m e => .fin (!s) m e

/-- An infinity's bits. -/
def infBits (f : Fmt) (s : Bool) : Nat := signBits f s + (2 ^ (f.w - f.p) - 1) * 2 ^ (f.p - 1)

/-- The canonical NaN (06 R132). -/
def nanBits (f : Fmt) : Nat := infBits f false + 2 ^ (f.p - 2)

/-! ### Addition, multiplication, fused multiply-add (06 R150, R156) -/

/-- The sign of an exact zero sum (06 R142). -/
def zeroSumSign (rm : Rm) (a b : Bool) : Bool := if a = b then a else rm == .rdn

/-- The exact sum of two finite nonzero values, rounded; `neg` negates the exact value before rounding
(06 R156). -/
def addFin (f : Fmt) (rm : Rm) (ftz neg : Bool) (sa : Bool) (ma : Nat) (ea : Int) (sb : Bool) (mb : Nat)
    (eb : Int) : FRes :=
  let e := min ea eb
  let va : Int := (if sa then -1 else 1) * (ma : Int) * 2 ^ (ea - e).toNat
  let vb : Int := (if sb then -1 else 1) * (mb : Int) * 2 ^ (eb - e).toNat
  let v := va + vb
  if v = 0 then (signBits f (zeroSumSign rm sa sb != neg), 0)
  else roundFmt f rm ftz (decide (v < 0) != neg) v.natAbs e false

/-- The sum of two data, negated before rounding if `neg`. -/
def addFp (f : Fmt) (rm : Rm) (ftz neg : Bool) (a b : Fp) : FRes :=
  match a, b with
  | .nan _, _ => (nanBits f, snv2 a b)
  | _, .nan _ => (nanBits f, snv2 a b)
  | .inf s, .inf t => if s = t then (infBits f (s != neg), 0) else (nanBits f, 16)
  | .inf s, _ => (infBits f (s != neg), 0)
  | _, .inf t => (infBits f (t != neg), 0)
  | .zero s, .zero t => (signBits f (zeroSumSign rm s t != neg), 0)
  | .zero _, .fin t m e => roundFmt f rm ftz (t != neg) m e false
  | .fin s m e, .zero _ => roundFmt f rm ftz (s != neg) m e false
  | .fin s m e, .fin t n g => addFin f rm ftz neg s m e t n g

/-- The exact product of two data, as a datum; 0 × ∞ and NaNs are given apart. -/
def mulExact : Fp → Fp → Option Fp
  | .nan _, _ => none
  | _, .nan _ => none
  | .inf _, .zero _ => none
  | .zero _, .inf _ => none
  | .inf s, .inf t => some (.inf (s != t))
  | .inf s, .fin t _ _ => some (.inf (s != t))
  | .fin s _ _, .inf t => some (.inf (s != t))
  | .zero s, .zero t => some (.zero (s != t))
  | .zero s, .fin t _ _ => some (.zero (s != t))
  | .fin s _ _, .zero t => some (.zero (s != t))
  | .fin s m e, .fin t n g => some (.fin (s != t) (m * n) (e + g))

/-- Whether two data are 0 and ∞. -/
def zeroTimesInf : Fp → Fp → Bool
  | .inf _, .zero _ => true
  | .zero _, .inf _ => true
  | _, _ => false

/-- An exact datum rounded into a format. -/
def roundFp (f : Fmt) (rm : Rm) (ftz : Bool) : Fp → FRes
  | .nan q => (nanBits f, if q then 16 else 0)
  | .inf s => (infBits f s, 0)
  | .zero s => (signBits f s, 0)
  | .fin s m e => roundFmt f rm ftz s m e false

/-- The product of two data. -/
def mulFp (f : Fmt) (rm : Rm) (ftz : Bool) (a b : Fp) : FRes :=
  match mulExact a b with
  | some v => roundFp f rm ftz v
  | none => (nanBits f, if zeroTimesInf a b then 16 else snv2 a b)

/-- a × b + c with c already signed as the operation has it, negated before rounding if `neg`
(06 R156); 0 × ∞ is invalid whatever the addend (06 R143). -/
def fmaFp (f : Fmt) (rm : Rm) (ftz neg : Bool) (a b c : Fp) : FRes :=
  if zeroTimesInf a b then (nanBits f, 16)
  else match mulExact a b with
    | some v =>
      match c with
      | .nan q => (nanBits f, if q then 16 else 0)
      | _ => addFp f rm ftz neg v c
    | none => (nanBits f, if a.snv = 16 ∨ b.snv = 16 ∨ c.snv = 16 then 16 else 0)

/-! ### Division and square root -/

/-- Guard bits kept by quotients and roots; a remainder makes the result sticky. -/
def guardBits : Nat := 80

/-- The quotient of two data (06 R150). -/
def divFp (f : Fmt) (rm : Rm) (ftz : Bool) (a b : Fp) : FRes :=
  match a, b with
  | .nan _, _ => (nanBits f, snv2 a b)
  | _, .nan _ => (nanBits f, snv2 a b)
  | .inf _, .inf _ => (nanBits f, 16)
  | .zero _, .zero _ => (nanBits f, 16)
  | .inf s, .zero t => (infBits f (s != t), 0)
  | .inf s, .fin t _ _ => (infBits f (s != t), 0)
  | .zero s, .inf t => (signBits f (s != t), 0)
  | .fin s _ _, .inf t => (signBits f (s != t), 0)
  | .fin s _ _, .zero t => (infBits f (s != t), 8)
  | .zero s, .fin t _ _ => (signBits f (s != t), 0)
  | .fin s m e, .fin t n g =>
    let x := m * 2 ^ guardBits
    roundFmt f rm ftz (s != t) (x / n) (e - g - guardBits) (x % n != 0)

/-- The square root of a finite m × 2^e as (root, exponent, sticky). -/
def sqrtFin (m : Nat) (e : Int) : Nat × Int × Bool :=
  let k := if e % 2 = 0 then 2 * guardBits else 2 * guardBits + 1
  let x := m * 2 ^ k
  let r := isqrt x
  (r, (e - k) / 2, r * r != x)

/-- The square root of a datum (06 R150). -/
def sqrtFp (f : Fmt) (rm : Rm) (ftz : Bool) : Fp → FRes
  | .nan q => (nanBits f, if q then 16 else 0)
  | .inf false => (infBits f false, 0)
  | .inf true => (nanBits f, 16)
  | .zero s => (signBits f s, 0)
  | .fin true _ _ => (nanBits f, 16)
  | .fin false m e =>
    let r := sqrtFin m e
    roundFmt f rm ftz false r.1 r.2.1 r.2.2

/-! ### Comparison, minimum and maximum (06 R151, R157) -/

/-- Whether one non-NaN datum is less than another, −0 equal to +0. -/
def ltFp (a b : Fp) : Bool :=
  match a, b with
  | .nan _, _ => false
  | _, .nan _ => false
  | .inf s, .inf t => s && !t
  | .inf s, .zero _ => s
  | .inf s, .fin _ _ _ => s
  | .zero _, .inf t => !t
  | .fin _ _ _, .inf t => !t
  | .zero _, .zero _ => false
  | .zero _, .fin t _ _ => !t
  | .fin s _ _, .zero _ => s
  | .fin s m e, .fin t n g =>
    let c := min e g
    let va : Int := (if s then -1 else 1) * (m : Int) * 2 ^ (e - c).toNat
    let vb : Int := (if t then -1 else 1) * (n : Int) * 2 ^ (g - c).toNat
    decide (va < vb)

/-- Whether two non-NaN data are equal, −0 equal to +0. -/
def eqFp (a b : Fp) : Bool := !a.isNan && !b.isNan && !ltFp a b && !ltFp b a

/-- The sign of a bit pattern. -/
def signOf (f : Fmt) (b : Nat) : Bool := b / 2 ^ (f.w - 1) % 2 == 1

/-- A bit pattern with its subnormal read as a zero under DAZ. -/
def dazBits (f : Fmt) (daz : Bool) (b : Nat) : Nat :=
  match unpack f daz b with
  | .zero s => signBits f s
  | _ => b % 2 ^ f.w

/-- A subnormal bit pattern flushed under FTZ, with UF and NX (06 R151). -/
def flush (f : Fmt) (ftz : Bool) (b : Nat) : FRes :=
  let e := b / 2 ^ (f.p - 1) % 2 ^ (f.w - f.p)
  if ftz && e == 0 && b % 2 ^ (f.p - 1) != 0 then (signBits f (signOf f b), 3) else (b, 0)

/-- FMIN and FMAX (06 R151). -/
def minmaxBits (f : Fmt) (mx daz ftz : Bool) (x y : Nat) : FRes :=
  let a := unpack f daz x
  let b := unpack f daz y
  let xb := dazBits f daz x
  let yb := dazBits f daz y
  let less := ltFp a b || (eqFp a b && signOf f x && !signOf f y)
  let r :=
    if a.isNan && b.isNan then nanBits f
    else if a.isNan then yb
    else if b.isNan then xb
    else if less then (if mx then yb else xb) else (if mx then xb else yb)
  let z := flush f ftz r
  (z.1, snv2 a b + z.2)

/-- FCMP: the truth of a condition and the flags (06 R157). -/
def fcmpBits (c : Fcc) (daz : Bool) (x y : Nat) : Bool × Nat :=
  let a := unpack fp32 daz x
  let b := unpack fp32 daz y
  let un := a.isNan || b.isNan
  let quiet := snv2 a b
  match c with
  | .eq => (eqFp a b, quiet)
  | .ne => (un || !eqFp a b, quiet)
  | .lt => (ltFp a b, if un then 16 else 0)
  | .le => (ltFp a b || eqFp a b, if un then 16 else 0)
  | .uno => (un, quiet)
  | .ord => (!un, quiet)

/-- FCLASS (06 R153). -/
def fclassBits (b : Nat) : Nat :=
  match unpack fp32 false b with
  | .inf true => 1
  | .fin true m _ => if m < 2 ^ 23 then 4 else 2
  | .zero true => 8
  | .zero false => 16
  | .fin false m _ => if m < 2 ^ 23 then 32 else 64
  | .inf false => 128
  | .nan true => 256
  | .nan false => 512

/-! ### Conversions (06 R138, R154) -/

/-- A datum rounded to an integer, with whether that changed it. -/
def toInt (rm : Rm) (s : Bool) (m : Nat) (e : Int) : Int × Bool :=
  let r := roundAt rm s m e false 0
  ((if s then -1 else 1) * (r.1 : Int), r.2)

/-- F2I (signed) and F2IU: the integer and the flags (06 R154). -/
def f2i (signed : Bool) (rm : Rm) (daz : Bool) (b : Nat) : Int × Nat :=
  let lo : Int := if signed then -(2 ^ 63) else 0
  let hi : Int := if signed then 2 ^ 63 - 1 else 2 ^ 64 - 1
  match unpack fp32 daz b with
  | .nan _ => (0, 16)
  | .inf s => (if s then lo else hi, 16)
  | .zero _ => (0, 0)
  | .fin s m e =>
    let r := toInt rm s m e
    if r.1 < lo then (lo, 16) else if r.1 > hi then (hi, 16) else (r.1, if r.2 then 1 else 0)

/-- An integer rounded into a format. -/
def ofIntF (f : Fmt) (rm : Rm) (v : Int) : FRes :=
  if v = 0 then (0, 0) else roundFmt f rm false (decide (v < 0)) v.natAbs 0 false

/-- A bit pattern of one format converted into another (06 R154). -/
def convF (g f : Fmt) (rm : Rm) (daz ftz : Bool) (b : Nat) : FRes :=
  roundFp f rm ftz (unpack g daz b)

/-- bf16_rne (06 Table 06-2). -/
def bf16Rne (b : Nat) : Nat := (convF fp32 bf16 .rne false false b).1

/-- widen_bf16 (06 Table 06-2). -/
def widenBf16 (b : Nat) : Nat :=
  if (unpack bf16 false b).isNan then nanBits fp32 else b % 65536 * 65536

/-- v × 2^k rounded into a format, RNE with FTZ 0 (12 R297). -/
def scaleF (f : Fmt) (v : Int) (k : Int) : Nat :=
  if v = 0 then 0 else (roundFmt f .rne false (decide (v < 0)) v.natAbs k false).1

/-- The near-memory adder of AMERGE.F (09 R223): RNE, FTZ 0, DAZ 0, canonical NaN, no flag. -/
def mergeF (x y : Nat) : Nat := (addFp fp32 .rne false false (unpack fp32 false x) (unpack fp32 false y)).1

/-- Sign operations: the result of FABS, FNEG and FSGNJ from the bits before FTZ (06 R151). -/
def signOp (ftz daz : Bool) (x : Nat) (s : Bool) : FRes :=
  if (unpack fp32 false x).isNan then (nanBits fp32, 0)
  else flush fp32 ftz (dazBits fp32 daz x % 2 ^ 31 + (if s then 2 ^ 31 else 0))

/-! ### Function approximations (06 R152): fixed-point evaluation far beyond the format (log 21) -/

/-- ⌊π × 2^640⌋. -/
def piFix : Nat := 0x3243f6a8885a308d313198a2e03707344a4093822299f31d0082efa98ec4e6c89452821e638d01377be5466cf34e90c6cc0ac29b7c97c50dd3f84d5b5b54709179216d5d98979fb1bd1310ba698dfb5ac

/-- ⌊ln 2 × 2^320⌋. -/
def ln2Fix : Nat := 0xb17217f7d1cf79abc9e3b39803f2f6af40f343267298b62d8a0d175b8baafa2be7b876206debac98

/-- Σ y^i / i! in fixed point with k fractional bits, n more terms from the i-th. -/
def expSeries (k : Nat) (y : Nat) : Nat → Nat → Nat → Nat
  | 0, _, _ => 0
  | n + 1, i, t => t + expSeries k y n (i + 1) (t * y / 2 ^ k / (i + 1))

/-- 2^a for a = (−1)^s × m × 2^e that is no integer, as m' × 2^e', inexact. -/
def exp2Fin (s : Bool) (m : Nat) (e : Int) : Nat × Int :=
  let k : Nat := 320
  let v : Int := (if s then -1 else 1) * (m : Int) * 2 ^ (e + k).toNat
  let n := v / 2 ^ k
  let fr := (v - n * 2 ^ k).toNat
  let y := fr * ln2Fix / 2 ^ k
  (expSeries k y 90 0 (2 ^ k), max (-400) (min 400 n) - k)

/-- The fractional bits of log2 x for x in [1, 2) held with p fractional bits, by repeated squaring. -/
def log2Bits (p : Nat) : Nat → Nat → Nat → Nat
  | 0, _, acc => acc
  | n + 1, x, acc =>
    let y := x * x / 2 ^ p
    if 2 ^ (p + 1) ≤ y then log2Bits p n (y / 2) (2 * acc + 1) else log2Bits p n y (2 * acc)

/-- log2 of m × 2^e that is no power of two, as a signed value with 220 fractional bits, inexact. -/
def log2Fin (m : Nat) (e : Int) : Int :=
  let l := Nat.log2 m
  let x := m * 2 ^ (400 - l)
  (e + l) * 2 ^ 220 + log2Bits 400 220 x 0

/-- Alternating series Σ ±t of sin or cos in fixed point: each next term is t × r² / ((j+1)(j+2)). -/
def trigSeries (k r2 : Nat) : Nat → Nat → Int → Int
  | 0, _, _ => 0
  | n + 1, j, t => t - trigSeries k r2 n (j + 2) (t * r2 / 2 ^ k / ((j + 1) * (j + 2)))

/-- sin (or cos) of m × 2^e > 0 as a signed value with 640 fractional bits, inexact. -/
def trigFin (cosine : Bool) (m : Nat) (e : Int) : Int :=
  let k : Nat := 640
  let a := m * 2 ^ (e + k).toNat
  let half := piFix / 2
  let q := a / half
  let r := a - q * half
  let r2 := r * r / 2 ^ k
  let sn := trigSeries k r2 90 1 r
  let cs := trigSeries k r2 90 0 (2 ^ k)
  match (q + b2n cosine) % 4 with
  | 0 => sn
  | 1 => cs
  | 2 => -sn
  | _ => -cs

/-- A signed fixed-point value known to be inexact, rounded (its floor is v). -/
def roundFixed (rnd : Bool → Nat → Int → Bool → FRes) (v : Int) (k : Nat) : FRes :=
  if v < 0 then rnd true (v.natAbs - 1) (-(k : Int)) true else rnd false v.natAbs (-(k : Int)) true

/-- The rounding of R152 under VER = 1: RNE to 17 significand bits with unbounded exponent, then into
FP32 by R141 as for RNE, with the low seven fraction bits 0; a tiny result that differs from the exact one in any of
these steps is an underflow (06 R141). -/
def roundV1 (ftz : Bool) (s : Bool) (m : Nat) (e : Int) (sticky : Bool) : FRes :=
  let r := roundAt .rne s m e sticky (e + (bitLen m : Int) - 17)
  let z := roundFmt fp32 .rne ftz s r.1 (e + (bitLen m : Int) - 17) false
  let low := z.1 % 128
  let isInf := z.1 % 2 ^ 31 == 255 * 2 ^ 23
  let b := if isInf then z.1 else z.1 - low
  let changed := r.2 || low != 0
  let tiny := decide (z.1 % 2 ^ 31 < 2 ^ 23)
  (b, Nat.lor z.2 (if changed then (if tiny then 3 else 1) else 0))

/-- The functions of R152. -/
inductive Fn | rcp | rsq | exp2 | log2 | sin | cos
  deriving DecidableEq, Repr

/-- Whether VER = 1 changes the function's rounding (06 R147). -/
def Fn.versioned : Fn → Bool
  | .rcp => true
  | .rsq => true
  | .exp2 => true
  | .log2 => true
  | .sin => false
  | .cos => false

/-- g(a) for finite nonzero a, through the rounding given (06 R152). -/
def fnFin (g : Fn) (rnd : Bool → Nat → Int → Bool → FRes) (s : Bool) (m : Nat) (e : Int) : FRes :=
  match g with
  | .rcp =>
    let x := 2 ^ (2 * guardBits)
    rnd s (x / m) (-e - 2 * guardBits) (x % m != 0)
  | .rsq =>
    if s then (nanBits fp32, 16)
    else
      let k := if e % 2 = 0 then 4 * guardBits else 4 * guardBits + 1
      let x := 2 ^ k
      let r := isqrt (x / m)
      rnd false r (-(e + k) / 2) (r * r * m != x)
  | .exp2 =>
    if 0 ≤ e ∨ m % 2 ^ e.natAbs = 0 then
      let v := if 0 ≤ e then m * 2 ^ (min e 20).toNat else m / 2 ^ e.natAbs
      let n := min v 400
      rnd false 1 (if s then -(n : Int) else n) false
    else
      let r := exp2Fin s m e
      rnd false r.1 r.2 true
  | .log2 =>
    if s then (nanBits fp32, 16)
    else if m = 2 ^ Nat.log2 m then
      let v := e + Nat.log2 m
      if v = 0 then (0, 0) else rnd (decide (v < 0)) v.natAbs 0 false
    else roundFixed rnd (log2Fin m e) 220
  | .sin =>
    let v := trigFin false m e
    roundFixed rnd (if s then -v - 1 else v) 640
  | .cos => roundFixed rnd (trigFin true m e) 640

/-- FRCP, FRSQ, FEXP2, FLOG2, FSIN and FCOS (06 R152, Table 06-7). -/
def fnBits (g : Fn) (v1 : Bool) (rm : Rm) (daz ftz : Bool) (b : Nat) : FRes :=
  let rnd := if v1 && g.versioned then roundV1 ftz else fun s m e st => roundFmt fp32 rm ftz s m e st
  match unpack fp32 daz b with
  | .nan q => (nanBits fp32, if q then 16 else 0)
  | .inf s =>
    match g with
    | .rcp => (signBits fp32 s, 0)
    | .rsq => if s then (nanBits fp32, 16) else (0, 0)
    | .exp2 => if s then (0, 0) else (infBits fp32 false, 0)
    | .log2 => if s then (nanBits fp32, 16) else (infBits fp32 false, 0)
    | .sin => (nanBits fp32, 16)
    | .cos => (nanBits fp32, 16)
  | .zero s =>
    match g with
    | .rcp => (infBits fp32 s, 8)
    | .rsq => (infBits fp32 s, 8)
    | .exp2 => (0x3F800000, 0)
    | .log2 => (infBits fp32 true, 8)
    | .sin => (signBits fp32 s, 0)
    | .cos => (0x3F800000, 0)
  | .fin s m e => fnFin g rnd s m e

/-! ### Pairs (06 R155, R156) -/

/-- An operation on the two 16-bit elements of two words, flags ORed. -/
def pair2 (op : Nat → Nat → FRes) (x y : Nat) : FRes :=
  let l := op (x % 65536) (y % 65536)
  let h := op (x / 65536) (y / 65536)
  (l.1 + h.1 * 65536, Nat.lor l.2 h.2)

/-- An operation on the two 16-bit elements of three words, flags ORed. -/
def pair3 (op : Nat → Nat → Nat → FRes) (x y z : Nat) : FRes :=
  let l := op (x % 65536) (y % 65536) (z % 65536)
  let h := op (x / 65536) (y / 65536) (z / 65536)
  (l.1 + h.1 * 65536, Nat.lor l.2 h.2)

end Sys2Proof.Machine
end

