-- ==== Sys2Proof/Syntax.lean ====
section
/-!
DEFINITION. The instructions: one constructor for each row of the opcode table, the 217 words of
Table 02-3 first and then the 69 events by which the other agents of the device act.
-/

namespace Sys2Proof

/-- An instruction word with its operands, or an event of an agent with what that agent chooses or
receives. A register, predicate or immediate field keeps its letter of Table 02-2. -/
inductive Instr where
  /-- ADD (R108). -/
  | add (d a b : Reg)
  /-- SUB (R108). -/
  | sub (d a b : Reg)
  /-- AND (R108). -/
  | and (d a b : Reg)
  /-- OR (R108). -/
  | or (d a b : Reg)
  /-- XOR (R108). -/
  | xor (d a b : Reg)
  /-- ANDN (R108). -/
  | andn (d a b : Reg)
  /-- ORN (R108). -/
  | orn (d a b : Reg)
  /-- XNOR (R108). -/
  | xnor (d a b : Reg)
  /-- SHL (R108). -/
  | shl (d a b : Reg)
  /-- SHR (R108). -/
  | shr (d a b : Reg)
  /-- SAR (R108). -/
  | sar (d a b : Reg)
  /-- ROL (R108). -/
  | rol (d a b : Reg)
  /-- ROR (R108). -/
  | ror (d a b : Reg)
  /-- MUL (R108). -/
  | mul (d a b : Reg)
  /-- MULH (R108). -/
  | mulh (d a b : Reg)
  /-- MULHU (R108). -/
  | mulhu (d a b : Reg)
  /-- DIV (R109). -/
  | div (d a b : Reg)
  /-- DIVU (R109). -/
  | divu (d a b : Reg)
  /-- REM (R109). -/
  | rem (d a b : Reg)
  /-- REMU (R109). -/
  | remu (d a b : Reg)
  /-- MIN (R108). -/
  | min (d a b : Reg)
  /-- MAX (R108). -/
  | max (d a b : Reg)
  /-- MINU (R108). -/
  | minu (d a b : Reg)
  /-- MAXU (R108). -/
  | maxu (d a b : Reg)
  /-- SLT (R108). -/
  | slt (d a b : Reg)
  /-- SLTU (R108). -/
  | sltu (d a b : Reg)
  /-- CLZ (R108). -/
  | clz (d a : Reg)
  /-- CTZ (R108). -/
  | ctz (d a : Reg)
  /-- POP (R108). -/
  | pop (d a : Reg)
  /-- BREV (R108). -/
  | brev (d a : Reg)
  /-- BSWAP (R108). -/
  | bswap (d a : Reg)
  /-- SEXT_B (R108). -/
  | sextB (d a : Reg)
  /-- SEXT_H (R108). -/
  | sextH (d a : Reg)
  /-- SEXT_W (R108). -/
  | sextW (d a : Reg)
  /-- ZEXT_B (R108). -/
  | zextB (d a : Reg)
  /-- ZEXT_H (R108). -/
  | zextH (d a : Reg)
  /-- ZEXT_W (R108). -/
  | zextW (d a : Reg)
  /-- ADDW (R108). -/
  | addw (d a b : Reg)
  /-- SUBW (R108). -/
  | subw (d a b : Reg)
  /-- MULW (R108). -/
  | mulw (d a b : Reg)
  /-- ADDI (R110). -/
  | addi (d a : Reg) (i : BitVec 17)
  /-- ANDI (R110). -/
  | andi (d a : Reg) (i : BitVec 17)
  /-- ORI (R110). -/
  | ori (d a : Reg) (i : BitVec 17)
  /-- XORI (R110). -/
  | xori (d a : Reg) (i : BitVec 17)
  /-- SHLI (R111). -/
  | shli (d a : Reg) (n : Fin 64)
  /-- SHRI (R111). -/
  | shri (d a : Reg) (n : Fin 64)
  /-- SARI (R111). -/
  | sari (d a : Reg) (n : Fin 64)
  /-- ROLI (R111). -/
  | roli (d a : Reg) (n : Fin 64)
  /-- SLTI (R112). -/
  | slti (d a : Reg) (i : BitVec 17)
  /-- LUI (R113). -/
  | lui (d : Reg) (i : BitVec 22)
  /-- LUIH (R113). -/
  | luih (d : Reg) (i : BitVec 22)
  /-- ADDPC (R113). -/
  | addpc (d : Reg) (i : BitVec 22)
  /-- LEA (R114). -/
  | lea (d a b : Reg) (s : Fin 8) (i : BitVec 7)
  /-- BFXU (R115). -/
  | bfxu (d a : Reg) (l p : Fin 64)
  /-- BFX (R115). -/
  | bfx (d a : Reg) (l p : Fin 64)
  /-- BFI (R116). -/
  | bfi (d a : Reg) (l p : Fin 64)
  /-- MHPK (R121). -/
  | mhpk (d a b : Reg) (l : Fin 8)
  /-- MHUN (R122). -/
  | mhun (s : Bool) (d a : Reg) (l : Fin 8)
  /-- LAYW (R120). -/
  | layw (a b : Reg)
  /-- LAYR (R120). -/
  | layr (d a : Reg)
  /-- PRDX (R123). -/
  | prdx (d : Reg) (g : Fin 3)
  /-- XPRD (R123). -/
  | xprd (a : Reg) (g : Fin 3)
  /-- PCMP (R124). -/
  | pcmp (c : Cc) (p : Pred) (a b : Reg)
  /-- PCMPI (R124). -/
  | pcmpi (c : Cc) (p : Pred) (a : Reg) (i : BitVec 5)
  /-- FCMP (R157). -/
  | fcmp (c : Fcc) (p : Pred) (a b : Reg)
  /-- PAND (R125). -/
  | pand (p a b : Pred)
  /-- POR (R125). -/
  | por (p a b : Pred)
  /-- PXOR (R125). -/
  | pxor (p a b : Pred)
  /-- PANDN (R125). -/
  | pandn (p a b : Pred)
  /-- PORN (R125). -/
  | porn (p a b : Pred)
  /-- PNOT (R125). -/
  | pnot (p a : Pred)
  /-- BR (R126). -/
  | br (o : BitVec 25)
  /-- CALL (R126). -/
  | call (o : BitVec 25)
  /-- BRP (R126). -/
  | brp (p : Pred) (o : BitVec 18)
  /-- BRN (R126). -/
  | brn (p : Pred) (o : BitVec 18)
  /-- JMPR (R127). -/
  | jmpr (a : Reg)
  /-- CALLR (R127). -/
  | callr (a : Reg)
  /-- RET (R127). -/
  | ret
  /-- FADD (R150). -/
  | fadd (r : Rnd) (d a b : Reg)
  /-- FSUB (R150). -/
  | fsub (r : Rnd) (d a b : Reg)
  /-- FMUL (R150). -/
  | fmul (r : Rnd) (d a b : Reg)
  /-- FDIV (R150). -/
  | fdiv (r : Rnd) (d a b : Reg)
  /-- FSQRT (R150). -/
  | fsqrt (r : Rnd) (d a : Reg)
  /-- FMIN (R151). -/
  | fmin (r : Rnd) (d a b : Reg)
  /-- FMAX (R151). -/
  | fmax (r : Rnd) (d a b : Reg)
  /-- FABS (R151). -/
  | fabs (r : Rnd) (d a : Reg)
  /-- FNEG (R151). -/
  | fneg (r : Rnd) (d a : Reg)
  /-- FSGNJ (R151). -/
  | fsgnj (r : Rnd) (d a b : Reg)
  /-- FRCP (R152). -/
  | frcp (r : Rnd) (d a : Reg)
  /-- FRSQ (R152). -/
  | frsq (r : Rnd) (d a : Reg)
  /-- FEXP2 (R152). -/
  | fexp2 (r : Rnd) (d a : Reg)
  /-- FLOG2 (R152). -/
  | flog2 (r : Rnd) (d a : Reg)
  /-- FSIN (R152). -/
  | fsin (r : Rnd) (d a : Reg)
  /-- FCOS (R152). -/
  | fcos (r : Rnd) (d a : Reg)
  /-- FCLASS (R153). -/
  | fclass (r : Rnd) (d a : Reg)
  /-- F2I (R154). -/
  | f2i (r : Rnd) (d a : Reg)
  /-- F2IU (R154). -/
  | f2iu (r : Rnd) (d a : Reg)
  /-- I2F (R154). -/
  | i2f (r : Rnd) (d a : Reg)
  /-- IU2F (R154). -/
  | iu2f (r : Rnd) (d a : Reg)
  /-- F2BF (R154). -/
  | f2bf (r : Rnd) (d a : Reg)
  /-- BF2F (R154). -/
  | bf2f (r : Rnd) (d a : Reg)
  /-- F2H (R154). -/
  | f2h (r : Rnd) (d a : Reg)
  /-- H2F (R154). -/
  | h2f (r : Rnd) (d a : Reg)
  /-- HADD2 (R155). -/
  | hadd2 (r : Rnd) (d a b : Reg)
  /-- HMUL2 (R155). -/
  | hmul2 (r : Rnd) (d a b : Reg)
  /-- HMIN2 (R155). -/
  | hmin2 (r : Rnd) (d a b : Reg)
  /-- HMAX2 (R155). -/
  | hmax2 (r : Rnd) (d a b : Reg)
  /-- FMV_XF (R148). -/
  | fmvXf (r : Rnd) (d a : Reg)
  /-- FMV_FX (R148). -/
  | fmvFx (r : Rnd) (d a : Reg)
  /-- FMA (R156). -/
  | fma (r : Rnd) (d a b c : Reg)
  /-- FMS (R156). -/
  | fms (r : Rnd) (d a b c : Reg)
  /-- FNMA (R156). -/
  | fnma (r : Rnd) (d a b c : Reg)
  /-- FNMS (R156). -/
  | fnms (r : Rnd) (d a b c : Reg)
  /-- HFMA2 (R156). -/
  | hfma2 (r : Rnd) (d a b c : Reg)
  /-- HFMA2H (R156). -/
  | hfma2h (r : Rnd) (d a b c : Reg)
  /-- LD_B (R217). -/
  | ldB (h : Hint) (d a : Reg) (o : BitVec 12)
  /-- LD_BU (R217). -/
  | ldBu (h : Hint) (d a : Reg) (o : BitVec 12)
  /-- LD_H (R217). -/
  | ldH (h : Hint) (d a : Reg) (o : BitVec 12)
  /-- LD_HU (R217). -/
  | ldHu (h : Hint) (d a : Reg) (o : BitVec 12)
  /-- LD_W (R217). -/
  | ldW (h : Hint) (d a : Reg) (o : BitVec 12)
  /-- LD_WU (R217). -/
  | ldWu (h : Hint) (d a : Reg) (o : BitVec 12)
  /-- LD_D (R217). -/
  | ldD (h : Hint) (d a : Reg) (o : BitVec 12)
  /-- FLD (R217). -/
  | fld (h : Hint) (d a : Reg) (o : BitVec 12)
  /-- ST_B (R217). -/
  | stB (h : Hint) (d a : Reg) (o : BitVec 12)
  /-- ST_H (R217). -/
  | stH (h : Hint) (d a : Reg) (o : BitVec 12)
  /-- ST_W (R217). -/
  | stW (h : Hint) (d a : Reg) (o : BitVec 12)
  /-- ST_D (R217). -/
  | stD (h : Hint) (d a : Reg) (o : BitVec 12)
  /-- FST (R217). -/
  | fst (h : Hint) (d a : Reg) (o : BitVec 12)
  /-- LDA (R221). -/
  | lda (z : MemSize) (s : Scope) (d a : Reg) (i : BitVec 5)
  /-- STREL (R221). -/
  | strel (z : MemSize) (s : Scope) (b a : Reg) (i : BitVec 5)
  /-- FENCE (R221). -/
  | fence (s : Scope)
  /-- ATOM_ADD (R222). -/
  | atomAdd (z : MemSize) (s : Scope) (d a b : Reg)
  /-- ATOM_MIN (R222). -/
  | atomMin (z : MemSize) (s : Scope) (d a b : Reg)
  /-- ATOM_MAX (R222). -/
  | atomMax (z : MemSize) (s : Scope) (d a b : Reg)
  /-- ATOM_MINU (R222). -/
  | atomMinu (z : MemSize) (s : Scope) (d a b : Reg)
  /-- ATOM_MAXU (R222). -/
  | atomMaxu (z : MemSize) (s : Scope) (d a b : Reg)
  /-- ATOM_AND (R222). -/
  | atomAnd (z : MemSize) (s : Scope) (d a b : Reg)
  /-- ATOM_OR (R222). -/
  | atomOr (z : MemSize) (s : Scope) (d a b : Reg)
  /-- ATOM_XOR (R222). -/
  | atomXor (z : MemSize) (s : Scope) (d a b : Reg)
  /-- ATOM_SWAP (R222). -/
  | atomSwap (z : MemSize) (s : Scope) (d a b : Reg)
  /-- CAS (R222). -/
  | cas (z : MemSize) (s : Scope) (d a b : Reg)
  /-- AMERGE_I (R223). -/
  | amergeI (z : MemSize) (s : Scope) (a b : Reg)
  /-- AMERGE_F (R223). -/
  | amergeF (s : Scope) (a b : Reg)
  /-- PREF (R224). -/
  | pref (s : Scope) (a : Reg)
  /-- CINV (R224). -/
  | cinv (s : Scope) (a : Reg)
  /-- CFLUSH (R224). -/
  | cflush (s : Scope) (a : Reg)
  /-- SBIND (R245). -/
  | sbind (s : Fin 4) (a : Reg)
  /-- SCLOSE (R245). -/
  | sclose (s : Fin 4)
  /-- SSTAT (R246). -/
  | sstat (d : Reg) (s : Fin 4)
  /-- TCOPY (R247). -/
  | tcopy (d a : Reg)
  /-- TLWAIT (R248). -/
  | tlwait (s : Scope) (a b : Reg)
  /-- TLREAD (R248). -/
  | tlread (k : TlSel) (d a : Reg)
  /-- TLARM (R248). -/
  | tlarm (a b : Reg)
  /-- GALLOC (R265). -/
  | galloc (d a b : Reg)
  /-- GTRY (R265). -/
  | gtry (d a b : Reg)
  /-- GSEAL (R266). -/
  | gseal (a : Reg)
  /-- GTAKE (R267). -/
  | gtake (d a : Reg)
  /-- GDONE (R267). -/
  | gdone (a : Reg)
  /-- GDROP (R268). -/
  | gdrop (a b : Reg)
  /-- GSTAT_BAY (R269). -/
  | gstatBay (d a : Reg)
  /-- GSTAT_TILE (R269). -/
  | gstatTile (d a : Reg)
  /-- GBAY (R270). -/
  | gbay (d a b : Reg)
  /-- WCFG (R291). -/
  | wcfg (g : Cfg) (a : Reg)
  /-- WRCF (R291). -/
  | wrcf (a : Reg) (g : Cfg)
  /-- WLDP (R292). -/
  | wldp (s : Side) (rev : Bool) (i : ZReg) (a b : Reg)
  /-- WLDT (R292). -/
  | wldt (s : Side) (rev : Bool) (i : ZReg) (a b : Reg)
  /-- WMUL (R293). -/
  | wmul (p : Fin 8) (zb za : ZReg) (a : Reg)
  /-- WMAC (R294). -/
  | wmac (zb za : ZReg) (a b : Reg)
  /-- WEXT (R295). -/
  | wext (p : Fin 8) (a b : Reg)
  /-- WROT (R296). -/
  | wrot (t : Dir) (zb za : ZReg)
  /-- WMACR (R294). -/
  | wmacr (t : Dir) (zb za : ZReg) (a b : Reg)
  /-- WSTA (R297). -/
  | wsta (a b : Reg)
  /-- WZERO (R298). -/
  | wzero (a b : Reg)
  /-- WZERO_Z (R298). -/
  | wzeroZ (i : ZReg)
  /-- WWAIT (R300). -/
  | wwait (a : Reg)
  /-- WSTAT (R301). -/
  | wstat (clr : Bool) (a : Reg) (sel : Fin 7)
  /-- WMOV (R298). -/
  | wmov (d a : ZReg)
  /-- WUNPK (R299). -/
  | wunpk (s : Side) (a : Reg) (i : ZReg)
  /-- WSHFT (R299). -/
  | wshft (s : Side) (d a : ZReg) (b : Reg)
  /-- MSEND (R84). -/
  | msend (a b : Reg)
  /-- MREQ (R85). -/
  | mreq (a b : Reg)
  /-- MRET (R86). -/
  | mret
  /-- HSET (R87). -/
  | hset (a b : Reg)
  /-- HMASK (R88). -/
  | hmask (d a b : Reg)
  /-- RPUT (R329). -/
  | rput (a b : Reg)
  /-- QGET (R329). -/
  | qget (d a : Reg)
  /-- QPEEK (R329). -/
  | qpeek (d a : Reg)
  /-- DQPUSH (R330). -/
  | dqpush (s : Scope) (d a b : Reg)
  /-- DQPOP (R330). -/
  | dqpop (d : Reg)
  /-- DQSTEAL (R330). -/
  | dqsteal (d a : Reg)
  /-- BAR (R331). -/
  | bar (s : Scope) (d a : Reg)
  /-- BARA (R331). -/
  | bara (s : Scope) (d a : Reg)
  /-- BARW (R331). -/
  | barw (s : Scope) (a b : Reg)
  /-- PACE (R58). -/
  | pace (s0 s1 s2 s3 s4 s5 s6 s7 : Fin 8)
  /-- GUARD (R55). -/
  | guard (p : Pred) (neg : Bool) (n : Fin 8)
  /-- VSHFL (R172). -/
  | vshfl (m : Shfl) (keep fp : Bool) (k : Fin 4) (d a b : Reg)
  /-- VRED (R175). -/
  | vred (op : RedOp) (d a : Reg)
  /-- VSCAN (R176). -/
  | vscan (op : RedOp) (ex : Bool) (d a : Reg)
  /-- VBALL (R177). -/
  | vball (d : Reg) (p : Pred)
  /-- VELECT (R177). -/
  | velect (d : Reg) (p : Pred)
  /-- VQUANT (R178). -/
  | vquant (d a b : Reg) (k : Fin 6)
  /-- VDEQ (R179). -/
  | vdeq (d a b : Reg)
  /-- VENC (R180). -/
  | venc (d a : Reg) (w : Fin 16)
  /-- MBPOST (R195). -/
  | mbpost (d a b : Reg)
  /-- MBWAIT (R195). -/
  | mbwait (d a : Reg)
  /-- GFLUSH (R195). -/
  | gflush (a : Reg)
  /-- MIGR (R195). -/
  | migr (a : Reg)
  /-- MGPT (R195). -/
  | mgpt
  /-- TRAP (R358). -/
  | trap (i : BitVec 12)
  /-- ERET (R359). -/
  | eret
  /-- SYSR (R360). -/
  | sysr (d : Reg) (r : SysReg)
  /-- SYSW (R360). -/
  | sysw (r : SysReg) (a : Reg)
  /-- WFM (R86). -/
  | wfm
  /-- YIELD (R361). -/
  | yield
  /-- EXIT (R363). -/
  | exit (a : Reg)
  /-- PGINV (R362). -/
  | pginv (a : Reg)
  /-- BRK (R358). -/
  | brk (i : BitVec 12)
  /-- ILLEGAL_INSTRUCTION (R48). -/
  | illegalInstruction (w : W32)
  /-- HOST_WINDOW_MESSAGE (R67). -/
  | hostWindowMessage (off : Nat) (data : List Word)
  /-- SUBMISSION_AREA_BAD_WRITE (R67). -/
  | submissionAreaBadWrite (off len : Nat)
  /-- WINDOW_PASS_MESSAGE (R67). -/
  | windowPassMessage
  /-- BAR4_WRITE (R66). -/
  | bar4Write (off : Nat) (data : List Byte)
  /-- BAR4_READ (R66). -/
  | bar4Read (off len : Nat)
  /-- FEATACK_WRITE (R71). -/
  | featackWrite (i : Fin 4) (v : Word)
  /-- FEATLOCK_WRITE (R71). -/
  | featlockWrite (v : Word)
  /-- HRQHEAD_WRITE (R69). -/
  | hrqheadWrite (v : Word)
  /-- PWRCAP_WRITE (R372). -/
  | pwrcapWrite (v : Word)
  /-- LINKSTAT_WRITE (R381). -/
  | linkstatWrite (v : Word)
  /-- LOGTAIL_OVF_CLEAR (R357). -/
  | logtailOvfClear (die : Fin 4) (v : Word)
  /-- REGISTER_WRITE (R11). -/
  | registerWrite (off : Nat) (v : Word)
  /-- MESSAGE_DELIVERY (R76). -/
  | messageDelivery (src : OutQ)
  /-- HANDLER_START (R78). -/
  | handlerStart (c : CoreId) (k : Fin 4)
  /-- DIRECT_START (R78). -/
  | directStart (c : CoreId) (k : Fin 4)
  /-- MREQ_REPLY (R85). -/
  | mreqReply (n : Nat)
  /-- GANG_LAUNCH (R80). -/
  | gangLaunch
  /-- DISPATCHER_PASS (R91). -/
  | dispatcherPass
  /-- HEAD_AGEING_TIMEOUT (R96). -/
  | headAgeingTimeout (q : Fin 8)
  /-- GANG_LOAD (R80). -/
  | gangLoad (g root text data : Nat)
  /-- GANG_RELEASE (R81). -/
  | gangRelease (g : Nat) (die : Fin 4)
  /-- TEMPERATURE_SAMPLE (R374). -/
  | temperatureSample (sensor t : Nat)
  /-- ELIGIBILITY_WINDOW_END (R95). -/
  | eligibilityWindowEnd
  /-- POWER_SAMPLE (R373). -/
  | powerSample (amps watts : Nat)
  /-- DROOP_EVENT (R373). -/
  | droopEvent (cl : Nat)
  /-- FETCH_GROUP_DELIVERY (R391). -/
  | fetchGroupDelivery (u : Crew)
  /-- BUCKET_POST_ARRIVAL (R183). -/
  | bucketPostArrival (cl n : Nat)
  /-- BUCKET_TIMEOUT (R184). -/
  | bucketTimeout (cl : Nat) (b : Fin 8)
  /-- WAVE_LAUNCH (R185). -/
  | waveLaunch (cl : Nat) (b : Fin 8)
  /-- MIGRATION_PLACEMENT (R191). -/
  | migrationPlacement (cl : Nat)
  /-- RPUT_ARRIVAL (R321). -/
  | rputArrival (srcs : List OutQ)
  /-- HOME_REQUEST (R207). -/
  | homeRequest (rs : List MemReq)
  /-- INVALIDATION_ACKNOWLEDGE (R205). -/
  | invalidationAcknowledge (n : Nat) (die : Fin 4)
  /-- LINE_WRITEBACK (R209). -/
  | lineWriteback (l : Fin 8) (line : Nat)
  /-- ROW_CAPTURE (R211). -/
  | rowCapture (l : Fin 8) (row : Nat)
  /-- REFRESH_WINDOW_START (R211). -/
  | refreshWindowStart (l : Fin 8)
  /-- STREAM_ELEMENT_ARRIVAL (R230). -/
  | streamElementArrival (p : Place) (f : Fin 4)
  /-- STREAM_PUSH_PERFORM (R233). -/
  | streamPushPerform (p : Place) (f : Fin 4)
  /-- COPY_SECTOR_COMPLETE (R238). -/
  | copySectorComplete (u : CopyUnit)
  /-- COPY_COMPLETE (R239). -/
  | copyComplete (u : CopyUnit)
  /-- TRIGGER_MESSAGE_SEND (R244). -/
  | triggerMessageSend (cl : Nat)
  /-- GALLERY_REQUEST (R258). -/
  | galleryRequest (cl n : Nat)
  /-- GALLERY_HANDOUT (R259). -/
  | galleryHandout (cl : Nat)
  /-- BAY_WATCHDOG_EXPIRY (R262). -/
  | bayWatchdogExpiry (g rank : Nat) (b : Fin 8)
  /-- BANK_OPERATION_START (R283). -/
  | bankOperationStart (cl : Nat)
  /-- BANK_OPERATION_COMPLETE (R283). -/
  | bankOperationComplete (cl : Nat)
  /-- ROTATION_STEP_RESUME (R289). -/
  | rotationStepResume (cl : Nat)
  /-- BANK_WATCHDOG_RESET (R354). -/
  | bankWatchdogReset (cl : Nat)
  /-- BARRIER_PHASE_PROPAGATE (R327). -/
  | barrierPhasePropagate (g : Nat) (b : Fin 16) (die : Fin 4)
  /-- STEAL_REQUEST (R324). -/
  | stealRequest (cl : Nat)
  /-- FAULT_TOKEN_ASSIGN (R344). -/
  | faultTokenAssign (cl : Nat)
  /-- PAGER_REPLY (R345). -/
  | pagerReply (cl c : Nat)
  /-- PREEMPTION_COMMAND (R348). -/
  | preemptionCommand (cl c : Nat)
  /-- SHARE_SAVE (R349). -/
  | shareSave (g rank : Nat)
  /-- GANG_RESTORE (R351). -/
  | gangRestore (g : Nat)
  /-- LEND (R384). -/
  | lend
  /-- ERROR_EVENT (R355). -/
  | errorEvent (unit kind addr : Nat)
  /-- DATA_ERROR (R356). -/
  | dataError (a : Asker) (addr : Word)
  /-- ERROR_LOG_CAPTURE (R357). -/
  | errorLogCapture (die : Fin 4)
  /-- LINK_FLIT_RETRY (R375). -/
  | linkFlitRetry (link : Fin 4) (again : FlitRetry)
  /-- LINK_ACK_TIMEOUT (R375). -/
  | linkAckTimeout (link : Fin 4)
  /-- NOVILO_FRAME_RECEIVE (R376). -/
  | noviloFrameReceive (head : NvHead) (body : NvBody)
  /-- SPDM_REQUEST (R380). -/
  | spdmRequest (nonce : Nat)
  /-- DEVICE_RESET (R71). -/
  | deviceReset
  /-- EOPRA_BOOT (R378): what the boot ROM reads, if it can, and whether the two signatures verify. -/
  | eopraBoot (flash : Option BootFlash) (ecdsa lms : Bool)
  /-- GANG_RETIRE (R368). -/
  | gangRetire (g : Nat)
  /-- MEMORY_REPLY (R218). -/
  | memoryReply (r : MemReq)
  /-- LINK_RESTORE (R375). -/
  | linkRestore (link : Fin 4)
  deriving DecidableEq, Repr

end Sys2Proof
end

