-- ==== Sys2Proof/WellFormed.lean ====
section
/-!
DEFINITION. The conditions on an instruction term beyond its operand types: those of the words by
their encodings, and the ranges of the numbers an event names.
-/

namespace Sys2Proof

/-- A size W or D (02 Table 02-4). -/
def MemSize.wide : MemSize → Bool
  | .w => true
  | .d => true
  | .b => false
  | .h => false

/-- A core that exists (00 R2). -/
def CoreId.wf : CoreId → Bool
  | .scalar cl c => decide (cl < 192) && decide (c < 32)
  | .landing l c => decide (l < 8) && decide (c < 48)

/-- A crew that exists. -/
def Crew.wf : Crew → Bool
  | .ctx cl c k => decide (cl < 192) && decide (c < 32) && decide (k < 4)
  | .wave cl e sl => decide (cl < 192) && decide (e < 2) && decide (sl < 16)
  | .lctx l c k => decide (l < 8) && decide (c < 48) && decide (k < 4)

/-- A place that exists. -/
def Place.wf : Place → Bool
  | .ctx cl c k => decide (cl < 192) && decide (c < 32) && decide (k < 4)
  | .lane cl e sl ln => decide (cl < 192) && decide (e < 2) && decide (sl < 16) && decide (ln < 64)
  | .lctx l c k => decide (l < 8) && decide (c < 48) && decide (k < 4)

/-- A queue that exists. -/
def OutQ.wf : OutQ → Bool
  | .core c => c.wf
  | .eng cl e => decide (cl < 192) && decide (e < 2)
  | .mesh _ => true

/-- A copy engine that exists. -/
def CopyUnit.wf : CopyUnit → Bool
  | .cluster cl => decide (cl < 192)
  | .landing l => decide (l < 8)

/-- What makes accesses exists. -/
def Asker.wf : Asker → Bool
  | .thread p => p.wf
  | .stream p f => p.wf && decide (f < 4)
  | .copy u => u.wf
  | .bank cl => decide (cl < 192)
  | .mreq _ => true

/-- A unit with an error counter (15 R355). -/
def unitOk (u : Nat) : Bool :=
  (decide (u < 3072) && decide (u % 16 < 6)) ||
  (decide (3072 ≤ u) && decide (u < 3584) && decide (u % 64 < 50)) || (decide (3584 ≤ u) && decide (u < 3844))

/-- Whether settings lie in the ranges of 17 Table 17-2. -/
def Eopra.wf (t : Eopra) : Bool :=
  decide (t.split ≤ 64) && decide (t.recordBase % 2 ^ 26 = 0) && decide (1 ≤ t.pagers) && decide (t.pagers ≤ 4) &&
  decide (1 ≤ t.column) && decide (t.column ≤ 8) && decide (t.peer < 256) && decide (t.version < 256)

/-- The bytes of copy data in a Novilo frame. -/
def NvBody.dataBytes : NvBody → Nat
  | .messages _ => 0
  | .data ws => (ws.map fun w => w.2.length).sum
  | .ack => 0

/-- A Novilo frame between two packages: at most 64 messages of 64 bytes, or 4 KiB of copy data (17 R376). -/
def NvFrame.wf (f : NvFrame) : Bool :=
  decide (f.port < 8) && decide (f.peer < 256) && decide (f.etherType < 65536) &&
  (match f.body with
   | .messages ms => decide (ms.length ≤ 64) && ms.all fun m => m.length == 64
   | .data ws => decide ((NvBody.data ws).dataBytes ≤ 4096)
   | .ack => true)

/-- The rotation's unused register is 0 (12 Table 12-15). -/
def Dir.fits : Dir → ZReg → ZReg → Bool
  | .a, m, _ => m == 0
  | .b, _, n => n == 0
  | .ab, _, _ => true

/-- An instruction whose operands its row allows. -/
def Instr.wf (i : Instr) : Bool :=
  match i with
  | .atomAdd z _ _ _ _ => z.wide
  | .atomMin z _ _ _ _ => z.wide
  | .atomMax z _ _ _ _ => z.wide
  | .atomMinu z _ _ _ _ => z.wide
  | .atomMaxu z _ _ _ _ => z.wide
  | .atomAnd z _ _ _ _ => z.wide
  | .atomOr z _ _ _ _ => z.wide
  | .atomXor z _ _ _ _ => z.wide
  | .atomSwap z _ _ _ _ => z.wide
  | .cas z _ _ _ _ => z.wide
  | .amergeI z _ _ _ => z.wide
  | .wrot t zb za => t.fits zb za
  | .wmacr t zb za _ _ => t.fits zb za
  | .wstat clr _ sel => !clr || sel == 0 || sel == 3
  | .hostWindowMessage off data => decide (off < 262144) && decide (data.length = 8)
  | .bar4Write off data => decide (off + data.length ≤ 67108864)
  | .bar4Read off len => decide (off + len ≤ 67108864)
  | .registerWrite off _ => decide (off < 65536)
  | .messageDelivery src => src.wf
  | .handlerStart c _ => c.wf
  | .directStart c _ => c.wf
  | .droopEvent cl => decide (cl < 192)
  | .temperatureSample n _ => decide (n < 200)
  | .fetchGroupDelivery u => u.wf
  | .bucketPostArrival cl _ => decide (cl < 192)
  | .bucketTimeout cl _ => decide (cl < 192)
  | .waveLaunch cl _ => decide (cl < 192)
  | .migrationPlacement cl => decide (cl < 192)
  | .rputArrival srcs => srcs.all OutQ.wf
  | .streamElementArrival p _ => p.wf
  | .streamPushPerform p _ => p.wf
  | .copySectorComplete u => u.wf
  | .copyComplete u => u.wf
  | .triggerMessageSend cl => decide (cl < 192)
  | .galleryRequest cl _ => decide (cl < 192)
  | .galleryHandout cl => decide (cl < 192)
  | .bankOperationStart cl => decide (cl < 192)
  | .bankOperationComplete cl => decide (cl < 192)
  | .rotationStepResume cl => decide (cl < 192)
  | .bankWatchdogReset cl => decide (cl < 192)
  | .stealRequest cl => decide (cl < 192)
  | .faultTokenAssign cl => decide (cl < 192)
  | .pagerReply cl c => decide (cl < 192) && decide (c < 32)
  | .preemptionCommand cl c => decide (cl < 192) && decide (c < 32)
  | .dataError a _ => a.wf
  | .errorEvent u k _ => unitOk u && decide (k < 4)
  | .noviloFrameReceive h b => NvFrame.wf ⟨h, b⟩
  | .eopraBoot (some x) _ _ => x.table.wf
  | _ => true

end Sys2Proof
end

