-- ==== Sys2Proof/Decode.lean ====
section
/-!
DEFINITION. Decoding of instruction words, total and rejecting by name (02 R39-R48), and the encoder
of the same formats (02 Table 02-2, Table 02-3; the entries' encoding tables).
-/

namespace Sys2Proof

/-- Why a word is no instruction (02 R48). -/
inductive Reject
  | zeroWord
  | class31
  | unlistedCode
  | rounding
  | hint
  | size
  | zeroField
  | predicate
  | sysReg
  deriving DecidableEq, Repr

namespace Dec

/-- Bits [lo+k-1:lo] of a word held as a natural number. -/
abbrev fld (n lo k : Nat) : Nat := n / 2 ^ lo % 2 ^ k

/-- The d field of TRI, QUAD, IMM, UPR and MEM (02 Table 02-2). -/
def rd (n : Nat) : Reg := Fin.ofNat 32 (n / 4194304)
/-- The a field of TRI, QUAD, IMM and MEM. -/
def ra (n : Nat) : Reg := Fin.ofNat 32 (n / 131072)
/-- The b field of TRI and QUAD. -/
def rb (n : Nat) : Reg := Fin.ofNat 32 (n / 4096)
/-- The c field of QUAD. -/
def rc (n : Nat) : Reg := Fin.ofNat 32 (n / 128)
/-- The a field of PRD. -/
def pra (n : Nat) : Reg := Fin.ofNat 32 (n / 32768)
/-- The b field of PRD. -/
def prb (n : Nat) : Reg := Fin.ofNat 32 (n / 1024)
/-- The xa field of BNK. -/
def xa (n : Nat) : Reg := Fin.ofNat 32 (n / 65536)
/-- The xb field of BNK. -/
def xb (n : Nat) : Reg := Fin.ofNat 32 (n / 2048)
/-- The 4-bit register field [3:0] of BNK. -/
def z0 (n : Nat) : ZReg := Fin.ofNat 16 n
/-- The 4-bit register field [7:4] of BNK. -/
def z1 (n : Nat) : ZReg := Fin.ofNat 16 (n / 16)

/-- A predicate field; 96-127 is rejected (02 R41). -/
def pred (v : Nat) (k : Pred → Except Reject Instr) : Except Reject Instr :=
  if h : v < 96 then k ⟨v, h⟩ else .error .predicate

/-- A condition, else a rejection by name. -/
def need (b : Bool) (e : Reject) (r : Except Reject Instr) : Except Reject Instr :=
  if b then r else .error e

/-- A field that must be 0 (02 R41). -/
def zero (v : Nat) (r : Except Reject Instr) : Except Reject Instr :=
  need (v == 0) .zeroField r

/-- The rounding code (02 R44). -/
def rnd (v : Nat) (k : Rnd → Except Reject Instr) : Except Reject Instr :=
  match v with
  | 0 => k .dyn
  | 1 => k .rne
  | 2 => k .rtz
  | 3 => k .rup
  | 4 => k .rdn
  | _ => .error .rounding

/-- The hint code (02 R46). -/
def hint (v : Nat) (k : Hint → Except Reject Instr) : Except Reject Instr :=
  match v with
  | 0 => k .normal
  | 1 => k .nl
  | 2 => k .la
  | _ => .error .hint

/-- The 2-bit scope code (01 Table 01-3). -/
def scope (v : Nat) : Scope :=
  match v % 4 with
  | 0 => .cl
  | 1 => .die
  | 2 => .pkg
  | _ => .sys

/-- The 2-bit size code (02 R45). -/
def size (v : Nat) : MemSize :=
  match v % 4 with
  | 0 => .b
  | 1 => .h
  | 2 => .w
  | _ => .d

/-- PCMP and PCMPI cc, 1-6 (02 Table 02-3). -/
def cc (v : Nat) (k : Cc → Except Reject Instr) : Except Reject Instr :=
  match v with
  | 1 => k .eq
  | 2 => k .ne
  | 3 => k .lt
  | 4 => k .ge
  | 5 => k .ltu
  | 6 => k .geu
  | _ => .error .unlistedCode

/-- FCMP cc, 1-6 (02 Table 02-3). -/
def fcc (v : Nat) (k : Fcc → Except Reject Instr) : Except Reject Instr :=
  match v with
  | 1 => k .eq
  | 2 => k .ne
  | 3 => k .lt
  | 4 => k .le
  | 5 => k .uno
  | 6 => k .ord
  | _ => .error .unlistedCode

/-- The VRED and VSCAN op, 1-11 (07 Table 07-5). -/
def redOp (v : Nat) (k : RedOp → Except Reject Instr) : Except Reject Instr :=
  match v with
  | 1 => k .add
  | 2 => k .min
  | 3 => k .max
  | 4 => k .minu
  | 5 => k .maxu
  | 6 => k .and
  | 7 => k .or
  | 8 => k .xor
  | 9 => k .fadd
  | 10 => k .fmin
  | 11 => k .fmax
  | _ => .error .unlistedCode

/-- The VSHFL mode (07 R171). -/
def shfl (v : Nat) : Shfl :=
  match v % 4 with
  | 0 => .idx
  | 1 => .up
  | 2 => .down
  | _ => .xor

/-- What TLREAD reads (10 R248). -/
def tlSel (v : Nat) : TlSel :=
  match v % 4 with
  | 0 => .v
  | 1 => .i
  | 2 => .f
  | _ => .c

/-- A group of three: 3 is rejected (05 R119). -/
def three (v : Nat) (k : Fin 3 → Except Reject Instr) : Except Reject Instr :=
  match v with
  | 0 => k 0
  | 1 => k 1
  | 2 => k 2
  | _ => .error .zeroField

/-- A VQUANT block code, 0-5 (07 R171). -/
def six (v : Nat) (k : Fin 6 → Except Reject Instr) : Except Reject Instr :=
  match v with
  | 0 => k 0
  | 1 => k 1
  | 2 => k 2
  | 3 => k 3
  | 4 => k 4
  | 5 => k 5
  | _ => .error .unlistedCode

/-- A WSTAT selector, 0-6 (12 R286). -/
def seven (v : Nat) (k : Fin 7 → Except Reject Instr) : Except Reject Instr :=
  match v with
  | 0 => k 0
  | 1 => k 1
  | 2 => k 2
  | 3 => k 3
  | 4 => k 4
  | 5 => k 5
  | 6 => k 6
  | _ => .error .unlistedCode

/-- A bank side bit. -/
def side (v : Nat) : Side := if v = 0 then .a else .b

/-- A configuration register number (12 Table 12-15). -/
def cfg (v : Nat) : Cfg :=
  match v % 8 with
  | 0 => .wgp
  | 1 => .wkp0
  | 2 => .wkp1
  | 3 => .wkp2
  | 4 => .wkp3
  | 5 => .wacb
  | 6 => .wrotc
  | _ => .wtl

/-- The rotation direction with the rule that the register it does not use is 0 (12 Table 12-15). -/
def dir (v m n : Nat) (k : Dir → Except Reject Instr) : Except Reject Instr :=
  match v with
  | 1 => zero m (k .a)
  | 2 => zero n (k .b)
  | 3 => k .ab
  | _ => .error .unlistedCode

/-- A system register number (02 Table 02-9). -/
def sysReg (v : Nat) (k : SysReg → Except Reject Instr) : Except Reject Instr :=
  match v with
  | 0 => k .fmode
  | 1 => k .fflags
  | 2 => k .nbv
  | 3 => k .chksb
  | 4 => k .guardst
  | 8 => k .mgrec
  | 9 => k .dqbase
  | 10 => k .dqlim
  | 11 => k .gtimeout
  | 16 => k .rank
  | 17 => k .nranks
  | 18 => k .cluster
  | 19 => k .core
  | 20 => k .context
  | 21 => k .lane
  | 22 => k .engine
  | 23 => k .gangid
  | 32 => k .trrdown
  | 33 => k .trrdoth
  | 34 => k .trwrown
  | 35 => k .trwroth
  | 36 => k .trlhit
  | 37 => k .trlink0
  | 38 => k .trlink1
  | 39 => k .trcsav
  | 48 => k .featcap0
  | 49 => k .featcap1
  | 50 => k .featcap2
  | 51 => k .featcap3
  | 52 => k .featack0
  | 53 => k .featack1
  | 54 => k .featack2
  | 55 => k .featack3
  | 256 => k .status
  | 257 => k .cause
  | 258 => k .epc
  | 259 => k .eval
  | 260 => k .eguard
  | 261 => k .tvec
  | 262 => k .escr
  | _ => .error .sysReg

/-- Class 0, ALU (05 R107). -/
def alu (n : Nat) : Except Reject Instr :=
  match n % 64 with
  | 1 => zero (fld n 6 6) (.ok (.add (rd n) (ra n) (rb n)))
  | 2 => zero (fld n 6 6) (.ok (.sub (rd n) (ra n) (rb n)))
  | 3 => zero (fld n 6 6) (.ok (.and (rd n) (ra n) (rb n)))
  | 4 => zero (fld n 6 6) (.ok (.or (rd n) (ra n) (rb n)))
  | 5 => zero (fld n 6 6) (.ok (.xor (rd n) (ra n) (rb n)))
  | 6 => zero (fld n 6 6) (.ok (.andn (rd n) (ra n) (rb n)))
  | 7 => zero (fld n 6 6) (.ok (.orn (rd n) (ra n) (rb n)))
  | 8 => zero (fld n 6 6) (.ok (.xnor (rd n) (ra n) (rb n)))
  | 9 => zero (fld n 6 6) (.ok (.shl (rd n) (ra n) (rb n)))
  | 10 => zero (fld n 6 6) (.ok (.shr (rd n) (ra n) (rb n)))
  | 11 => zero (fld n 6 6) (.ok (.sar (rd n) (ra n) (rb n)))
  | 12 => zero (fld n 6 6) (.ok (.rol (rd n) (ra n) (rb n)))
  | 13 => zero (fld n 6 6) (.ok (.ror (rd n) (ra n) (rb n)))
  | 14 => zero (fld n 6 6) (.ok (.mul (rd n) (ra n) (rb n)))
  | 15 => zero (fld n 6 6) (.ok (.mulh (rd n) (ra n) (rb n)))
  | 16 => zero (fld n 6 6) (.ok (.mulhu (rd n) (ra n) (rb n)))
  | 17 => zero (fld n 6 6) (.ok (.div (rd n) (ra n) (rb n)))
  | 18 => zero (fld n 6 6) (.ok (.divu (rd n) (ra n) (rb n)))
  | 19 => zero (fld n 6 6) (.ok (.rem (rd n) (ra n) (rb n)))
  | 20 => zero (fld n 6 6) (.ok (.remu (rd n) (ra n) (rb n)))
  | 21 => zero (fld n 6 6) (.ok (.min (rd n) (ra n) (rb n)))
  | 22 => zero (fld n 6 6) (.ok (.max (rd n) (ra n) (rb n)))
  | 23 => zero (fld n 6 6) (.ok (.minu (rd n) (ra n) (rb n)))
  | 24 => zero (fld n 6 6) (.ok (.maxu (rd n) (ra n) (rb n)))
  | 25 => zero (fld n 6 6) (.ok (.slt (rd n) (ra n) (rb n)))
  | 26 => zero (fld n 6 6) (.ok (.sltu (rd n) (ra n) (rb n)))
  | 27 => zero (fld n 12 5 + fld n 6 6) (.ok (.clz (rd n) (ra n)))
  | 28 => zero (fld n 12 5 + fld n 6 6) (.ok (.ctz (rd n) (ra n)))
  | 29 => zero (fld n 12 5 + fld n 6 6) (.ok (.pop (rd n) (ra n)))
  | 30 => zero (fld n 12 5 + fld n 6 6) (.ok (.brev (rd n) (ra n)))
  | 31 => zero (fld n 12 5 + fld n 6 6) (.ok (.bswap (rd n) (ra n)))
  | 32 => zero (fld n 12 5 + fld n 6 6) (.ok (.sextB (rd n) (ra n)))
  | 33 => zero (fld n 12 5 + fld n 6 6) (.ok (.sextH (rd n) (ra n)))
  | 34 => zero (fld n 12 5 + fld n 6 6) (.ok (.sextW (rd n) (ra n)))
  | 35 => zero (fld n 12 5 + fld n 6 6) (.ok (.zextB (rd n) (ra n)))
  | 36 => zero (fld n 12 5 + fld n 6 6) (.ok (.zextH (rd n) (ra n)))
  | 37 => zero (fld n 12 5 + fld n 6 6) (.ok (.zextW (rd n) (ra n)))
  | 38 => zero (fld n 6 6) (.ok (.addw (rd n) (ra n) (rb n)))
  | 39 => zero (fld n 6 6) (.ok (.subw (rd n) (ra n) (rb n)))
  | 40 => zero (fld n 6 6) (.ok (.mulw (rd n) (ra n) (rb n)))
  | _ => .error .unlistedCode

/-- Class 13, BITS (05 R119). -/
def bitsCls (n : Nat) : Except Reject Instr :=
  match n % 64 with
  | 1 => zero (fld n 9 3) (.ok (.mhpk (rd n) (ra n) (rb n) (Fin.ofNat 8 (n / 64))))
  | 2 => zero (fld n 12 5 + fld n 10 2) (.ok (.mhun (fld n 9 1 == 1) (rd n) (ra n) (Fin.ofNat 8 (n / 64))))
  | 3 => zero (fld n 22 5 + fld n 6 6) (.ok (.layw (ra n) (rb n)))
  | 4 => zero (fld n 12 5 + fld n 6 6) (.ok (.layr (rd n) (ra n)))
  | 5 => zero (fld n 8 14) (three (fld n 6 2) fun g => .ok (.prdx (rd n) g))
  | 6 => zero (fld n 22 5 + fld n 8 9) (three (fld n 6 2) fun g => .ok (.xprd (ra n) g))
  | _ => .error .unlistedCode

/-- Class 17, JUMPR (05 R127). -/
def jumpr (n : Nat) : Except Reject Instr :=
  match n % 64 with
  | 1 => zero (fld n 22 5 + fld n 12 5 + fld n 6 6) (.ok (.jmpr (ra n)))
  | 2 => zero (fld n 22 5 + fld n 12 5 + fld n 6 6) (.ok (.callr (ra n)))
  | 3 => zero (fld n 22 5 + fld n 17 5 + fld n 12 5 + fld n 6 6) (.ok (.ret))
  | _ => .error .unlistedCode

/-- Class 23, STREAM (10 Table 10-6). -/
def stream (n : Nat) : Except Reject Instr :=
  match n % 64 with
  | 1 => zero (fld n 22 5 + fld n 8 9) (.ok (.sbind (Fin.ofNat 4 (n / 64)) (ra n)))
  | 2 => zero (fld n 8 19) (.ok (.sclose (Fin.ofNat 4 (n / 64))))
  | 3 => zero (fld n 8 14) (.ok (.sstat (rd n) (Fin.ofNat 4 (n / 64))))
  | 4 => zero (fld n 12 5 + fld n 6 6) (.ok (.tcopy (rd n) (ra n)))
  | 5 => zero (fld n 22 5 + fld n 8 4) (.ok (.tlwait (scope (fld n 6 2)) (ra n) (rb n)))
  | 6 => zero (fld n 8 9) (.ok (.tlread (tlSel (fld n 6 2)) (rd n) (ra n)))
  | 7 => zero (fld n 22 5 + fld n 6 6) (.ok (.tlarm (ra n) (rb n)))
  | _ => .error .unlistedCode

/-- Class 24, GALLERY (11 Table 11-5). -/
def gallery (n : Nat) : Except Reject Instr :=
  match n % 64 with
  | 1 => zero (fld n 6 6) (.ok (.galloc (rd n) (ra n) (rb n)))
  | 2 => zero (fld n 6 6) (.ok (.gtry (rd n) (ra n) (rb n)))
  | 3 => zero (fld n 22 5 + fld n 12 5 + fld n 6 6) (.ok (.gseal (ra n)))
  | 4 => zero (fld n 12 5 + fld n 6 6) (.ok (.gtake (rd n) (ra n)))
  | 5 => zero (fld n 22 5 + fld n 12 5 + fld n 6 6) (.ok (.gdone (ra n)))
  | 6 => zero (fld n 22 5 + fld n 6 6) (.ok (.gdrop (ra n) (rb n)))
  | 7 => zero (fld n 12 5 + fld n 7 5)
      (if fld n 6 1 = 1 then .ok (.gstatTile (rd n) (ra n)) else .ok (.gstatBay (rd n) (ra n)))
  | 8 => zero (fld n 6 6) (.ok (.gbay (rd n) (ra n) (rb n)))
  | _ => .error .unlistedCode

/-- Class 26, MESSAGE (03 Table 03-10; 14 Table 14-2). -/
def message (n : Nat) : Except Reject Instr :=
  match n % 64 with
  | 1 => zero (fld n 22 5 + fld n 6 6) (.ok (.msend (ra n) (rb n)))
  | 2 => zero (fld n 22 5 + fld n 6 6) (.ok (.mreq (ra n) (rb n)))
  | 3 => zero (fld n 22 5 + fld n 17 5 + fld n 12 5 + fld n 6 6) (.ok (.mret))
  | 4 => zero (fld n 22 5 + fld n 6 6) (.ok (.hset (ra n) (rb n)))
  | 5 => zero (fld n 6 6) (.ok (.hmask (rd n) (ra n) (rb n)))
  | 6 => zero (fld n 22 5 + fld n 6 6) (.ok (.rput (ra n) (rb n)))
  | 7 => zero (fld n 12 5 + fld n 6 6) (.ok (.qget (rd n) (ra n)))
  | 8 => zero (fld n 12 5 + fld n 6 6) (.ok (.qpeek (rd n) (ra n)))
  | 9 => zero (fld n 8 4) (.ok (.dqpush (scope (fld n 6 2)) (rd n) (ra n) (rb n)))
  | 10 => zero (fld n 17 5 + fld n 12 5 + fld n 6 6) (.ok (.dqpop (rd n)))
  | 11 => zero (fld n 12 5 + fld n 6 6) (.ok (.dqsteal (rd n) (ra n)))
  | 12 => zero (fld n 8 9) (.ok (.bar (scope (fld n 6 2)) (rd n) (ra n)))
  | 13 => zero (fld n 8 9) (.ok (.bara (scope (fld n 6 2)) (rd n) (ra n)))
  | 14 => zero (fld n 22 5 + fld n 8 4) (.ok (.barw (scope (fld n 6 2)) (ra n) (rb n)))
  | _ => .error .unlistedCode

/-- Class 28, WAVE (07 Table 07-4). -/
def waveCls (n : Nat) : Except Reject Instr :=
  match n % 64 with
  | 1 => .ok (.vshfl (shfl (fld n 6 2)) (fld n 8 1 == 1) (fld n 9 1 == 1) (Fin.ofNat 4 (n / 1024)) (rd n) (ra n) (rb n))
  | 2 => zero (fld n 11 6) (redOp (fld n 6 5) fun op => .ok (.vred op (rd n) (ra n)))
  | 3 => zero (fld n 12 5) (redOp (fld n 6 5) fun op => .ok (.vscan op (fld n 11 1 == 1) (rd n) (ra n)))
  | 4 => zero (fld n 14 3 + fld n 6 6) (pred (fld n 17 5 + 32 * fld n 12 2) fun p => .ok (.vball (rd n) p))
  | 5 => zero (fld n 14 3 + fld n 6 6) (pred (fld n 17 5 + 32 * fld n 12 2) fun p => .ok (.velect (rd n) p))
  | 6 => zero (fld n 9 3) (six (fld n 6 3) fun k => .ok (.vquant (rd n) (ra n) (rb n) k))
  | 7 => zero (fld n 6 6) (.ok (.vdeq (rd n) (ra n) (rb n)))
  | 8 => zero (fld n 10 7) (.ok (.venc (rd n) (ra n) (Fin.ofNat 16 (n / 64))))
  | _ => .error .unlistedCode

/-- Class 29, GATHER (08 Table 08-4). -/
def gather (n : Nat) : Except Reject Instr :=
  match n % 64 with
  | 1 => zero (fld n 6 6) (.ok (.mbpost (rd n) (ra n) (rb n)))
  | 2 => zero (fld n 12 5 + fld n 6 6) (.ok (.mbwait (rd n) (ra n)))
  | 3 => zero (fld n 22 5 + fld n 12 5 + fld n 6 6) (.ok (.gflush (ra n)))
  | 4 => zero (fld n 22 5 + fld n 12 5 + fld n 6 6) (.ok (.migr (ra n)))
  | 5 => zero (fld n 22 5 + fld n 17 5 + fld n 12 5 + fld n 6 6) (.ok (.mgpt))
  | _ => .error .unlistedCode

/-- Class 5, the shifts by an immediate (05 R112). -/
def shifti (n : Nat) : Except Reject Instr :=
  zero (fld n 6 8)
    (match fld n 14 3 with
     | 0 => .ok (.shli (rd n) (ra n) (Fin.ofNat 64 n))
     | 1 => .ok (.shri (rd n) (ra n) (Fin.ofNat 64 n))
     | 2 => .ok (.sari (rd n) (ra n) (Fin.ofNat 64 n))
     | 3 => .ok (.roli (rd n) (ra n) (Fin.ofNat 64 n))
     | _ => .error .unlistedCode)

/-- Class 14, PRED (02 Table 02-3). -/
def predCls (n : Nat) : Except Reject Instr :=
  match n % 64 with
  | 1 => pred (fld n 20 7) fun p => cc (fld n 6 4) fun c => .ok (.pcmp c p (pra n) (prb n))
  | 2 => pred (fld n 20 7) fun p => cc (fld n 6 4) fun c =>
      .ok (.pcmpi c p (pra n) (BitVec.ofNat 5 (n / 1024)))
  | 3 => pred (fld n 20 7) fun p => fcc (fld n 6 4) fun c => .ok (.fcmp c p (pra n) (prb n))
  | _ => .error .unlistedCode

/-- Class 15, PLOG (02 Table 02-3). -/
def plog (n : Nat) : Except Reject Instr :=
  zero (n % 8)
    (pred (fld n 20 7) fun p => pred (fld n 13 7) fun a => pred (fld n 6 7) fun b =>
      match fld n 3 3 with
      | 1 => .ok (.pand p a b)
      | 2 => .ok (.por p a b)
      | 3 => .ok (.pxor p a b)
      | 4 => .ok (.pandn p a b)
      | 5 => .ok (.porn p a b)
      | 6 => zero (fld n 6 7) (.ok (.pnot p a))
      | _ => .error .unlistedCode)

/-- Class 16, BRANCH (02 Table 02-2 JMP). -/
def branch (n : Nat) : Except Reject Instr :=
  match fld n 25 2 with
  | 0 => .ok (.br (BitVec.ofNat 25 n))
  | 1 => .ok (.call (BitVec.ofNat 25 n))
  | 2 => pred (fld n 18 7) fun p => .ok (.brp p (BitVec.ofNat 18 n))
  | _ => pred (fld n 18 7) fun p => .ok (.brn p (BitVec.ofNat 18 n))

/-- Class 18, FPU (02 R44). -/
def fpu (n : Nat) : Except Reject Instr :=
  rnd (fld n 9 3) fun r =>
    match n % 512 with
    | 1 => .ok (.fadd r (rd n) (ra n) (rb n))
    | 2 => .ok (.fsub r (rd n) (ra n) (rb n))
    | 3 => .ok (.fmul r (rd n) (ra n) (rb n))
    | 4 => .ok (.fdiv r (rd n) (ra n) (rb n))
    | 5 => zero (fld n 12 5) (.ok (.fsqrt r (rd n) (ra n)))
    | 6 => .ok (.fmin r (rd n) (ra n) (rb n))
    | 7 => .ok (.fmax r (rd n) (ra n) (rb n))
    | 8 => zero (fld n 12 5) (.ok (.fabs r (rd n) (ra n)))
    | 9 => zero (fld n 12 5) (.ok (.fneg r (rd n) (ra n)))
    | 10 => .ok (.fsgnj r (rd n) (ra n) (rb n))
    | 11 => zero (fld n 12 5) (.ok (.frcp r (rd n) (ra n)))
    | 12 => zero (fld n 12 5) (.ok (.frsq r (rd n) (ra n)))
    | 13 => zero (fld n 12 5) (.ok (.fexp2 r (rd n) (ra n)))
    | 14 => zero (fld n 12 5) (.ok (.flog2 r (rd n) (ra n)))
    | 15 => zero (fld n 12 5) (.ok (.fsin r (rd n) (ra n)))
    | 16 => zero (fld n 12 5) (.ok (.fcos r (rd n) (ra n)))
    | 17 => zero (fld n 12 5) (.ok (.fclass r (rd n) (ra n)))
    | 18 => zero (fld n 12 5) (.ok (.f2i r (rd n) (ra n)))
    | 19 => zero (fld n 12 5) (.ok (.f2iu r (rd n) (ra n)))
    | 20 => zero (fld n 12 5) (.ok (.i2f r (rd n) (ra n)))
    | 21 => zero (fld n 12 5) (.ok (.iu2f r (rd n) (ra n)))
    | 22 => zero (fld n 12 5) (.ok (.f2bf r (rd n) (ra n)))
    | 23 => zero (fld n 12 5) (.ok (.bf2f r (rd n) (ra n)))
    | 24 => zero (fld n 12 5) (.ok (.f2h r (rd n) (ra n)))
    | 25 => zero (fld n 12 5) (.ok (.h2f r (rd n) (ra n)))
    | 26 => .ok (.hadd2 r (rd n) (ra n) (rb n))
    | 27 => .ok (.hmul2 r (rd n) (ra n) (rb n))
    | 28 => .ok (.hmin2 r (rd n) (ra n) (rb n))
    | 29 => .ok (.hmax2 r (rd n) (ra n) (rb n))
    | 30 => zero (fld n 12 5) (.ok (.fmvXf r (rd n) (ra n)))
    | 31 => zero (fld n 12 5) (.ok (.fmvFx r (rd n) (ra n)))
    | _ => .error .unlistedCode

/-- Class 19, FMA (02 R44). -/
def fma (n : Nat) : Except Reject Instr :=
  rnd (fld n 4 3) fun r =>
    match n % 16 with
    | 1 => .ok (.fma r (rd n) (ra n) (rb n) (rc n))
    | 2 => .ok (.fms r (rd n) (ra n) (rb n) (rc n))
    | 3 => .ok (.fnma r (rd n) (ra n) (rb n) (rc n))
    | 4 => .ok (.fnms r (rd n) (ra n) (rb n) (rc n))
    | 5 => .ok (.hfma2 r (rd n) (ra n) (rb n) (rc n))
    | 6 => .ok (.hfma2h r (rd n) (ra n) (rb n) (rc n))
    | _ => .error .unlistedCode

/-- Class 20, LOAD (09 R216). -/
def load (n : Nat) : Except Reject Instr :=
  hint (fld n 12 2) fun h =>
    match fld n 14 3 with
    | 0 => .ok (.ldB h (rd n) (ra n) (BitVec.ofNat 12 n))
    | 1 => .ok (.ldBu h (rd n) (ra n) (BitVec.ofNat 12 n))
    | 2 => .ok (.ldH h (rd n) (ra n) (BitVec.ofNat 12 n))
    | 3 => .ok (.ldHu h (rd n) (ra n) (BitVec.ofNat 12 n))
    | 4 => .ok (.ldW h (rd n) (ra n) (BitVec.ofNat 12 n))
    | 5 => .ok (.ldWu h (rd n) (ra n) (BitVec.ofNat 12 n))
    | 6 => .ok (.ldD h (rd n) (ra n) (BitVec.ofNat 12 n))
    | 7 => .ok (.fld h (rd n) (ra n) (BitVec.ofNat 12 n))
    | _ => .error .unlistedCode

/-- Class 21, STORE (09 R216). -/
def store (n : Nat) : Except Reject Instr :=
  hint (fld n 12 2) fun h =>
    match fld n 14 3 with
    | 0 => .ok (.stB h (rd n) (ra n) (BitVec.ofNat 12 n))
    | 1 => .ok (.stH h (rd n) (ra n) (BitVec.ofNat 12 n))
    | 2 => .ok (.stW h (rd n) (ra n) (BitVec.ofNat 12 n))
    | 3 => .ok (.stD h (rd n) (ra n) (BitVec.ofNat 12 n))
    | 4 => .ok (.fst h (rd n) (ra n) (BitVec.ofNat 12 n))
    | _ => .error .unlistedCode

/-- The sizes W and D (02 Table 02-4). -/
def sizeWd (v : Nat) (k : MemSize → Except Reject Instr) : Except Reject Instr :=
  if v < 2 then .error .size else k (size v)

/-- Class 22, MEMSYNC (02 R45; 09 Table 09-7). -/
def memsync (n : Nat) : Except Reject Instr :=
  let z := fld n 2 2
  let s := scope (n % 4)
  match fld n 4 8 with
  | 1 => .ok (.lda (size z) s (rd n) (ra n) (BitVec.ofNat 5 (n / 4096)))
  | 2 => .ok (.strel (size z) s (rb n) (ra n) (BitVec.ofNat 5 (n / 4194304)))
  | 3 => need (z == 0) .size (zero (fld n 12 15) (.ok (.fence s)))
  | 4 => sizeWd z fun z => .ok (.atomAdd z s (rd n) (ra n) (rb n))
  | 5 => sizeWd z fun z => .ok (.atomMin z s (rd n) (ra n) (rb n))
  | 6 => sizeWd z fun z => .ok (.atomMax z s (rd n) (ra n) (rb n))
  | 7 => sizeWd z fun z => .ok (.atomMinu z s (rd n) (ra n) (rb n))
  | 8 => sizeWd z fun z => .ok (.atomMaxu z s (rd n) (ra n) (rb n))
  | 9 => sizeWd z fun z => .ok (.atomAnd z s (rd n) (ra n) (rb n))
  | 10 => sizeWd z fun z => .ok (.atomOr z s (rd n) (ra n) (rb n))
  | 11 => sizeWd z fun z => .ok (.atomXor z s (rd n) (ra n) (rb n))
  | 12 => sizeWd z fun z => .ok (.atomSwap z s (rd n) (ra n) (rb n))
  | 13 => sizeWd z fun z => .ok (.cas z s (rd n) (ra n) (rb n))
  | 14 => sizeWd z fun z => zero (fld n 22 5) (.ok (.amergeI z s (ra n) (rb n)))
  | 15 => need (z == 2) .size (zero (fld n 22 5) (.ok (.amergeF s (ra n) (rb n))))
  | 16 => need (z == 0) .size (zero (fld n 22 5 + fld n 12 5) (.ok (.pref s (ra n))))
  | 17 => need (z == 0) .size (zero (fld n 22 5 + fld n 12 5) (.ok (.cinv s (ra n))))
  | 18 => need (z == 0) .size (zero (fld n 22 5 + fld n 12 5) (.ok (.cflush s (ra n))))
  | _ => .error .unlistedCode

/-- Class 25, BANK (12 Table 12-15). -/
def bank (n : Nat) : Except Reject Instr :=
  match fld n 21 6 with
  | 1 => zero (fld n 3 13) (.ok (.wcfg (cfg n) (xa n)))
  | 2 => zero (fld n 3 13) (.ok (.wrcf (xa n) (cfg n)))
  | 3 => zero (fld n 6 5) (.ok (.wldp (side (fld n 4 1)) (fld n 5 1 == 1) (z0 n) (xa n) (xb n)))
  | 4 => zero (fld n 6 5) (.ok (.wldt (side (fld n 4 1)) (fld n 5 1 == 1) (z0 n) (xa n) (xb n)))
  | 5 => zero (fld n 11 5) (.ok (.wmul (Fin.ofNat 8 (n / 256)) (z1 n) (z0 n) (xa n)))
  | 6 => zero (fld n 8 3) (.ok (.wmac (z1 n) (z0 n) (xa n) (xb n)))
  | 7 => zero (fld n 3 8) (.ok (.wext (Fin.ofNat 8 n) (xa n) (xb n)))
  | 8 => zero (fld n 11 10 + fld n 10 1)
      (dir (fld n 8 2) (fld n 4 4) (n % 16) fun t => .ok (.wrot t (z1 n) (z0 n)))
  | 9 => zero (fld n 10 1)
      (dir (fld n 8 2) (fld n 4 4) (n % 16) fun t => .ok (.wmacr t (z1 n) (z0 n) (xa n) (xb n)))
  | 10 => zero (fld n 0 11) (.ok (.wsta (xa n) (xb n)))
  | 11 => if fld n 4 1 = 1
      then zero (fld n 11 10 + fld n 5 6) (.ok (.wzeroZ (z0 n)))
      else zero (fld n 0 11) (.ok (.wzero (xa n) (xb n)))
  | 12 => zero (fld n 0 16) (.ok (.wwait (xa n)))
  | 13 => zero (fld n 4 12) (seven (fld n 0 3) fun sel =>
      need (fld n 3 1 == 0 || sel == 0 || sel == 3) .unlistedCode
        (.ok (.wstat (fld n 3 1 == 1) (xa n) sel)))
  | 14 => zero (fld n 8 13) (.ok (.wmov (z1 n) (z0 n)))
  | 15 => zero (fld n 5 11) (.ok (.wunpk (side (fld n 4 1)) (xa n) (z0 n)))
  | 16 => zero (fld n 16 5 + fld n 9 2) (.ok (.wshft (side (fld n 8 1)) (z1 n) (z0 n) (xb n)))
  | _ => .error .unlistedCode

/-- Class 27, CONTROL (02 R55, R58). -/
def control (n : Nat) : Except Reject Instr :=
  if fld n 26 1 = 0 then
    zero (fld n 24 2)
      (.ok (.pace (Fin.ofNat 8 n) (Fin.ofNat 8 (n / 8)) (Fin.ofNat 8 (n / 64)) (Fin.ofNat 8 (n / 512))
        (Fin.ofNat 8 (n / 4096)) (Fin.ofNat 8 (n / 32768)) (Fin.ofNat 8 (n / 262144))
        (Fin.ofNat 8 (n / 2097152))))
  else
    zero (fld n 0 15) (pred (fld n 19 7) fun p =>
      .ok (.guard p (fld n 18 1 == 1) (Fin.ofNat 8 (n / 32768))))

/-- Class 30, SYSTEM (02 R46). -/
def system (n : Nat) : Except Reject Instr :=
  match fld n 12 5 with
  | 1 => zero (fld n 17 10) (.ok (.trap (BitVec.ofNat 12 n)))
  | 2 => zero (fld n 17 10 + fld n 0 12) (.ok .eret)
  | 3 => zero (fld n 17 5) (sysReg (fld n 0 12) fun r => .ok (.sysr (rd n) r))
  | 4 => zero (fld n 22 5) (sysReg (fld n 0 12) fun r => .ok (.sysw r (ra n)))
  | 5 => zero (fld n 17 10 + fld n 0 12) (.ok .wfm)
  | 6 => zero (fld n 17 10 + fld n 0 12) (.ok .yield)
  | 7 => zero (fld n 22 5 + fld n 0 12) (.ok (.exit (ra n)))
  | 8 => zero (fld n 22 5 + fld n 0 12) (.ok (.pginv (ra n)))
  | 9 => zero (fld n 17 10) (.ok (.brk (BitVec.ofNat 12 n)))
  | _ => .error .unlistedCode

end Dec

open Dec in
/-- The instruction a word is, or why it is none (02 R39-R48). -/
def decode (w : W32) : Except Reject Instr :=
  let n := w.toNat
  if n = 0 then .error .zeroWord
  else match n / 134217728 with
  | 0 => alu n
  | 1 => .ok (.addi (rd n) (ra n) (BitVec.ofNat 17 n))
  | 2 => .ok (.andi (rd n) (ra n) (BitVec.ofNat 17 n))
  | 3 => .ok (.ori (rd n) (ra n) (BitVec.ofNat 17 n))
  | 4 => .ok (.xori (rd n) (ra n) (BitVec.ofNat 17 n))
  | 5 => shifti n
  | 6 => .ok (.slti (rd n) (ra n) (BitVec.ofNat 17 n))
  | 7 => .ok (.lui (rd n) (BitVec.ofNat 22 n))
  | 8 => .ok (.luih (rd n) (BitVec.ofNat 22 n))
  | 9 => .ok (.addpc (rd n) (BitVec.ofNat 22 n))
  | 10 => zero (fld n 10 2)
      (.ok (.lea (rd n) (ra n) (rb n) (Fin.ofNat 8 (n / 128)) (BitVec.ofNat 7 n)))
  | 11 => zero (fld n 13 4)
      (if fld n 12 1 = 0
       then .ok (.bfxu (rd n) (ra n) (Fin.ofNat 64 (n / 64)) (Fin.ofNat 64 n))
       else .ok (.bfx (rd n) (ra n) (Fin.ofNat 64 (n / 64)) (Fin.ofNat 64 n)))
  | 12 => zero (fld n 12 5) (.ok (.bfi (rd n) (ra n) (Fin.ofNat 64 (n / 64)) (Fin.ofNat 64 n)))
  | 13 => bitsCls n
  | 14 => predCls n
  | 15 => plog n
  | 16 => branch n
  | 17 => jumpr n
  | 18 => fpu n
  | 19 => fma n
  | 20 => load n
  | 21 => store n
  | 22 => memsync n
  | 23 => stream n
  | 24 => gallery n
  | 25 => bank n
  | 26 => message n
  | 27 => control n
  | 28 => waveCls n
  | 29 => gather n
  | 30 => system n
  | _ => .error .class31

namespace Enc

/-- A TRI word (02 Table 02-2). -/
def tri (c d a b fn : Nat) : Nat := c * 134217728 + d * 4194304 + a * 131072 + b * 4096 + fn
/-- A QUAD word. -/
def quad (k d a b c fn : Nat) : Nat :=
  k * 134217728 + d * 4194304 + a * 131072 + b * 4096 + c * 128 + fn
/-- An IMM word. -/
def immW (c d a i : Nat) : Nat := c * 134217728 + d * 4194304 + a * 131072 + i
/-- A UPR word. -/
def upr (c d i : Nat) : Nat := c * 134217728 + d * 4194304 + i
/-- A MEM word. -/
def mem (c d a sz h o : Nat) : Nat :=
  c * 134217728 + d * 4194304 + a * 131072 + sz * 16384 + h * 4096 + o
/-- A PRD word. -/
def prd (p a b cc fn : Nat) : Nat :=
  14 * 134217728 + p * 1048576 + a * 32768 + b * 1024 + cc * 64 + fn
/-- A PLG word. -/
def plg (p a b op : Nat) : Nat := 15 * 134217728 + p * 1048576 + a * 8192 + b * 64 + op * 8
/-- A BNK word. -/
def bnk (wop a b i : Nat) : Nat := 25 * 134217728 + wop * 2097152 + a * 65536 + b * 2048 + i

/-- The rounding code. -/
def rnd : Rnd → Nat
  | .dyn => 0
  | .rne => 1
  | .rtz => 2
  | .rup => 3
  | .rdn => 4
/-- The hint code. -/
def hint : Hint → Nat
  | .normal => 0
  | .nl => 1
  | .la => 2
/-- The scope code. -/
def scope : Scope → Nat
  | .cl => 0
  | .die => 1
  | .pkg => 2
  | .sys => 3
/-- The size code. -/
def size : MemSize → Nat
  | .b => 0
  | .h => 1
  | .w => 2
  | .d => 3
/-- The PCMP cc. -/
def cc : Cc → Nat
  | .eq => 1
  | .ne => 2
  | .lt => 3
  | .ge => 4
  | .ltu => 5
  | .geu => 6
/-- The FCMP cc. -/
def fcc : Fcc → Nat
  | .eq => 1
  | .ne => 2
  | .lt => 3
  | .le => 4
  | .uno => 5
  | .ord => 6
/-- The VSHFL mode. -/
def shfl : Shfl → Nat
  | .idx => 0
  | .up => 1
  | .down => 2
  | .xor => 3
/-- The reduction op. -/
def redOp : RedOp → Nat
  | .add => 1
  | .min => 2
  | .max => 3
  | .minu => 4
  | .maxu => 5
  | .and => 6
  | .or => 7
  | .xor => 8
  | .fadd => 9
  | .fmin => 10
  | .fmax => 11
/-- The TLREAD selector. -/
def tlSel : TlSel → Nat
  | .v => 0
  | .i => 1
  | .f => 2
  | .c => 3
/-- The side bit. -/
def side : Side → Nat
  | .a => 0
  | .b => 1
/-- The rotation direction. -/
def dir : Dir → Nat
  | .a => 1
  | .b => 2
  | .ab => 3
/-- The configuration number. -/
def cfg : Cfg → Nat
  | .wgp => 0
  | .wkp0 => 1
  | .wkp1 => 2
  | .wkp2 => 3
  | .wkp3 => 4
  | .wacb => 5
  | .wrotc => 6
  | .wtl => 7
/-- A Bool as a bit. -/
def bit (b : Bool) : Nat := if b then 1 else 0
/-- The system register number (02 Table 02-9). -/
def sysReg : SysReg → Nat
  | .fmode => 0
  | .fflags => 1
  | .nbv => 2
  | .chksb => 3
  | .guardst => 4
  | .mgrec => 8
  | .dqbase => 9
  | .dqlim => 10
  | .gtimeout => 11
  | .rank => 16
  | .nranks => 17
  | .cluster => 18
  | .core => 19
  | .context => 20
  | .lane => 21
  | .engine => 22
  | .gangid => 23
  | .trrdown => 32
  | .trrdoth => 33
  | .trwrown => 34
  | .trwroth => 35
  | .trlhit => 36
  | .trlink0 => 37
  | .trlink1 => 38
  | .trcsav => 39
  | .featcap0 => 48
  | .featcap1 => 49
  | .featcap2 => 50
  | .featcap3 => 51
  | .featack0 => 52
  | .featack1 => 53
  | .featack2 => 54
  | .featack3 => 55
  | .status => 256
  | .cause => 257
  | .epc => 258
  | .eval => 259
  | .eguard => 260
  | .tvec => 261
  | .escr => 262

end Enc

open Enc in
/-- The bits of an instruction's word; none for an event, which has no word (02 Table 02-2,
Table 02-3). -/
def encodeBits (i : Instr) : Option Nat :=
  match i with
  | .add d a b => some (tri 0 d a b 1)
  | .sub d a b => some (tri 0 d a b 2)
  | .and d a b => some (tri 0 d a b 3)
  | .or d a b => some (tri 0 d a b 4)
  | .xor d a b => some (tri 0 d a b 5)
  | .andn d a b => some (tri 0 d a b 6)
  | .orn d a b => some (tri 0 d a b 7)
  | .xnor d a b => some (tri 0 d a b 8)
  | .shl d a b => some (tri 0 d a b 9)
  | .shr d a b => some (tri 0 d a b 10)
  | .sar d a b => some (tri 0 d a b 11)
  | .rol d a b => some (tri 0 d a b 12)
  | .ror d a b => some (tri 0 d a b 13)
  | .mul d a b => some (tri 0 d a b 14)
  | .mulh d a b => some (tri 0 d a b 15)
  | .mulhu d a b => some (tri 0 d a b 16)
  | .div d a b => some (tri 0 d a b 17)
  | .divu d a b => some (tri 0 d a b 18)
  | .rem d a b => some (tri 0 d a b 19)
  | .remu d a b => some (tri 0 d a b 20)
  | .min d a b => some (tri 0 d a b 21)
  | .max d a b => some (tri 0 d a b 22)
  | .minu d a b => some (tri 0 d a b 23)
  | .maxu d a b => some (tri 0 d a b 24)
  | .slt d a b => some (tri 0 d a b 25)
  | .sltu d a b => some (tri 0 d a b 26)
  | .clz d a => some (tri 0 d a 0 27)
  | .ctz d a => some (tri 0 d a 0 28)
  | .pop d a => some (tri 0 d a 0 29)
  | .brev d a => some (tri 0 d a 0 30)
  | .bswap d a => some (tri 0 d a 0 31)
  | .sextB d a => some (tri 0 d a 0 32)
  | .sextH d a => some (tri 0 d a 0 33)
  | .sextW d a => some (tri 0 d a 0 34)
  | .zextB d a => some (tri 0 d a 0 35)
  | .zextH d a => some (tri 0 d a 0 36)
  | .zextW d a => some (tri 0 d a 0 37)
  | .addw d a b => some (tri 0 d a b 38)
  | .subw d a b => some (tri 0 d a b 39)
  | .mulw d a b => some (tri 0 d a b 40)
  | .addi d a i => some (immW 1 d a i.toNat)
  | .andi d a i => some (immW 2 d a i.toNat)
  | .ori d a i => some (immW 3 d a i.toNat)
  | .xori d a i => some (immW 4 d a i.toNat)
  | .shli d a n => some (immW 5 d a n.val)
  | .shri d a n => some (immW 5 d a (16384 + n.val))
  | .sari d a n => some (immW 5 d a (32768 + n.val))
  | .roli d a n => some (immW 5 d a (49152 + n.val))
  | .slti d a i => some (immW 6 d a i.toNat)
  | .lui d i => some (upr 7 d i.toNat)
  | .luih d i => some (upr 8 d i.toNat)
  | .addpc d i => some (upr 9 d i.toNat)
  | .lea d a b s i => some (quad 10 d a b s.val (i.toNat))
  | .bfxu d a l p => some (immW 11 d a (l.val * 64 + p.val))
  | .bfx d a l p => some (immW 11 d a (4096 + l.val * 64 + p.val))
  | .bfi d a l p => some (immW 12 d a (l.val * 64 + p.val))
  | .mhpk d a b l => some (tri 13 d a b (l.val * 64 + 1))
  | .mhun s d a l => some (tri 13 d a 0 (bit s * 512 + l.val * 64 + 2))
  | .layw a b => some (tri 13 0 a b 3)
  | .layr d a => some (tri 13 d a 0 4)
  | .prdx d g => some (tri 13 d 0 0 (g.val * 64 + 5))
  | .xprd a g => some (tri 13 0 a 0 (g.val * 64 + 6))
  | .pcmp c p a b => some (prd p a b (cc c) 1)
  | .pcmpi c p a i => some (prd p a i.toNat (cc c) 2)
  | .fcmp c p a b => some (prd p a b (fcc c) 3)
  | .pand p a b => some (plg p a b 1)
  | .por p a b => some (plg p a b 2)
  | .pxor p a b => some (plg p a b 3)
  | .pandn p a b => some (plg p a b 4)
  | .porn p a b => some (plg p a b 5)
  | .pnot p a => some (plg p a 0 6)
  | .br o => some (16 * 134217728 + o.toNat)
  | .call o => some (16 * 134217728 + 33554432 + o.toNat)
  | .brp p o => some (16 * 134217728 + 2 * 33554432 + p.val * 262144 + o.toNat)
  | .brn p o => some (16 * 134217728 + 3 * 33554432 + p.val * 262144 + o.toNat)
  | .jmpr a => some (tri 17 0 a 0 1)
  | .callr a => some (tri 17 0 a 0 2)
  | .ret => some (tri 17 0 0 0 3)
  | .fadd r d a b => some (tri 18 d a b (rnd r * 512 + 1))
  | .fsub r d a b => some (tri 18 d a b (rnd r * 512 + 2))
  | .fmul r d a b => some (tri 18 d a b (rnd r * 512 + 3))
  | .fdiv r d a b => some (tri 18 d a b (rnd r * 512 + 4))
  | .fsqrt r d a => some (tri 18 d a 0 (rnd r * 512 + 5))
  | .fmin r d a b => some (tri 18 d a b (rnd r * 512 + 6))
  | .fmax r d a b => some (tri 18 d a b (rnd r * 512 + 7))
  | .fabs r d a => some (tri 18 d a 0 (rnd r * 512 + 8))
  | .fneg r d a => some (tri 18 d a 0 (rnd r * 512 + 9))
  | .fsgnj r d a b => some (tri 18 d a b (rnd r * 512 + 10))
  | .frcp r d a => some (tri 18 d a 0 (rnd r * 512 + 11))
  | .frsq r d a => some (tri 18 d a 0 (rnd r * 512 + 12))
  | .fexp2 r d a => some (tri 18 d a 0 (rnd r * 512 + 13))
  | .flog2 r d a => some (tri 18 d a 0 (rnd r * 512 + 14))
  | .fsin r d a => some (tri 18 d a 0 (rnd r * 512 + 15))
  | .fcos r d a => some (tri 18 d a 0 (rnd r * 512 + 16))
  | .fclass r d a => some (tri 18 d a 0 (rnd r * 512 + 17))
  | .f2i r d a => some (tri 18 d a 0 (rnd r * 512 + 18))
  | .f2iu r d a => some (tri 18 d a 0 (rnd r * 512 + 19))
  | .i2f r d a => some (tri 18 d a 0 (rnd r * 512 + 20))
  | .iu2f r d a => some (tri 18 d a 0 (rnd r * 512 + 21))
  | .f2bf r d a => some (tri 18 d a 0 (rnd r * 512 + 22))
  | .bf2f r d a => some (tri 18 d a 0 (rnd r * 512 + 23))
  | .f2h r d a => some (tri 18 d a 0 (rnd r * 512 + 24))
  | .h2f r d a => some (tri 18 d a 0 (rnd r * 512 + 25))
  | .hadd2 r d a b => some (tri 18 d a b (rnd r * 512 + 26))
  | .hmul2 r d a b => some (tri 18 d a b (rnd r * 512 + 27))
  | .hmin2 r d a b => some (tri 18 d a b (rnd r * 512 + 28))
  | .hmax2 r d a b => some (tri 18 d a b (rnd r * 512 + 29))
  | .fmvXf r d a => some (tri 18 d a 0 (rnd r * 512 + 30))
  | .fmvFx r d a => some (tri 18 d a 0 (rnd r * 512 + 31))
  | .fma r d a b c => some (quad 19 d a b c (rnd r * 16 + 1))
  | .fms r d a b c => some (quad 19 d a b c (rnd r * 16 + 2))
  | .fnma r d a b c => some (quad 19 d a b c (rnd r * 16 + 3))
  | .fnms r d a b c => some (quad 19 d a b c (rnd r * 16 + 4))
  | .hfma2 r d a b c => some (quad 19 d a b c (rnd r * 16 + 5))
  | .hfma2h r d a b c => some (quad 19 d a b c (rnd r * 16 + 6))
  | .ldB h d a o => some (mem 20 d a 0 (hint h) o.toNat)
  | .ldBu h d a o => some (mem 20 d a 1 (hint h) o.toNat)
  | .ldH h d a o => some (mem 20 d a 2 (hint h) o.toNat)
  | .ldHu h d a o => some (mem 20 d a 3 (hint h) o.toNat)
  | .ldW h d a o => some (mem 20 d a 4 (hint h) o.toNat)
  | .ldWu h d a o => some (mem 20 d a 5 (hint h) o.toNat)
  | .ldD h d a o => some (mem 20 d a 6 (hint h) o.toNat)
  | .fld h d a o => some (mem 20 d a 7 (hint h) o.toNat)
  | .stB h d a o => some (mem 21 d a 0 (hint h) o.toNat)
  | .stH h d a o => some (mem 21 d a 1 (hint h) o.toNat)
  | .stW h d a o => some (mem 21 d a 2 (hint h) o.toNat)
  | .stD h d a o => some (mem 21 d a 3 (hint h) o.toNat)
  | .fst h d a o => some (mem 21 d a 4 (hint h) o.toNat)
  | .lda z s d a i => some (tri 22 d a i.toNat (16 + size z * 4 + scope s))
  | .strel z s b a i => some (tri 22 i.toNat a b (32 + size z * 4 + scope s))
  | .fence s => some (tri 22 0 0 0 (48 + scope s))
  | .atomAdd z s d a b => some (tri 22 d a b (64 + size z * 4 + scope s))
  | .atomMin z s d a b => some (tri 22 d a b (80 + size z * 4 + scope s))
  | .atomMax z s d a b => some (tri 22 d a b (96 + size z * 4 + scope s))
  | .atomMinu z s d a b => some (tri 22 d a b (112 + size z * 4 + scope s))
  | .atomMaxu z s d a b => some (tri 22 d a b (128 + size z * 4 + scope s))
  | .atomAnd z s d a b => some (tri 22 d a b (144 + size z * 4 + scope s))
  | .atomOr z s d a b => some (tri 22 d a b (160 + size z * 4 + scope s))
  | .atomXor z s d a b => some (tri 22 d a b (176 + size z * 4 + scope s))
  | .atomSwap z s d a b => some (tri 22 d a b (192 + size z * 4 + scope s))
  | .cas z s d a b => some (tri 22 d a b (208 + size z * 4 + scope s))
  | .amergeI z s a b => some (tri 22 0 a b (224 + size z * 4 + scope s))
  | .amergeF s a b => some (tri 22 0 a b (248 + scope s))
  | .pref s a => some (tri 22 0 a 0 (256 + scope s))
  | .cinv s a => some (tri 22 0 a 0 (272 + scope s))
  | .cflush s a => some (tri 22 0 a 0 (288 + scope s))
  | .sbind s a => some (tri 23 0 a 0 (s.val * 64 + 1))
  | .sclose s => some (tri 23 0 0 0 (s.val * 64 + 2))
  | .sstat d s => some (tri 23 d 0 0 (s.val * 64 + 3))
  | .tcopy d a => some (tri 23 d a 0 4)
  | .tlwait s a b => some (tri 23 0 a b (scope s * 64 + 5))
  | .tlread k d a => some (tri 23 d a 0 (tlSel k * 64 + 6))
  | .tlarm a b => some (tri 23 0 a b 7)
  | .galloc d a b => some (tri 24 d a b 1)
  | .gtry d a b => some (tri 24 d a b 2)
  | .gseal a => some (tri 24 0 a 0 3)
  | .gtake d a => some (tri 24 d a 0 4)
  | .gdone a => some (tri 24 0 a 0 5)
  | .gdrop a b => some (tri 24 0 a b 6)
  | .gstatBay d a => some (tri 24 d a 0 7)
  | .gstatTile d a => some (tri 24 d a 0 71)
  | .gbay d a b => some (tri 24 d a b 8)
  | .wcfg g a => some (bnk 1 a 0 (cfg g))
  | .wrcf a g => some (bnk 2 a 0 (cfg g))
  | .wldp s rev i a b => some (bnk 3 a b (bit rev * 32 + side s * 16 + i.val))
  | .wldt s rev i a b => some (bnk 4 a b (bit rev * 32 + side s * 16 + i.val))
  | .wmul p m n a => some (bnk 5 a 0 (p.val * 256 + m.val * 16 + n.val))
  | .wmac m n a b => some (bnk 6 a b (m.val * 16 + n.val))
  | .wext p a b => some (bnk 7 a b p.val)
  | .wrot t m n => some (bnk 8 0 0 (dir t * 256 + m.val * 16 + n.val))
  | .wmacr t m n a b => some (bnk 9 a b (dir t * 256 + m.val * 16 + n.val))
  | .wsta a b => some (bnk 10 a b 0)
  | .wzero a b => some (bnk 11 a b 0)
  | .wzeroZ i => some (bnk 11 0 0 (16 + i.val))
  | .wwait a => some (bnk 12 a 0 0)
  | .wstat clr a sel => some (bnk 13 a 0 (bit clr * 8 + sel.val))
  | .wmov d a => some (bnk 14 0 0 (d.val * 16 + a.val))
  | .wunpk s a i => some (bnk 15 a 0 (side s * 16 + i.val))
  | .wshft s d a b => some (bnk 16 0 b (side s * 256 + d.val * 16 + a.val))
  | .msend a b => some (tri 26 0 a b 1)
  | .mreq a b => some (tri 26 0 a b 2)
  | .mret => some (tri 26 0 0 0 3)
  | .hset a b => some (tri 26 0 a b 4)
  | .hmask d a b => some (tri 26 d a b 5)
  | .rput a b => some (tri 26 0 a b 6)
  | .qget d a => some (tri 26 d a 0 7)
  | .qpeek d a => some (tri 26 d a 0 8)
  | .dqpush s d a b => some (tri 26 d a b (scope s * 64 + 9))
  | .dqpop d => some (tri 26 d 0 0 10)
  | .dqsteal d a => some (tri 26 d a 0 11)
  | .bar s d a => some (tri 26 d a 0 (scope s * 64 + 12))
  | .bara s d a => some (tri 26 d a 0 (scope s * 64 + 13))
  | .barw s a b => some (tri 26 0 a b (scope s * 64 + 14))
  | .pace s0 s1 s2 s3 s4 s5 s6 s7 => some (27 * 134217728 + s7.val * 2097152 + s6.val * 262144 + s5.val * 32768 + s4.val * 4096
      + s3.val * 512 + s2.val * 64 + s1.val * 8 + s0.val)
  | .guard p neg n => some (27 * 134217728 + 67108864 + p.val * 524288 + bit neg * 262144 + n.val * 32768)
  | .vshfl m keep fp k d a b => some (tri 28 d a b (k.val * 1024 + bit fp * 512 + bit keep * 256 + shfl m * 64 + 1))
  | .vred op d a => some (tri 28 d a 0 (redOp op * 64 + 2))
  | .vscan op ex d a => some (tri 28 d a 0 (bit ex * 2048 + redOp op * 64 + 3))
  | .vball d p => some (tri 28 d (p.val % 32) (p.val / 32) 4)
  | .velect d p => some (tri 28 d (p.val % 32) (p.val / 32) 5)
  | .vquant d a b k => some (tri 28 d a b (k.val * 64 + 6))
  | .vdeq d a b => some (tri 28 d a b 7)
  | .venc d a w => some (tri 28 d a 0 (w.val * 64 + 8))
  | .mbpost d a b => some (tri 29 d a b 1)
  | .mbwait d a => some (tri 29 d a 0 2)
  | .gflush a => some (tri 29 0 a 0 3)
  | .migr a => some (tri 29 0 a 0 4)
  | .mgpt => some (tri 29 0 0 0 5)
  | .trap i => some (tri 30 0 0 1 i.toNat)
  | .eret => some (tri 30 0 0 2 0)
  | .sysr d r => some (tri 30 d 0 3 (sysReg r))
  | .sysw r a => some (tri 30 0 a 4 (sysReg r))
  | .wfm => some (tri 30 0 0 5 0)
  | .yield => some (tri 30 0 0 6 0)
  | .exit a => some (tri 30 0 a 7 0)
  | .pginv a => some (tri 30 0 a 8 0)
  | .brk i => some (tri 30 0 0 9 i.toNat)
  | .illegalInstruction _ => none
  | .hostWindowMessage _ _ => none
  | .submissionAreaBadWrite _ _ => none
  | .windowPassMessage => none
  | .bar4Write _ _ => none
  | .bar4Read _ _ => none
  | .featackWrite _ _ => none
  | .featlockWrite _ => none
  | .hrqheadWrite _ => none
  | .pwrcapWrite _ => none
  | .linkstatWrite _ => none
  | .logtailOvfClear _ _ => none
  | .registerWrite _ _ => none
  | .messageDelivery _ => none
  | .handlerStart _ _ => none
  | .directStart _ _ => none
  | .mreqReply _ => none
  | .gangLaunch => none
  | .dispatcherPass => none
  | .headAgeingTimeout _ => none
  | .gangLoad _ _ _ _ => none
  | .gangRelease _ _ => none
  | .temperatureSample _ _ => none
  | .eligibilityWindowEnd => none
  | .powerSample _ _ => none
  | .droopEvent _ => none
  | .fetchGroupDelivery _ => none
  | .bucketPostArrival _ _ => none
  | .bucketTimeout _ _ => none
  | .waveLaunch _ _ => none
  | .migrationPlacement _ => none
  | .rputArrival _ => none
  | .homeRequest _ => none
  | .invalidationAcknowledge _ _ => none
  | .lineWriteback _ _ => none
  | .rowCapture _ _ => none
  | .refreshWindowStart _ => none
  | .streamElementArrival _ _ => none
  | .streamPushPerform _ _ => none
  | .copySectorComplete _ => none
  | .copyComplete _ => none
  | .triggerMessageSend _ => none
  | .galleryRequest _ _ => none
  | .galleryHandout _ => none
  | .bayWatchdogExpiry _ _ _ => none
  | .bankOperationStart _ => none
  | .bankOperationComplete _ => none
  | .rotationStepResume _ => none
  | .bankWatchdogReset _ => none
  | .barrierPhasePropagate _ _ _ => none
  | .stealRequest _ => none
  | .faultTokenAssign _ => none
  | .pagerReply _ _ => none
  | .preemptionCommand _ _ => none
  | .shareSave _ _ => none
  | .gangRestore _ => none
  | .lend => none
  | .errorEvent _ _ _ => none
  | .dataError _ _ => none
  | .errorLogCapture _ => none
  | .linkFlitRetry _ _ => none
  | .linkAckTimeout _ => none
  | .noviloFrameReceive _ _ => none
  | .spdmRequest _ => none
  | .deviceReset => none
  | .eopraBoot _ _ _ => none
  | .gangRetire _ => none
  | .memoryReply _ => none
  | .linkRestore _ => none

/-- The word of an instruction; none for an event. -/
def encode (i : Instr) : Option W32 := (encodeBits i).map (BitVec.ofNat 32)

/-- The instruction my decoder reads from the bits of a row of the opcode table: one 32-bit word,
whose bit 0 is the least significant bit of its first byte (02 R39). -/
def decodeTableWord (_nbits w : Nat) : Option Instr :=
  match decode (BitVec.ofNat 32 w) with
  | .ok i => some i
  | .error _ => none

end Sys2Proof
end

