-- ==== Sys2Proof/Turn.lean ====
section
/-!
DEFINITION. The schedule's vocabulary: who may move in a step. It is the model's own, not the
manual's (log 1).
-/

namespace Sys2Proof.Machine

/-- Moves inside the memory path that the manual's tables give no row of their own: a store reaches
the L1 port or the own die's slice, a copy is replaced or dropped. -/
inductive Move
  | toPort (n : Nat)
  | toSlice (n : Nat)
  | dropL1 (cl gang tag : Nat)
  | dropIc (cl gang tag : Nat)
  | dropSlice (die line : Nat)
  | dropTlb (die slice gang va : Nat)
  | dropMsc (l line : Nat)
  deriving DecidableEq, Repr

/-- Who moves next (log 1): a crew issues a word, sending its memory requests and posts at once
(`split` false) or leaving them to later turns; a waiting thread looks whether its wait has ended;
an agent acts; the memory path moves; the clk advances. -/
inductive Turn
  | tick
  | issue (u : Crew) (split : Bool)
  | resume (p : Place)
  | act (i : Instr)
  | move (m : Move)
  deriving DecidableEq, Repr, Inhabited

end Sys2Proof.Machine
end

