-- ==== Sys2Proof/Config.lean ====
section
/-!
DEFINITION. What one device fixes, and the free values: constants with no body, which nothing can
evaluate, so that a claim holds whatever they are.
-/

namespace Sys2Proof.Config

/-- The address of the firmware's default trap routine (15 R339: set by the firmware). Free. -/
opaque trapRoutine : Word

/-- The trap vector the boot ROM sets for the firmware column (15 R335). Free. -/
opaque columnVector : Word

/-- An unspecified value (00 R4), drawn with a counter. Free. -/
opaque freeWord : Nat → Word

/-- What a doubleword of the host receive queue holds where no message has been written (03 R69), by its
number. Free. -/
opaque queueWord : Nat → Word

/-- A byte of a save block for which the manual gives no layout (15 R353), by counter and place. Free. -/
opaque freeByte : Nat → Nat → Byte

/-- SHA-384 over what a device measures for its attestation (17 R380); the manual gives no byte form of a measured
thing. Free. -/
opaque measure : Measured → BitVec 384

/-- The device identity key that a fused secret gives (17 R380). Free. -/
opaque identityKey : Nat → Nat

/-- The ECDSA P-384 signature by an identity key over a nonce and the measurements of a response (17 R380). Free. -/
opaque sign : Nat → Nat → List (BitVec 384) → BitVec 768

/-- Where a core of the firmware column starts when the device has booted (17 R378), by cluster and core. Free. -/
opaque columnStart : Nat → Nat → Word

/-- The event kind an error record names (15 R357), by the order in which R355 lists the events: 0 a soft
error, 1 an uncorrectable error, 2 a link retry, 3 a link failure. Free. -/
opaque errorKind : Nat → BitVec 8

/-- Which of its lines a full cache gives up for a line at a clk (09 R196: replacement is the device's). Free. -/
opaque victim : Nat → Nat → Nat

/-- Which of the stores under way to a page-table entry, if any, reaches its home between a walk and its CAS, by clk,
entry and walk (15 R342). Free. -/
opaque entryRace : Nat → Nat → Nat → Nat

/-- Which of the steals under way by the mesh to a deque unit arrives in a clk, among how many (14 R324). Free. -/
opaque arrival : Nat → Nat → Nat

/-- Which of the free buckets of a gatherer a post opens, by the number of the free value (08 R183). Free. -/
opaque openBucket : Nat → Nat

/-- What DRAM holds after a device reset, by the number of the free value: bytes by address (17 R374). Free. -/
opaque resetDram : Nat → List (Nat × Byte)

/-- What the scratchpads hold after a device reset, by the number of the free value: bytes by cluster and offset
(17 R374). Free. -/
opaque resetSpads : Nat → List (Nat × Nat × Byte)

/-- Who moves at the n-th turn that no agenda fixes (log 1). Free: latencies and the order in which
agents act are the device's. -/
opaque turnAt : Nat → Machine.Turn

end Sys2Proof.Config
end

