-- ==== Sys2Proof/Machine/Map.lean ====
section
/-!
DEFINITION. Sparse data by key: lists of (key, value) pairs in one canonical form, keys strictly
rising; memory is such a list of bytes with no entry equal to 0, the value an unlisted byte reads as
(log 6).
-/

namespace Sys2Proof.Machine

/-- A sparse map from natural-number keys, in ascending key order. -/
abbrev FMap (α : Type) := List (Nat × α)

/-- The value at key k, if one is listed. -/
def FMap.get? {α : Type} : FMap α → Nat → Option α
  | [], _ => none
  | (j, v) :: m, k => if j = k then some v else FMap.get? m k

/-- The value at key k, or d. -/
def FMap.getD {α : Type} (m : FMap α) (k : Nat) (d : α) : α := (FMap.get? m k).getD d

/-- The map with v at key k. -/
def FMap.put {α : Type} : FMap α → Nat → α → FMap α
  | [], k, v => [(k, v)]
  | (j, w) :: m, k, v =>
    if k < j then (k, v) :: (j, w) :: m
    else if k = j then (k, v) :: m
    else (j, w) :: FMap.put m k v

/-- The map without key k. -/
def FMap.del {α : Type} : FMap α → Nat → FMap α
  | [], _ => []
  | (j, w) :: m, k => if j = k then FMap.del m k else (j, w) :: FMap.del m k

/-- The canonical form: every key is greater than the one before it. -/
def FMap.sortedFrom {α : Type} : Nat → FMap α → Bool
  | _, [] => true
  | lo, (j, _) :: m => decide (lo ≤ j) && FMap.sortedFrom (j + 1) m

/-- The canonical form of a map. -/
def FMap.wf {α : Type} (m : FMap α) : Bool := FMap.sortedFrom 0 m

/-- The values of a map in key order. -/
def FMap.vals {α : Type} (m : FMap α) : List α := m.map (·.2)

/-- Memory: bytes by address; an unlisted byte reads 0. -/
abbrev Memory := List Host.Cell

/-- The canonical form of memory: addresses strictly rising and no listed byte 0. -/
def Memory.wf (m : Memory) : Bool := FMap.wf m && m.all (fun c => c.2 != 0)

/-- What address a reads as. -/
def Memory.byte (m : Memory) (a : Nat) : Byte := FMap.getD m a 0

/-- Memory with byte b at address a. -/
def Memory.setByte (m : Memory) (a : Nat) (b : Byte) : Memory :=
  if b = 0 then FMap.del m a else FMap.put m a b

/-- The n bytes from address a as one little-endian number (00 R7). -/
def Memory.read (m : Memory) : Nat → Nat → Nat
  | _, 0 => 0
  | a, n + 1 => (Memory.byte m a).toNat + 256 * Memory.read m (a + 1) n

/-- Memory with the n little-endian bytes of v from address a. -/
def Memory.write (m : Memory) : Nat → Nat → Nat → Memory
  | _, 0, _ => m
  | a, n + 1, v => Memory.write (Memory.setByte m a (BitVec.ofNat 8 (v % 256))) (a + 1) n (v / 256)

/-- Memory with a list of bytes stored from address a. -/
def Memory.writeBytes (m : Memory) : Nat → List Byte → Memory
  | _, [] => m
  | a, b :: bs => Memory.writeBytes (Memory.setByte m a b) (a + 1) bs

/-- The n bytes from address a. -/
def Memory.readBytes (m : Memory) : Nat → Nat → List Byte
  | _, 0 => []
  | a, n + 1 => Memory.byte m a :: Memory.readBytes m (a + 1) n

/-- The listed bytes of [lo, lo+n), moved to addresses from dst. -/
def Memory.slice (m : Memory) (lo n dst : Nat) : Memory :=
  (m.filter (fun c => decide (lo ≤ c.1) && decide (c.1 < lo + n))).map (fun c => (c.1 - lo + dst, c.2))

/-- Memory with every byte of [lo, lo+n) reading 0. -/
def Memory.clear (m : Memory) (lo n : Nat) : Memory :=
  m.filter (fun c => decide (c.1 < lo) || decide (lo + n ≤ c.1))

/-- Memory m with the range [dst, dst+n) replaced by the range [lo, lo+n) of src. -/
def Memory.copyFrom (m : Memory) (dst : Nat) (src : Memory) (lo n : Nat) : Memory :=
  m.filter (fun c => decide (c.1 < dst)) ++ Memory.slice src lo n dst ++
    m.filter (fun c => decide (dst + n ≤ c.1))

/-! ### Sorting -/

/-- An element put into an ascending list before the first with a greater key. -/
def insertBy {α : Type} (key : α → Nat) (x : α) : List α → List α
  | [] => [x]
  | y :: ys => if key x < key y then x :: y :: ys else y :: insertBy key x ys

/-- A list in ascending order of a key; equal keys keep their order. -/
def sortBy {α : Type} (key : α → Nat) (l : List α) : List α :=
  l.foldl (fun acc x => insertBy key x acc) []

end Sys2Proof.Machine
end

