-- ==== Sys2Proof/Machine/State.lean ====
section
/-!
DEFINITION. The state of the device as plain data: the thread, core, wave, cluster, landing, gang and
package state the manual names, the work in flight between agents, and the machine's own schedule.
-/

namespace Sys2Proof.Machine

/-! ### Messages -/

/-- A handler-table entry (03 R77). -/
structure HEntry where
  pc : Word
  prio : Nat
  en : Bool
  deriving DecidableEq, Repr

/-- A message: the header with SRCID set, and COUNT payload words (03 R72). -/
structure Msg where
  hdr : Word
  pay : List Word
  deriving DecidableEq, Repr

/-- An MREQ: in its sender's outbound queue, and then at the memory path until its reply is sent
(03 R76, R85). -/
structure MReq where
  n : Nat
  place : Place
  gang : Nat
  rank : Nat
  addr : Word
  ctl : Word
  user : Bool
  deriving DecidableEq, Repr

/-- What a parcel carries: a message, an RPUT or gatherer reply (14 R321; 08 R188), or an MREQ on its way
to the memory path (03 R76, R85). -/
inductive Cargo
  | msg (m : Msg)
  | rput (dst : Place) (idx : Nat) (v : Word)
  | mreq (m : MReq)
  deriving DecidableEq, Repr

/-- A message or RPUT on its way, with the gang it is sent by or to (0: none; 16 R368), the thread that
sent it, and the rank of that gang whose share it goes to, where the sender names a share's position
and not a physical one (15 R352); for a lend the sender's rank (19 R384). -/
structure Parcel where
  gang : Nat
  src : Option Place
  rank : Option Nat
  cargo : Cargo
  /-- the order in which threads sent what they sent (03 R75; 14 R321) -/
  n : Nat := 0
  /-- it is the reply of a gatherer request (08 R188) -/
  reply : Bool := false
  /-- the share, by gang and rank, whose core it was still to reach when that share was saved, for a message that
  names a physical position (03 R76) -/
  bound : Option (Nat × Nat) := none
  /-- a lend that found its context or core taken when it reached the dispatcher (19 R384) -/
  waits : Bool := false
  deriving DecidableEq, Repr

/-! ### Addresses and accesses -/

/-- Where an access goes after the checks and the translation: DRAM at a physical address with the
page's MCA, no-cache and CMP attributes; byte off of cluster cl's scratchpad through a view with
the decode table of the share (gang, rank) that holds it; a landing register block; a Novilo
remote window (09 R201, R203, R213, R215; 17 R377). -/
inductive Target
  | dram (pa : Nat) (mca nc cmp : Bool)
  | spad (cl off view gang rank : Nat)
  | lreg (l off : Nat)
  | remote (peer off : Nat)
  | hole
  deriving DecidableEq, Repr

/-- The register files (02 R60). -/
inductive RFile | x | f | p
  deriving DecidableEq, Repr

/-- What a pending access does when it is performed (09 R217, R222). -/
inductive AccKind
  | load (size : Nat) (signed : Bool)
  | atom (op : Nat) (size : Nat)
  deriving DecidableEq, Repr

/-- A load, atomic or CAS that has been sent and whose result has not landed (09 R218, R222). -/
structure Access where
  n : Nat
  kind : AccKind
  va : Word
  tgt : Target
  hint : Hint
  file : RFile
  reg : Nat
  opnd : Word
  expect : Word
  val : Option Word
  /-- an atomic's scope: its acquire follows when it is performed (09 R222) -/
  scope : Scope := .cl
  /-- clk of its issue (09 R218) -/
  clk : Nat := 0
  deriving DecidableEq, Repr

/-- How far a store or merge has come (09 Table 09-3; 13 R310, R311). -/
inductive Stage | issued | port | slice | home
  deriving DecidableEq, Repr

/-- A store, or an AMERGE (merge = 1 integer, 2 float), not yet acknowledged (09 R205, R223). -/
structure Store where
  n : Nat
  place : Place
  gang : Nat
  cl : Nat
  die : Nat
  direct : Bool
  va : Word
  tgt : Target
  size : Nat
  data : Nat
  nl : Bool
  merge : Nat
  stage : Stage
  written : Bool
  acks : List Nat
  /-- it allocates nothing in L2 or RDC: hint 2 (09 R199) -/
  la : Bool
  /-- clk of its issue (09 R218) -/
  clk : Nat
  /-- its place in the order in which stores reached the stage they stand at (09 R207; 13 R304) -/
  since : Nat
  deriving DecidableEq, Repr

/-- A cached line tagged with a virtual line address and a GANGID (05 R98; 09 R197). -/
structure Line where
  gang : Nat
  tag : Nat
  data : BitVec 1024
  /-- the bytes that stores have gone over since it was filled, oldest first (13 R302) -/
  pats : List (Nat × Nat) := []
  deriving DecidableEq, Repr

/-- A translation cached by a slice (15 R342): the range of 2^(16 + 10·up) bytes at va. -/
structure Tlb where
  die : Nat
  slice : Nat
  gang : Nat
  va : Nat
  up : Nat
  pte : Word
  deriving DecidableEq, Repr

/-- How a failed walk stands: not yet given a token, outstanding under a token, or killed. -/
inductive MissSt
  | fresh
  | token (t : Nat)
  | killed
  deriving DecidableEq, Repr

/-- A failed walk (15 R344). access: 0 read, 1 write, 2 execute, 3 atomic; reason: 0 missing,
1 invalid, 2 contended. -/
structure Miss where
  cl : Nat
  asker : Asker
  va : Word
  access : Nat
  reason : Nat
  level : Nat
  user : Bool
  gang : Nat
  rank : Nat
  st : MissSt
  deriving DecidableEq, Repr

/-! ### Threads -/

/-- What a thread in a named state waits for (00 R6; 15 Table 15-7). -/
inductive Wait
  /-- *waiting*, with the stage and value the instruction has reached. -/
  | waiting (stage val : Nat)
  | sending
  /-- *allocating*: the handle once a slot has been handed over, 0 before (11 R261). -/
  | allocating (h : Nat)
  /-- *queuing*, with the record read at issue. -/
  | queuing (data : List Word)
  /-- *posting*: 1 once the post has entered a bucket (08 R183). -/
  | posting (inn : Nat)
  | draining
  /-- *migrating*, with the order of entry (08 R191). -/
  | migrating (order : Nat)
  /-- *page-fault sleep* (15 R344). -/
  | sleep
  /-- A reply of another unit has come: its two result words, or a fault code and value. -/
  | answered (ok : Bool) (a b : Word)
  deriving DecidableEq, Repr

/-- Whether a thread runs (03 R78; 07 R160; 16 R364). -/
inductive Run
  | running
  | idle
  | retired
  | wait (i : Instr) (w : Wait)
  /-- page-fault sleep on a fetch (05 R99). -/
  | fetchSleep
  deriving DecidableEq, Repr

/-- A paced result that has not landed (02 R59, R61). -/
structure PendW where
  file : RFile
  reg : Nat
  val : Word
  due : Nat
  /-- it is an interlocked result, held behind an older paced one (02 R59, R61) -/
  inter : Bool := false
  deriving DecidableEq, Repr

/-- A group of eight instruction words fetched from the aligned address (05 R391). -/
structure Group where
  addr : Word
  words : List W32
  /-- clk of its delivery -/
  clk : Nat
  /-- 0, or the cause of the fault that reaching it raises: the fetch failed (05 R99, R100; 15 R356) -/
  bad : Nat
  deriving DecidableEq, Repr

/-- A group requested from an instruction cache: by whom, its address, the clk of the request, and whether the
cache has accepted it; one that hits is delivered from then on, and one that misses stands here until its
line has been filled (05 R391). -/
structure FReq where
  u : Crew
  addr : Word
  clk : Nat
  taken : Bool
  deriving DecidableEq, Repr

/-- One element of a read stream fetched ahead: its 32 bits, or what popping it raises, with the
element's address (10 R230, R231; 15 R356). -/
inductive Elem
  | val (v : W32)
  | bad (cause : Nat) (a : Word)
  deriving DecidableEq, Repr

/-- The binding of a stream register (10 R225-R235). `pos` counts elements popped or pushed. -/
structure Strm where
  record : List Word
  pos : Nat
  ahead : List Elem
  /-- pushed elements that are not stores yet, oldest first, each with the clk of its push (10 R233) -/
  push : List (Nat × W32)
  /-- element number of the first element of `push` -/
  base : Nat
  sealed : Bool
  /-- the fault and address of a push that failed (10 R233; 13 R317) -/
  failAt : Option (Nat × Word)
  /-- the consuming read of this stream was stale (10 R234) -/
  stale : Bool
  /-- its consuming read has not been performed at the bay (10 R234; 11 R258) -/
  counting : Bool := false
  deriving DecidableEq, Repr

/-- The poster a lane replies to (08 R186): core, context and q index on its own cluster. -/
structure Reply where
  core : Nat
  ctx : Nat
  idx : Nat
  deriving DecidableEq, Repr

/-- The state of one thread or context (02 Table 02-1, Table 02-9). -/
structure Thread where
  gang : Nat
  rank : Nat
  x : Vector Word 32
  f : Vector W32 32
  p : BitVec 96
  q : Vector Word 32
  qpres : BitVec 32
  qout : BitVec 32
  /-- outstanding registers whose reply has arrived (08 R189) -/
  qgot : BitVec 32
  pc : Word
  run : Run
  fmode : Word
  fflags : BitVec 5
  nbv : Word
  grem : Nat
  gcnd : Bool
  mgrec : Word
  mode : Bool
  pmode : Bool
  cause : Word
  epc : Word
  eval : Word
  eguard : Word
  escr : Word
  reply : Option Reply
  strm : List (Option Strm)
  pend : List PendW
  loads : List Access
  /-- remaining stall counts of the PACE run (02 R58) -/
  pace : List Nat
  fetch : List Group
  /-- YIELD: the last clk it may last to, and the contexts that have yet to issue (15 R361) -/
  yieldUntil : Nat
  yieldFor : List Nat
  /-- earliest clk at which the next word issues (05 R105) -/
  ready : Nat
  /-- the address of the last word issued since control was last transferred (05 R391) -/
  lastPc : Option Word
  /-- clk in which the last flag-setting instruction completes (06 R144) -/
  flagDue : Nat
  /-- the number of the next request when the thread last acquired: its releases pass on earlier stores of its
  cluster and die (13 R308) -/
  acq : Nat
  /-- results of scalar and landing cores whose latency has not elapsed, with the clk from which a
  consumer may issue (05 R104) -/
  busy : List (RFile × Nat × Nat)
  /-- a trap entry has been made and no word has issued since (15 R334) -/
  entered : Bool
  /-- the thread is being ended by an ending fault, with the value its reply takes (15 R332) -/
  ending : Option Word
  /-- layout table of a landing-core context (05 R118) -/
  lay : List (Nat × Nat)
  deriving DecidableEq, Repr

/-- A core's state that its contexts share (03 R76-R78; 05 R103, R118; 14 R323). -/
structure Core where
  inbox : List Msg
  outq : List Parcel
  tab : List HEntry
  hptr : Nat
  iptr : Nat
  dqBase : Word
  dqLim : Word
  top : Nat
  bot : Nat
  lay : List (Nat × Nat)
  /-- instruction cache of a landing core (05 R98) -/
  ic : List Line
  /-- clk in which the divider is free again (05 R104) -/
  divFree : Nat
  /-- clk in which the floating-point divider is free again (06 R158) -/
  fdivFree : Nat
  /-- first clk in which the core may issue again (05 R103) -/
  nextIssue : Nat
  /-- of a landing core, the gang that its contexts were last lent to, until that gang retires (19 R384) -/
  owner : Nat := 0
  deriving DecidableEq, Repr

/-- A resident wave (07 R159-R168; 02 R60). -/
structure Wave where
  gang : Nat
  rank : Nat
  num : Nat
  chksb : Bool
  lay : List (Nat × Nat)
  /-- clk of the last issue and address of the word after it (07 R166) -/
  lastClk : Nat
  nextPc : Word
  /-- the address of the last word issued (05 R391) -/
  lastPc : Option Word
  fetch : List Group
  /-- YIELD: the last clk it may last to, and the slots that have yet to issue (15 R361) -/
  yieldUntil : Nat
  yieldFor : List Nat
  deriving DecidableEq, Repr

/-! ### Gatherer, galleries, timelines, copies -/

/-- An entry: who posted it, the thread it becomes as a lane (08 R182, R186, R194), and the number of the next
request when it was posted. -/
structure Entry where
  place : Place
  thread : Thread
  n : Nat
  deriving DecidableEq, Repr

/-- A bucket's condition (08 R182). -/
inductive BSt | free | opened | released
  deriving DecidableEq, Repr

/-- A gatherer bucket (08 R182-R185). It is released at the end of clk t0 + tmo, which 64 entries and
GFLUSH bring forward; `order` is that clk and the bucket's number, by which released ones launch. -/
structure Bucket where
  st : BSt
  gang : Nat
  rank : Nat
  migr : Bool
  pc : Word
  entries : List Entry
  t0 : Nat
  tmo : Nat
  order : Nat
  deriving DecidableEq, Repr

/-- A post on its way to the gatherer or waiting in *posting* (08 R183). -/
structure Post where
  gang : Nat
  rank : Nat
  migr : Bool
  pc : Word
  entry : Entry
  queued : Bool
  deriving DecidableEq, Repr

/-- The state of a slot (11 Table 11-4). -/
inductive SlotSt | free | filling | sealed
  deriving DecidableEq, Repr

/-- A gallery slot; `avail` is the first clk in which a free slot is available (11 R255, R259). -/
structure Slot where
  st : SlotSt
  gen : Nat
  cnt : Nat
  avail : Nat
  deriving DecidableEq, Repr

/-- A GALLOC in a bay's FIFO (11 R259). -/
structure Waiter where
  place : Place
  ref : Word
  cnt : Nat
  pc : Word
  deriving DecidableEq, Repr

/-- A bay of a share (11 R249-R262). `wd` is the clk the watchdog count started from, if it runs. -/
structure Bay where
  phys : Nat
  base : Nat
  lsz : Nat
  cntm1 : Nat
  slots : List Slot
  fifo : List Waiter
  wd : Option Nat
  deriving DecidableEq, Repr

/-- A gallery operation issued in a clk and not yet performed (11 R258). -/
structure GReq where
  place : Place
  port : Nat
  op : Instr
  a : Word
  b : Word
  clk : Nat
  deriving DecidableEq, Repr

/-- An armed trigger (10 R244). -/
structure Trig where
  thr : Nat
  hdr : Word
  pay : Word
  src : Place
  srcId : Nat
  rank : Option Nat
  deriving DecidableEq, Repr

/-- A timeline (10 R241-R244): V, I, F with the report cause of F's operation, the operations that
failed while F was not 0, those that completed above V, and the armed triggers. -/
structure Timeline where
  phys : Nat
  v : Nat
  i : Nat
  f : Nat
  fcause : Nat
  fails : List (Nat × Nat)
  early : List Nat
  trigs : List Trig
  deriving DecidableEq, Repr

/-- A registration: timeline idx of share (gang, rank), sequence number n (10 R242). -/
structure TlReg where
  gang : Nat
  rank : Nat
  idx : Nat
  n : Nat
  deriving DecidableEq, Repr

/-- A copy in a copy engine's queue (10 R236-R240). -/
structure Copy where
  record : List Word
  place : Place
  gang : Nat
  rank : Nat
  user : Bool
  reg : TlReg
  /-- sectors complete -/
  done : Nat
  started : Bool
  /-- the progress record is still to be written for the last sector -/
  report : Bool
  /-- how it ended, 0 or a cause with an address, while its end is still to be reported -/
  fin : Option (Nat × Word)
  /-- it has failed, and its timeline's F has not been cleared: later copies of its share halt -/
  failed : Bool
  /-- a write of its progress record has failed: the record is not written again (10 R240) -/
  norec : Bool := false
  /-- its destination tile's seal has been performed (10 R239) -/
  sealedDst : Bool := false
  deriving DecidableEq, Repr

/-- A steal on its way to the victim's deque unit, with the clk of its issue (14 R324, R330). -/
structure Steal where
  thief : Place
  cl : Nat
  core : Nat
  clk : Nat
  deriving DecidableEq, Repr

/-! ### The multiplier bank -/

/-- A polynomial register with its side state (12 R272); unlisted TAG and EXP are 0. -/
structure ZVal where
  bits : BitVec 65536
  nseg : Nat
  tag : FMap Nat
  exp : FMap Nat
  deriving DecidableEq, Repr

/-- A queued bank operation with its captured operands and configuration (12 R282). -/
structure BankOp where
  seq : Nat
  op : Instr
  xa : Word
  xb : Word
  cfg : List Word
  reg : Option TlReg
  place : Place
  user : Bool
  deriving DecidableEq, Repr

/-- The started operation: what remains of it (12 R283, R289). stage 0: started; 1: a rotation
step is being made; sentA, sentB, gotA, gotB: how far it is; 2: its effects are done. `prog`: the pairs,
segments or elements done. `ends` is the clk its occupancy ends, at stage 1 the clk from which its rotation
step may be made; `till` is the clk until which the registers it has sent are on their links; `tile` is the address of the
tile whose packing has begun; `fail` what it failed with. -/
structure BankRun where
  op : BankOp
  stage : Nat
  sentA : Bool
  sentB : Bool
  gotA : Bool
  gotB : Bool
  ends : Nat
  fail : Option (Nat × Word)
  prog : Nat
  till : Nat := 0
  tile : Option Word := none
  deriving DecidableEq, Repr

/-- An operation whose occupancy has ended and that has not completed (12 R283): it completes no
earlier than `due`. -/
structure BankTail where
  op : BankOp
  due : Nat
  deriving DecidableEq, Repr

/-- The bank of a cluster (12 R271-R289; 15 R354). -/
structure Bank where
  z : Vector ZVal 16
  acc : FMap Word
  cfg : Vector Word 8
  accOvf : Bool
  bseq : Nat
  bdone : Nat
  halt : Bool
  bfcause : Nat
  bfseq : Nat
  bfdetail : Word
  bprog : Nat
  queue : List BankOp
  run : Option BankRun
  tail : List BankTail
  bufA : Option ZVal
  bufB : Option ZVal
  /-- the clk in which the register in each buffer has crossed its link (12 R289) -/
  dueA : Nat := 0
  dueB : Nat := 0
  /-- clk from which the watchdog counts, if it counts -/
  wd : Option Nat
  deriving DecidableEq, Repr

/-! ### Clusters and landings -/

/-- The traffic counters of a cluster (09 R214). -/
structure Traffic where
  rdOwn : Word
  rdOth : Word
  wrOwn : Word
  wrOth : Word
  lhit : Word
  link0 : Word
  link1 : Word
  csav : Word
  deriving DecidableEq, Repr

/-- A cluster (00 R2). -/
structure Cluster where
  spad : Memory
  l1 : List Line
  ic : List Line
  ctr : Traffic
  buckets : List Bucket
  posts : List Post
  copies : List Copy
  gal : List GReq
  /-- the first clk in which a wave slot, by 16·engine + slot, may take a wave again (08 R185; 16 R365) -/
  slotFree : FMap Nat
  steals : List Steal
  trigQ : List Parcel
  engOut : List (List Parcel)
  /-- launch-number counter of each wide engine (07 R167) -/
  waveNum : List Nat
  /-- clk in which each wide engine's divider is free (07 R168) -/
  divFree : List Nat
  /-- first clk in which each wide engine may issue again (07 R167) -/
  engNext : List Nat
  bank : Bank
  /-- temperature in 0.1 °C, eligibility, and what the clean-window rule has seen (04 R95) -/
  temp : Nat
  eligible : Bool
  coolSince : Option Nat
  winClean : Bool
  /-- droop events of the last ten 1 µs sub-intervals, newest first -/
  droops : List Nat
  hot : Bool
  skipUntil : Nat
  /-- the 1 µs interval, counted from 1, in which the cluster was last sampled (04 R95) -/
  lastSample : Nat := 0
  tokCtr : Nat
  pagerTurn : Nat
  migOrder : Nat
  deriving DecidableEq, Repr

/-- A landing (00 R2; 09 R209-R213). -/
structure Landing where
  capt : Word
  rel : Word
  savw : Word
  savr : Word
  rows : FMap Nat
  pinned : List Nat
  /-- size codes of lines in DRAM, 0 where unlisted (09 R209) -/
  codes : FMap Nat
  /-- lines whose last store came through a page honoured as CMP (09 R209) -/
  cmp : List Nat
  /-- lines the memory-side cache holds and whether DRAM is older than the line -/
  msc : FMap Bool
  copies : List Copy
  temp : Nat
  /-- the 1 µs interval, counted from 1, in which the landing was last sampled (17 R374) -/
  lastSample : Nat := 0
  deriving DecidableEq, Repr

/-! ### Gangs and shares -/

/-- The gang descriptor (03 Table 03-8). -/
structure Desc where
  strict : Bool
  homedir : Bool
  compqValid : Bool
  queue : Nat
  nunits : Nat
  rows : Nat
  cols : Nat
  ctx : Nat
  waves : Nat
  bank : Bool
  ntl : Nat
  scratch : Nat
  nbar : Nat
  template : Nat
  image : Nat
  entry : Nat
  entryn : Nat
  arg0 : Word
  arg1 : Word
  homearg : Nat
  homestride : Nat
  save : Nat
  compl : Nat
  compq : Word
  cookie : Word
  barmask : List Nat
  deriving DecidableEq, Repr

/-- The fault summary (16 R371). -/
structure Summary where
  count : Nat
  epc : Word
  eval : Word
  cause : Nat
  rank : Nat
  core : Nat
  ctx : Nat
  lane : Nat
  eng : Nat
  fenced : Bool
  deriving DecidableEq, Repr

/-- A barrier's state at one member share (14 R326, R327): phase C, quota, arrivals and the clk of the last
arrival of C and of C + 1; quota 0 means not yet fixed; `lastA` and `lastB` are the clk of the last arrival of C - 1 and
of C - 2. -/
structure BarShare where
  c : Nat
  quota0 : Nat
  got0 : Nat
  last0 : Nat
  quota1 : Nat
  got1 : Nat
  last1 : Nat
  lastA : Nat
  lastB : Nat
  deriving DecidableEq, Repr

/-- How far a gang's life has come (03 R80; 15 R348-R351; 16 R368). -/
inductive Phase | queued | placed | loaded | running | saving | saved
  deriving DecidableEq, Repr

/-- A gang from launch step 1 to retirement. -/
structure Gang where
  id : Nat
  desc : Desc
  /-- the BAYS entries of the template -/
  bays : List Word
  phase : Phase
  restoring : Bool
  /-- dies whose release message has come -/
  released : List Nat
  /-- translation root (15 R340) and TEXT base -/
  root : Nat
  text : Nat
  summary : Summary
  deriving DecidableEq, Repr

/-- What pre-emption holds of a share besides the share's own fields and what lies in its save block
(15 R349, Table 15-6). Places in it stand on the cluster number 1000 + rank; clks in it count from the
save. Cores are keyed by their number. -/
structure Saved where
  threads : List (Place × Thread)
  waves : List (Nat × Nat × Wave)
  cores : FMap Core
  bank : Option Bank
  buckets : List Bucket
  copies : List Copy
  deriving DecidableEq, Repr

/-- A share of a gang (01 R16; 04 R392). -/
structure Share where
  gang : Nat
  rank : Nat
  unit : Nat
  /-- launch cluster and the cluster that holds the rank now (02 Table 02-9 CLUSTER; 15 R352) -/
  launch : Nat
  cl : Nat
  cores : List Nat
  nctx : Nat
  /-- wave slots held, as (engine, slot) -/
  slots : List (Nat × Nat)
  spadBase : Nat
  spadSize : Nat
  bank : Bool
  barIds : List Nat
  tls : List Timeline
  bays : List (Option Bay)
  bars : List BarShare
  tvec : Word
  gtimeout : Nat
  decode : List (BitVec 16)
  lay : List (Nat × Nat)
  tab : List HEntry
  spill : List Parcel
  stopped : Bool
  saved : Option Saved
  deriving DecidableEq, Repr

/-! ### Dispatcher and package -/

/-- A message in the dispatcher's inbound buffer, with the 128 bytes of the descriptor a launch names, as
read when the message arrived (03 R79), the clk of its arrival, and its place among those of one clk:
the window first, then firmware-column cores (04 R89). -/
structure Launch where
  msg : Msg
  desc : List Byte
  clk : Nat
  key : Nat
  deriving DecidableEq, Repr

/-- The gang dispatcher (04 R89-R97; 03 R79; 19 R384). No register, message or word of the manual gives supervisor software
its reservations, which 04 R97 lets it see, and the model gives none. DESIGN CHOICE (log 99). -/
structure Disp where
  inbox : List Launch
  queues : List (List Nat)
  ctr : Nat
  headSince : List Nat
  bf : List Nat
  aged : List Nat
  resv : List (Nat × List Nat)
  /-- a pass is to start: the clk of the first event that asks for it (04 R90) -/
  pass : Option Nat
  /-- an event has asked for one more, in the clk of that pass (04 R90) -/
  again : Bool := false
  /-- clk in which the eligibility timer's window began (04 R95) -/
  winStart : Nat
  lends : List Parcel
  deriving DecidableEq, Repr

/-- The device's condition (17 R374, R378). -/
inductive Boot | unbooted | running | recovery | tripped
  deriving DecidableEq, Repr

/-- What fuses and masks set (03 R66; 17 R372, R378, R380). -/
structure Fuses where
  featcap : BitVec 256
  power : Nat
  version : Nat
  /-- the version of the boot ROM, which a mask fixes (17 R380) -/
  rom : Nat := 0
  /-- the secret that the device identity key is derived from (17 R380) -/
  secret : Nat := 0
  deriving DecidableEq, Repr

/-- One record of a die's error log (15 R357). -/
structure LogRec where
  w0 : Word
  w1 : Word
  deriving DecidableEq, Repr

/-- A die's error log (15 R357). -/
structure ErrLog where
  recs : FMap LogRec
  head : Word
  tail : Nat
  ovf : Bool
  /-- first clk in which the log may capture again -/
  next : Nat
  deriving DecidableEq, Repr

/-- A Novilo frame that has been made up: for the copy it carries data of, whether it has left, and whether the peer has
acknowledged it (17 R376, R377). -/
structure NvSent where
  frame : NvFrame
  reg : Option TlReg
  left : Bool
  acked : Bool
  deriving DecidableEq, Repr

/-- An SPDM response (17 R380): the nonce answered, the four measurements and the signature. -/
structure SpdmAnswer where
  nonce : Nat
  measured : List (BitVec 384)
  sig : BitVec 768
  deriving DecidableEq, Repr

/-- The package: host link, power, heat, links, boot, errors (03; 15 R355-R357; 17). -/
structure Package where
  boot : Boot
  bootstat : Nat
  eopra : Eopra
  fuses : Fuses
  featAck : BitVec 256
  featLock : Bool
  hmwErr : Word
  window : List Msg
  /-- first clk in which the window may pass a message again (03 R67) -/
  windowNext : Nat
  /-- the 1 µs interval, counted from 1, in which rail current and power were last sampled (17 R373) -/
  lastSample : Nat := 0
  hrq : FMap Msg
  hrqHead : Nat
  hrqTail : Nat
  /-- the bytes the host's last BAR4 read returned (03 R66) -/
  hostRead : List Byte
  pwrCap : Word
  pwrNow : Word
  tempMax : Word
  tripCnt : Word
  linkFail : List Bool
  linkAsk : List Bool
  /-- consecutive failed retries of each flit, by link (17 R375) -/
  linkTry : List (FMap Nat)
  nvRoute : List Nat
  fenced : List Nat
  skip : Bool
  cleanSamples : Nat
  errCnt : FMap Word
  errPend : FMap LogRec
  logs : List ErrLog
  /-- lines of DRAM and of scratchpads with poison marks, each with the bytes rewritten since, as a bit set
  (15 R356) -/
  poison : FMap Nat
  /-- the firmware image that the boot ROM started (17 R378, R380) -/
  firmware : List Byte
  /-- SPDM responses sent (17 R380) -/
  spdm : List SpdmAnswer
  /-- Novilo frames made up, oldest first (17 R376, R377) -/
  novilo : List NvSent
  /-- frames numbered so far, by port * 256 + peer: those made up, and those received (log 37) -/
  nvOut : FMap Nat
  nvGot : FMap Nat
  /-- Novilo messages delivered, oldest first: port, peer and the 64 bytes (17 R376) -/
  nvIn : List (Nat × Nat × List Byte)
  deriving DecidableEq, Repr

/-- The whole device. -/
structure State where
  /-- clk since device reset (00 R8) -/
  clk : Nat
  turn : Turn
  agenda : List Turn
  draws : Nat
  frees : Nat
  pkg : Package
  disp : Disp
  gangs : FMap Gang
  shares : FMap Share
  threads : FMap Thread
  waves : FMap Wave
  cores : FMap Core
  clusters : FMap Cluster
  landings : FMap Landing
  /-- parcels no core's or engine's queue holds -/
  mesh : List Parcel
  mreqs : List MReq
  /-- landing-core contexts lent: context key, gang, rank (19 R384) -/
  lent : List (Nat × Nat × Nat)
  dram : Memory
  slices : FMap (BitVec 1024)
  sharers : FMap Nat
  aside : List (Nat × Nat)
  tlb : List Tlb
  stores : List Store
  reqCtr : Nat
  misses : List Miss
  /-- instruction groups requested and not delivered (05 R391), oldest first -/
  freqs : List FReq
  /-- how far the present clk has come: the place of the last mover that has one (log 77) -/
  slot : Nat
  deriving DecidableEq, Repr

/-! ### Reset -/

/-- A thread with every register 0, p0 apart, at pc 0 in user mode (03 R80 step 6). -/
def Thread.blank : Thread where
  gang := 0
  rank := 0
  x := Vector.replicate 32 0
  f := Vector.replicate 32 0
  p := 1
  q := Vector.replicate 32 0
  qpres := 0
  qout := 0
  qgot := 0
  pc := 0
  run := .idle
  fmode := 0
  fflags := 0
  nbv := 2
  grem := 0
  gcnd := false
  mgrec := 0
  mode := false
  pmode := false
  cause := 0
  epc := 0
  eval := 0
  eguard := 0
  escr := 0
  reply := none
  strm := [none, none, none, none]
  pend := []
  loads := []
  pace := []
  fetch := []
  yieldUntil := 0
  yieldFor := []
  ready := 0
  lastPc := none
  flagDue := 0
  acq := 0
  busy := []
  entered := false
  ending := none
  lay := List.replicate 64 (0, 0)

/-- A cleared handler table entry (03 R77). -/
def HEntry.blank : HEntry := { pc := 0, prio := 0, en := false }

/-- A core at launch or reset (03 R77, R78; 05 R103, R118; 14 R323). -/
def Core.blank : Core where
  inbox := []
  outq := []
  tab := List.replicate 16 HEntry.blank
  hptr := 0
  iptr := 0
  dqBase := 0
  dqLim := 0
  top := 0
  bot := 0
  lay := List.replicate 64 (0, 0)
  ic := []
  divFree := 0
  fdivFree := 0
  nextIssue := 0

/-- A barrier at launch (14 R326). -/
def BarShare.blank : BarShare :=
  { c := 0, quota0 := 0, got0 := 0, last0 := 0, quota1 := 0, got1 := 0, last1 := 0, lastA := 0, lastB := 0 }

/-- A polynomial register holding nothing (12 R271). -/
def ZVal.blank : ZVal := { bits := 0, nseg := 0, tag := [], exp := [] }

/-- The configuration registers' launch values; WROTC is the share's own position (12 R274, R288). -/
def Bank.launchCfg (row col : Nat) : Vector Word 8 :=
  ⟨#[0x000F62F7, 0, 0, 0, 0, 0, BitVec.ofNat 64 (row + col * 256), 0], rfl⟩

/-- A bank as a share receives it (12 R271). -/
def Bank.blank (row col : Nat) : Bank where
  z := Vector.replicate 16 ZVal.blank
  acc := []
  cfg := Bank.launchCfg row col
  accOvf := false
  bseq := 0
  bdone := 0
  halt := false
  bfcause := 0
  bfseq := 0
  bfdetail := 0
  bprog := 0
  queue := []
  run := none
  tail := []
  bufA := none
  bufB := none
  wd := none

/-- A free gatherer bucket. -/
def Bucket.blank : Bucket where
  st := .free
  gang := 0
  rank := 0
  migr := false
  pc := 0
  entries := []
  t0 := 0
  tmo := 0
  order := 0

/-- A cluster after device reset. -/
def Cluster.reset : Cluster where
  spad := []
  l1 := []
  ic := []
  ctr := ⟨0, 0, 0, 0, 0, 0, 0, 0⟩
  buckets := List.replicate 8 Bucket.blank
  posts := []
  copies := []
  gal := []
  slotFree := []
  steals := []
  trigQ := []
  engOut := [[], []]
  waveNum := [0, 0]
  divFree := [0, 0]
  engNext := [0, 0]
  bank := Bank.blank 0 0
  temp := 0
  eligible := true
  coolSince := none
  winClean := true
  droops := List.replicate 10 0
  hot := false
  skipUntil := 0
  tokCtr := 0
  pagerTurn := 0
  migOrder := 0

/-- A landing after device reset (09 Table 09-5). -/
def Landing.reset : Landing where
  capt := 0
  rel := 0
  savw := 0
  savr := 0
  rows := []
  pinned := []
  codes := []
  cmp := []
  msc := []
  copies := []
  temp := 0

/-- The Eopra settings before the boot ROM has read the table: 2 pager cores and a column of 4
(01 R17 defaults), and values the manual does not give. DESIGN CHOICE (log 3). -/
def Eopra.blank : Eopra where
  split := 64
  recordBase := 0x7FFC000000
  pagers := 2
  column := 4
  firewall := []
  etherType := 0
  peer := 0
  nvPeers := 0
  version := 0

/-- The package after device reset (03 Table 03-2; 17 Table 17-3); fused values by log 3. -/
def Package.reset : Package where
  boot := .unbooted
  bootstat := 0
  eopra := Eopra.blank
  fuses := { featcap := 0x1F, power := 4500, version := 0 }
  featAck := 0
  featLock := false
  hmwErr := 0
  window := []
  windowNext := 0
  hrq := []
  hrqHead := 0
  hrqTail := 0
  hostRead := []
  pwrCap := 4500
  pwrNow := 0
  tempMax := 0
  tripCnt := 0
  linkFail := [false, false, false, false]
  linkAsk := [false, false, false, false]
  linkTry := [[], [], [], []]
  nvRoute := List.replicate 256 0
  fenced := []
  skip := false
  cleanSamples := 0
  errCnt := []
  errPend := []
  logs := List.replicate 4 { recs := [], head := 0, tail := 0, ovf := false, next := 0 }
  poison := []
  firmware := []
  spdm := []
  novilo := []
  nvOut := []
  nvGot := []
  nvIn := []

/-- The dispatcher after device reset (03 R80; 04 R89). -/
def Disp.reset : Disp where
  inbox := []
  queues := List.replicate 8 []
  ctr := 0
  headSince := List.replicate 8 0
  bf := List.replicate 8 0
  aged := []
  resv := []
  pass := none
  winStart := 0
  lends := []

/-- The machine right after device reset: no gang, no thread, empty queues and caches, memory with
nothing listed. The schedule fields are the model's own (log 1, log 2). -/
def State.reset : State where
  clk := 0
  turn := .tick
  agenda := []
  draws := 0
  frees := 0
  pkg := Package.reset
  disp := Disp.reset
  gangs := []
  shares := []
  threads := []
  waves := []
  cores := []
  clusters := []
  landings := []
  mesh := []
  mreqs := []
  lent := []
  dram := []
  slices := []
  sharers := []
  aside := []
  tlb := []
  stores := []
  reqCtr := 0
  misses := []
  freqs := []
  slot := 0

/-! ### Outcomes -/

/-- Faults of the model: the stops no row of the manual's tables gives (00 R3: a word ends in a value, a named fault, which the
meanings take as the manual's trap, or a named state). Safe. -/
inductive Fault
  /-- An instruction word was executed at a turn in which no thread issues. Raised by `issueWord`.
  Safe: the device issues words only for threads. -/
  | noThread
  deriving DecidableEq, Repr

/-- Refusals. -/
inductive Refusal
  /-- The instruction has no meaning yet. Raised by the dispatcher's arms. Safe. -/
  | notModelled (mnemonic : String)
  deriving DecidableEq, Repr

end Sys2Proof.Machine
end

