-- ==== Sys2Proof/Machine/Ops.lean ====
section
/-!
DEFINITION. The named operations over the state: finding and updating threads, cores, clusters, shares
and gangs; reading and writing registers; taking a trap, returning from one, and ending a thread.
-/

namespace Sys2Proof

/-- The number the thread table keys a place with; lanes of a wave are in ascending lane order. -/
def Place.key : Place → Nat
  | .ctx cl c k => (cl * 32 + c) * 4 + k
  | .lane cl e sl ln => 100000 + ((cl * 2 + e) * 16 + sl) * 64 + ln
  | .lctx l c k => 1000000 + (l * 48 + c) * 4 + k

/-- The number the core table keys a core with. -/
def CoreId.key : CoreId → Nat
  | .scalar cl c => cl * 32 + c
  | .landing l c => 10000 + l * 48 + c

/-- The kind of engine a place lies on (02 Table 02-9 ENGINE). -/
def Place.engine : Place → Engine
  | .ctx _ _ _ => .scalar
  | .lane _ _ _ _ => .lane
  | .lctx _ _ _ => .landing

/-- The cluster a place lies on; none for a landing core. -/
def Place.cluster? : Place → Option Nat
  | .ctx cl _ _ => some cl
  | .lane cl _ _ _ => some cl
  | .lctx _ _ _ => none

/-- The die a place lies on (00 R2). -/
def Place.die : Place → Nat
  | .ctx cl _ _ => cl / 48
  | .lane cl _ _ _ => cl / 48
  | .lctx l _ _ => l / 2

/-- The core a scalar or landing context belongs to. -/
def Place.core? : Place → Option CoreId
  | .ctx cl c _ => some (.scalar cl c)
  | .lane _ _ _ _ => none
  | .lctx l c _ => some (.landing l c)

/-- The context of a core. -/
def CoreId.place : CoreId → Nat → Place
  | .scalar cl c, k => .ctx cl c k
  | .landing l c, k => .lctx l c k

/-- What CORE reports (02 Table 02-9). -/
def Place.coreNum : Place → Nat
  | .ctx _ c _ => c
  | .lane _ e _ _ => e
  | .lctx _ c _ => c

/-- What CONTEXT reports. -/
def Place.ctxNum : Place → Nat
  | .ctx _ _ k => k
  | .lane _ _ sl _ => sl
  | .lctx _ _ k => k

/-- What LANE reports. -/
def Place.laneNum : Place → Nat
  | .ctx _ _ _ => 0
  | .lane _ _ _ ln => ln
  | .lctx _ _ _ => 0

/-- What ENGINE reports. -/
def Engine.num : Engine → Nat
  | .scalar => 0
  | .lane => 1
  | .landing => 2

/-- The number of x and f registers of an engine (02 Table 02-1). -/
def Engine.nregs : Engine → Nat
  | .lane => 24
  | .scalar => 32
  | .landing => 32

/-- The crew whose turn issues words for a place. -/
def Place.crew : Place → Crew
  | .ctx cl c k => .ctx cl c k
  | .lane cl e sl _ => .wave cl e sl
  | .lctx l c k => .lctx l c k

end Sys2Proof

namespace Sys2Proof.Machine

/-! ### Cause codes (15 R337, Table 15-1) -/

namespace Cause
def illegal : Nat := 1
def privilege : Nat := 2
def engine : Nat := 3
def access : Nat := 4
def pacing : Nat := 5
def layout : Nat := 6
def messageFormat : Nat := 7
def messageDest : Nat := 8
def mailbox : Nat := 9
def migrTarget : Nat := 10
def migrState : Nat := 11
def stream : Nat := 12
def streamRecord : Nat := 13
def layoutRecord : Nat := 14
def timeline : Nat := 15
def gallery : Nat := 16
def overRead : Nat := 17
def bayStall : Nat := 18
def deque : Nat := 19
def barrier : Nat := 20
def bankResv : Nat := 21
def guardPlan : Nat := 22
def bankConfig : Nat := 23
def copy : Nat := 24
def packRange : Nat := 25
def guardOverflow : Nat := 26
def bankReset : Nat := 27
def dieFence : Nat := 28
def dataError : Nat := 29
def trapVector : Nat := 30
def trap : Nat := 31
def brk : Nat := 32
end Cause

/-! ### Finding and updating -/

/-- The thread at a place, if one stands there. -/
def State.thread? (s : State) (p : Place) : Option Thread := FMap.get? s.threads p.key

/-- The thread at a place, or a blank one. -/
def State.thread (s : State) (p : Place) : Thread := (s.thread? p).getD Thread.blank

/-- The state with thread t at p. -/
def State.setThread (s : State) (p : Place) (t : Thread) : State :=
  { s with threads := FMap.put s.threads p.key t }

/-- The state with the thread at p changed. -/
def State.modThread (s : State) (p : Place) (f : Thread → Thread) : State :=
  s.setThread p (f (s.thread p))

/-- The state with no thread at p. -/
def State.delThread (s : State) (p : Place) : State :=
  { s with threads := FMap.del s.threads p.key }

/-- A core's state. -/
def State.core (s : State) (c : CoreId) : Core := FMap.getD s.cores c.key Core.blank

/-- The state with a core changed. -/
def State.modCore (s : State) (c : CoreId) (f : Core → Core) : State :=
  { s with cores := FMap.put s.cores c.key (f (s.core c)) }

/-- A cluster. -/
def State.cluster (s : State) (cl : Nat) : Cluster := FMap.getD s.clusters cl Cluster.reset

/-- The state with a cluster changed. -/
def State.modCluster (s : State) (cl : Nat) (f : Cluster → Cluster) : State :=
  { s with clusters := FMap.put s.clusters cl (f (s.cluster cl)) }

/-- A landing. -/
def State.landing (s : State) (l : Nat) : Landing := FMap.getD s.landings l Landing.reset

/-- The state with a landing changed. -/
def State.modLanding (s : State) (l : Nat) (f : Landing → Landing) : State :=
  { s with landings := FMap.put s.landings l (f (s.landing l)) }

/-- The key of a wave slot. -/
def waveKey (cl e sl : Nat) : Nat := (cl * 2 + e) * 16 + sl

/-- The wave in a slot, if one is resident. -/
def State.wave? (s : State) (cl e sl : Nat) : Option Wave := FMap.get? s.waves (waveKey cl e sl)

/-- The state with a wave changed, if it is resident. -/
def State.modWave (s : State) (cl e sl : Nat) (f : Wave → Wave) : State :=
  match s.wave? cl e sl with
  | some w => { s with waves := FMap.put s.waves (waveKey cl e sl) (f w) }
  | none => s

/-- A gang that has not retired. -/
def State.gang? (s : State) (g : Nat) : Option Gang := FMap.get? s.gangs g

/-- The state with a gang changed. -/
def State.modGang (s : State) (g : Nat) (f : Gang → Gang) : State :=
  match s.gang? g with
  | some x => { s with gangs := FMap.put s.gangs g (f x) }
  | none => s

/-- The key of a share. -/
def shareKey (g r : Nat) : Nat := g * 65536 + r

/-- The share of rank r of gang g. -/
def State.share? (s : State) (g r : Nat) : Option Share := FMap.get? s.shares (shareKey g r)

/-- The state with a share changed. -/
def State.modShare (s : State) (g r : Nat) (f : Share → Share) : State :=
  match s.share? g r with
  | some x => { s with shares := FMap.put s.shares (shareKey g r) (f x) }
  | none => s

/-- The shares of gang g in rank order. -/
def State.sharesOf (s : State) (g : Nat) : List Share := (FMap.vals s.shares).filter (·.gang == g)

/-- The number N of shares of a gang (03 R79). -/
def Desc.ranks (d : Desc) : Nat := d.nunits * d.rows * d.cols

/-- N of gang g, 0 if there is none. -/
def State.nranks (s : State) (g : Nat) : Nat :=
  match s.gang? g with
  | some x => x.desc.ranks
  | none => 0

/-- The share the thread at p runs for (15 R335 for landing cores). -/
def State.shareOf? (s : State) (p : Place) : Option Share :=
  s.share? (s.thread p).gang (s.thread p).rank

/-- The present lanes of a wave slot, ascending. -/
def State.lanes (s : State) (cl e sl : Nat) : List Place :=
  (List.range 64).filterMap fun ln =>
    if (s.thread? (.lane cl e sl ln)).isSome then some (.lane cl e sl ln) else none

/-- Whether the gang's share is resident and released on its die (03 R81; 15 R350). -/
def State.live (s : State) (sh : Share) : Bool :=
  match s.gang? sh.gang with
  | some g => g.released.contains (sh.cl / 48) && sh.saved.isNone && !sh.stopped
  | none => false

/-- Whether a share holds resources of its cluster: from placement to retirement, but not while it is
saved (04 R93; 15 R349 step 7). -/
def State.holds (s : State) (sh : Share) : Bool :=
  match s.gang? sh.gang with
  | none => false
  | some g =>
    match g.phase with
    | .queued => false
    | .saved => false
    | .saving => sh.saved.isNone
    | .placed => true
    | .loaded => true
    | .running => true

/-- Whether the place belongs to a pager core or a firmware-column core (01 R17). -/
def State.supervisorCore (s : State) : CoreId → Bool
  | .scalar cl c =>
    let p := s.pkg.eopra.pagers
    let w := s.pkg.eopra.column
    decide (32 - p ≤ c) || (decide (cl < 48 ∧ cl % 8 = 0) && decide (32 - p - w ≤ c))
  | .landing _ _ => false

/-- Whether a core is a pager core (01 R17). -/
def State.pagerCore (s : State) : CoreId → Bool
  | .scalar _ c => decide (32 - s.pkg.eopra.pagers ≤ c)
  | .landing _ _ => false

/-- Whether a core belongs to the firmware column (01 R17). -/
def State.columnCore (s : State) (c : CoreId) : Bool := s.supervisorCore c && !s.pagerCore c

/-! ### Where threads stand -/

/-- The place a key of the thread table stands for. -/
def placeOfKey (k : Nat) : Place :=
  if k < 100000 then .ctx (k / 128) (k / 4 % 32) (k % 4)
  else if k < 1000000 then
    let n := k - 100000
    .lane (n / 2048) (n / 1024 % 2) (n / 64 % 16) (n % 64)
  else
    let n := k - 1000000
    .lctx (n / 192) (n / 4 % 48) (n % 4)

/-- The places where threads stand. -/
def State.places (s : State) : List Place := s.threads.map fun e => placeOfKey e.1

/-! ### Registers -/

/-- The contents of x register r of a thread; x0 reads 0 (02 R37). -/
def Thread.getX (t : Thread) (r : Reg) : Word := if r = 0 then 0 else t.x[r]

/-- The contents of f register r of a thread. -/
def Thread.getF (t : Thread) (r : Reg) : W32 := t.f[r]

/-- The contents of predicate n; p0 reads 1 (02 R37). -/
def Thread.getP (t : Thread) (n : Pred) : Bool := if n = 0 then true else t.p.getLsbD n

/-- The thread with x register r written; x0 ignores writes (02 R37). -/
def Thread.setX (t : Thread) (r : Reg) (v : Word) : Thread :=
  if r = 0 then t else { t with x := t.x.set r v }

/-- The thread with f register r written. -/
def Thread.setF (t : Thread) (r : Reg) (v : W32) : Thread := { t with f := t.f.set r v }

/-- A bit string with bit i replaced. -/
def setBit {w : Nat} (v : BitVec w) (i : Nat) (b : Bool) : BitVec w :=
  if b then v ||| BitVec.twoPow w i else v &&& ~~~(BitVec.twoPow w i)

/-- The thread with predicate n written; p0 ignores writes (02 R37). -/
def Thread.setP (t : Thread) (n : Nat) (b : Bool) : Thread :=
  if n = 0 then t else { t with p := setBit t.p n b }

/-- The thread with register n of a file written. -/
def Thread.putReg (t : Thread) (file : RFile) (n : Nat) (v : Word) : Thread :=
  match file with
  | .x => t.setX (Fin.ofNat 32 n) v
  | .f => t.setF (Fin.ofNat 32 n) (v.setWidth 32)
  | .p => t.setP n (v.getLsbD 0)

/-- x register r of the thread at p. -/
def getX (p : Place) (r : Reg) (s : State) : Word := (s.thread p).getX r

/-- f register r of the thread at p. -/
def getF (p : Place) (r : Reg) (s : State) : W32 := (s.thread p).getF r

/-- Predicate n of the thread at p. -/
def getP (p : Place) (n : Pred) (s : State) : Bool := (s.thread p).getP n

/-- The paced results of a list that are due at clk, landed in order, and those that are not
(02 R59, R61). -/
def landList (clk : Nat) : List PendW → Thread → Thread × List PendW
  | [], t => (t, [])
  | w :: ws, t =>
    if w.due ≤ clk then landList clk ws (t.putReg w.file w.reg w.val)
    else
      let r := landList clk ws t
      (r.1, w :: r.2)

/-- The thread with the paced results due at clk landed. -/
def Thread.land (t : Thread) (clk : Nat) : Thread :=
  let r := landList clk t.pend t
  { r.1 with pend := r.2 }

/-- The thread with every paced result landed (02 R61: trap entry, migration, save). -/
def Thread.landAll (t : Thread) : Thread :=
  let t' := t.pend.foldl (fun t w => t.putReg w.file w.reg w.val) t
  { t' with pend := [] }

/-- The clk in which a write of a register may land: not before the older writes of it (02 R61). -/
def dueAfter (file : RFile) (n due : Nat) (l : List PendW) : Nat :=
  l.foldl (fun d w => if w.file == file && w.reg == n then max d w.due else d) due

/-- Write register n of a file of the thread at p with a result of wide-engine latency lat; lat 0 is
an interlocked result (02 R59-R61, R104). On scalar and landing cores the write is immediate. -/
def writeReg (p : Place) (lat : Nat) (file : RFile) (n : Nat) (v : Word) (s : State) : State :=
  s.modThread p fun t =>
    if n = 0 && (file == .x || file == .p) then t
    else match p.engine with
      | .lane =>
        let t := t.land s.clk
        let due := dueAfter file n (s.clk + lat) t.pend
        if due ≤ s.clk then t.putReg file n v
        else { t with pend := t.pend ++ [{ file := file, reg := n, val := v, due := due, inter := lat == 0 }] }
      | .scalar => t.putReg file n v
      | .landing => t.putReg file n v

/-- Write x register d. -/
def setX (p : Place) (lat : Nat) (d : Reg) (v : Word) (s : State) : State :=
  writeReg p lat .x d v s

/-- Write f register d when it is no stream (02 R37); the stream forms are in Operands. -/
def setFReg (p : Place) (lat : Nat) (d : Reg) (v : W32) (s : State) : State :=
  writeReg p lat .f d (v.setWidth 64) s

/-- Write predicate d. -/
def setPred (p : Place) (lat : Nat) (d : Nat) (b : Bool) (s : State) : State :=
  writeReg p lat .p d (if b then 1 else 0) s

/-- The second register of a result pair, written where it exists on the engine (02 R387). -/
def setXNext (p : Place) (lat : Nat) (d : Reg) (v : Word) (s : State) : State :=
  if d.val + 1 < p.engine.nregs then writeReg p lat .x (d.val + 1) v s else s

/-! ### GUARDST and STATUS (02 R64) -/

/-- The value of GUARDST. -/
def Thread.guardst (t : Thread) : Word := ofN (t.grem * 2 + b2n t.gcnd)

/-- The value of STATUS. -/
def Thread.status (t : Thread) : Word := ofN (b2n t.pmode * 2 + b2n t.mode)

/-! ### What a word's execution ends in -/

/-- How the execution of a word ends for one thread: it completes and the pc advances; it takes a
transfer to t; it returns from a trap to t; it raises a precise or deferred fault with a cause and
EVAL at its own address; TRAP and BRK, which save the next address; it enters a named state; or it
leaves its place, its pc being settled by the meaning (02 R49; 05 R105; 15 R333; 00 R6). -/
inductive Res
  | ok (s : State)
  | jump (s : State) (t : Word)
  | eret (s : State) (t : Word)
  | trap (s : State) (cause : Nat) (eval : Word)
  | trapNext (s : State) (cause : Nat) (eval : Word)
  | wait (s : State) (w : Wait)
  | left (s : State)
  deriving DecidableEq

/-! ### Fault summary (16 R371) -/

/-- The empty fault summary. -/
def Summary.blank : Summary :=
  { count := 0, epc := 0, eval := 0, cause := 0, rank := 0, core := 0, ctx := 0, lane := 0, eng := 0,
    fenced := false }

/-- A fault added to a summary: the first fills every field, each later one counts (16 R371). -/
def Summary.add (m : Summary) (p : Place) (rank : Nat) (epc eval : Word) (cause : Nat) : Summary :=
  let m' := if m.count = 0
    then { m with epc := epc, eval := eval, cause := cause, rank := rank, core := p.coreNum,
                  ctx := p.ctxNum, lane := p.laneNum, eng := p.engine.num }
    else m
  { m' with count := min (m.count + 1) 4294967295, fenced := m.fenced || cause == Cause.dieFence }

/-- Record a fault of the thread at p in its gang's summary. -/
def recordFault (p : Place) (epc eval : Word) (cause : Nat) (s : State) : State :=
  let t := s.thread p
  s.modGang t.gang fun g => { g with summary := g.summary.add p t.rank epc eval cause }

/-! ### Trap entry and return (15 R333-R335, R359) -/

/-- Where a trap of the thread at p goes: its share's TVEC; the column's vector where a landing-core
context is not lent (15 R333, R335). -/
def State.tvecOf (s : State) (p : Place) : Word :=
  match s.shareOf? p with
  | some sh => sh.tvec
  | none => Config.columnVector

/-- The thread begins to end with a value for its reply, as EXIT ends it (15 R332): it is left in
*draining* at its word, from which the next look ends it. -/
def startEnding (p : Place) (v : Word) (s : State) : State :=
  s.modThread p fun t => { t.landAll with ending := some v, run := .wait (.exit 0) .draining }

/-- The value an ending thread's reply takes (15 R332). -/
def endValue (cause : Nat) : Word := ofN (0x8000000000000000 + cause)

/-- Trap entry of R333 with the saved pc given: pending writes complete, CAUSE, EVAL, EPC and EGUARD
are written, GUARDST is cleared, MODE goes to PMODE and becomes 1, and the pc becomes TVEC. A TVEC
that is no multiple of 4 ends the thread with trap-vector fault (R334). -/
def trapEnter (p : Place) (cause : Nat) (eval epc : Word) (s : State) : State :=
  let v := s.tvecOf p
  if v.toNat % 4 ≠ 0 then
    startEnding p (endValue cause) (recordFault p epc eval cause s)
  else
    s.modThread p fun t =>
      let t := t.landAll
      { t with
        cause := ofN cause
        eval := eval
        epc := epc
        eguard := t.guardst
        grem := 0
        gcnd := false
        pmode := t.mode
        mode := true
        pc := v
        run := .running
        pace := []
        fetch := []
        lastPc := none
        ready := s.clk + 3
        entered := true }

/-- The return from a trap (15 R359): GUARDST from EGUARD, MODE from PMODE, PMODE 0; the pc is EPC. Where
software wrote 9 to 15 into EGUARD's REM, that many words are guarded: the manual gives REM as 0 to 8 and
no effect of more. DESIGN CHOICE (log 71). -/
def trapReturn (p : Place) (s : State) : State :=
  s.modThread p fun t =>
    { t with
      grem := wbits t.eguard 4 1
      gcnd := wbit t.eguard 0
      mode := t.pmode
      pmode := false }

/-- A thread's control moves to t: the pc, and what a taken transfer ends and stalls (02 R56, R58;
05 R105, R391). -/
def Thread.goto (t : Thread) (clk : Nat) (pc : Word) : Thread :=
  { t with pc := pc, pace := [], fetch := [], lastPc := none, ready := clk + 3 }

/-- The range words that remain after one more (02 R55); a word that sets the range keeps its own. -/
def Thread.countDown (t : Thread) (before : Nat) : Thread :=
  if before = 0 then t else { t with grem := before - 1 }

/-- The end of a word for the thread at p, which stood at pc with `before` range words left. -/
def finish (p : Place) (i : Instr) (pc : Word) (before : Nat) : Res → State
  | .ok s => s.modThread p fun t => { t.countDown before with pc := pc + 4, run := .running }
  | .jump s dst => s.modThread p fun t =>
      { (t.goto s.clk dst) with grem := 0, run := .running }
  | .eret s dst => s.modThread p fun t => { (t.goto s.clk dst) with run := .running }
  | .trap s c v => trapEnter p c v pc s
  | .trapNext s c v => trapEnter p c v (pc + 4) (s.modThread p fun t => t.countDown before)
  | .wait s w => s.modThread p fun t => { t with run := .wait i w }
  | .left s => s

/-- A fresh free value (00 R4). -/
def freshWord (s : State) : Word × State :=
  (Config.freeWord s.frees, { s with frees := s.frees + 1 })

end Sys2Proof.Machine
end

