-- ==== Sys2Proof/Machine/Translate.lean ====
section
/-!
DEFINITION. Addresses: canonical form and windows (01 R22-R28; 09 R215), homes and slices (09 R201,
R202).
-/

namespace Sys2Proof.Machine

/-! ### Canonical addresses and windows -/

/-- The lowest address of the window region (01 R22). -/
def windowBase : Nat := 0x00FFFE0000000000

/-- Whether an address lies in the window region (01 R22). -/
def inWindow (a : Word) : Bool := decide (wbits a 63 41 = 0x7FFF)

/-- Whether an address is canonical (01 R22). -/
def canonical (a : Word) : Bool :=
  decide (wbits a 63 55 = 0) || decide (wbits a 63 55 = 0x1FF) || inWindow a

/-- Where an address in the window region leads, before the bound checks. -/
inductive Window
  | own (off : Nat)
  | rank (k off : Nat)
  | phys (c off : Nat)
  | none
  deriving DecidableEq, Repr

/-- The window an address of the window region names (01 R24, R25, R27). -/
def windowOf (a : Word) : Window :=
  let o := wbits a 40 0
  let slot := o % 0x1000000
  if o < 0x10000000000 then
    if slot < 0x800000 then .rank (o / 0x1000000) slot else .none
  else
    let q := o - 0x10000000000
    if q < 0x800000 then .own q
    else if 0x8000000000 ≤ q ∧ q < 0x8000000000 + 192 * 0x1000000 ∧ slot < 0x800000 then
      .phys ((q - 0x8000000000) / 0x1000000) slot
    else .none

/-- The window address of share offset off of rank k in the RAW view (11 R254). -/
def rankAddr (k off : Nat) : Word := ofN (windowBase + k * 0x1000000 + off)

/-- The bytes of storage an access of w bytes at view offset o covers, if the view accepts the size
(09 Table 09-6). -/
def viewBytes (view o w : Nat) : Option (Nat × Nat) :=
  match view with
  | 0 => some (o, w)
  | 1 => if 2 ≤ w then some (o / 2, w / 2) else none
  | 2 => if 2 ≤ w then some (o / 2, w / 2) else none
  | _ => if 4 ≤ w then some (o / 2, w / 2) else none

/-- Who makes an access: its gang and rank, its cluster (none for a landing core), its die, its mode,
and whether its accesses go straight to the home (09 R200). -/
structure Agent where
  gang : Nat
  rank : Nat
  cl : Option Nat
  die : Nat
  user : Bool
  direct : Bool
  /-- the firmware-column core it runs on, whose firewall bounds it (17 R379) -/
  col : Option Nat
  deriving DecidableEq, Repr

/-- The firmware-column core a place lies on. -/
def State.colOf (s : State) (p : Place) : Option Nat :=
  match p.core? with
  | some c => if s.columnCore c then some c.key else none
  | none => none

/-- The agent a thread is. -/
def State.agent (s : State) (p : Place) : Agent :=
  let t := s.thread p
  { gang := t.gang, rank := t.rank, cl := p.cluster?, die := p.die, user := !t.mode,
    direct := p.engine == .landing, col := s.colOf p }

/-- What an access comes to before it is performed. -/
inductive Route
  /-- It goes to a target. -/
  | to (t : Target)
  /-- It faults with a cause; EVAL is the address. -/
  | bad (cause : Nat)
  /-- Its walk failed (15 R341): reason and level. -/
  | missed (reason level : Nat)
  /-- It waits for a share that is saved or not yet released (01 R28; 03 R81). -/
  | held
  deriving DecidableEq, Repr

/-- The share of another gang that holds a byte of a cluster's scratchpad, for the CODE view of a
physical window (01 R27). -/
def State.byteHolder (s : State) (cl off : Nat) : Option Share :=
  (FMap.vals s.shares).find? fun sh =>
    sh.cl == cl && s.holds sh && decide (sh.spadBase ≤ off) && decide (off < sh.spadBase + sh.spadSize)

/-- An access of w bytes through a share's own window bytes (01 R26; 09 R215). -/
def shareRoute (sh : Share) (o w : Nat) : Route :=
  let view := o / 0x200000
  match viewBytes view (o % 0x200000) w with
  | none => .bad Cause.access
  | some (b, n) =>
    if b + n ≤ sh.spadSize then .to (.spad sh.cl (sh.spadBase + b) view sh.gang sh.rank)
    else .bad Cause.access

/-! ### Homes and slices (09 R201, R202) -/

/-- Bytes of a GiB. -/
def gib : Nat := 0x40000000

/-- The interleaved region's size. -/
def State.interSize (s : State) : Nat := 8 * s.pkg.eopra.split * gib

/-- The pinned region of a die: base and size (09 R201). -/
def State.pinnedSize (s : State) : Nat := 2 * (64 - s.pkg.eopra.split) * gib

/-- The die a pinned physical address belongs to, if it lies in a pinned region. -/
def State.pinnedDie? (s : State) (pa : Nat) : Option Nat :=
  let d := pa / 0x100000000000
  if 1 ≤ d ∧ d ≤ 4 ∧ pa % 0x100000000000 < s.pinnedSize then some (d - 1) else none

/-- Whether a physical address lies in DRAM. -/
def State.inDram (s : State) (pa : Nat) : Bool :=
  decide (pa < s.interSize) || (s.pinnedDie? pa).isSome

/-- The slice an address hashes to, on each die (09 R202). -/
def sliceOf (a : Nat) : Nat :=
  Nat.xor (nbits a 12 7) (nbits a 15 13 * 9)

/-- The home landing of a physical address of DRAM (09 R202). -/
def State.homeLanding (s : State) (pa : Nat) : Nat :=
  let l := Nat.xor (Nat.xor (nbits pa 9 7) (nbits pa 12 10)) (nbits pa 15 13)
  match s.pinnedDie? pa with
  | some d => 2 * d + l % 2
  | none => l

/-- The home die of a physical address of DRAM. -/
def State.homeDie (s : State) (pa : Nat) : Nat := s.homeLanding pa / 2

/-- The target a physical address names, with the page's attributes (09 R201, R213; 17 R377). -/
def State.targetOf (s : State) (pa : Nat) (pte : Word) : Target :=
  if s.inDram pa then
    .dram pa (!s.pkg.featAck.getLsbD 1 || wbit pte 11) (wbit pte 63) (s.pkg.featAck.getLsbD 2 && wbit pte 12)
  else if 0xFFF0000000000 ≤ pa ∧ pa < 0xFFF0000000000 + 8 * 0x10000 then
    .lreg ((pa - 0xFFF0000000000) / 0x10000) (pa % 0x10000)
  else if 0xE000000000000 ≤ pa ∧ pa < 0xF000000000000 then
    .remote ((pa - 0xE000000000000) / 0x10000000000) (pa % 0x10000000000)
  else .hole

end Sys2Proof.Machine
end

