-- ==== Sys2Proof/Machine/Memory.lean ====
section
/-!
DEFINITION. The memory path: homes, sharer bits and slice copies, the progress of stores and merges,
L1 lines, loads, and the releases and acquires (09 R196-R207, R213, R214; 13 R302-R312).
-/

namespace Sys2Proof.Machine

/-! ### Lines and byte strings -/

/-- A line's bytes [o, o+n) as a number. -/
def lineGet (d : BitVec 1024) (o n : Nat) : Nat := nbits d.toNat (8 * (o + n) - 1) (8 * o)

/-- A line with bytes [o, o+n) replaced. -/
def linePut (d : BitVec 1024) (o n v : Nat) : BitVec 1024 :=
  BitVec.ofNat 1024 (setField d.toNat (8 * o) (8 * n) v)

/-- The value of n bytes at address a, v, with the bytes another n' bytes at a' (value v') replaced where
they overlap. -/
def overlay (a n v a' n' v' : Nat) : Nat :=
  (List.range n).foldl (fun acc i =>
    let b := a + i
    if a' ≤ b ∧ b < a' + n' then setField acc (8 * i) 8 (nbits v' (8 * (b - a') + 7) (8 * (b - a')))
    else acc) v

/-! ### Counters at the path (09 R209, R214) -/

/-- The bursts a line's size code names (09 R209). -/
def codeBursts (c : Nat) : Nat := 4 - c

/-- The row a line lies in: the 8 lines of one landing among 64 neighbours of the interleaved region, or
among 16 of a pinned one (09 R211; log 26). -/
def State.rowOf (s : State) (line : Nat) : Nat :=
  if (s.pinnedDie? (line * 128)).isSome then line / 16 else line / 64

/-- The line as the home holds it. -/
def homeLine (s : State) (line : Nat) : BitVec 1024 :=
  BitVec.ofNat 1024 (Memory.read s.dram (line * 128) 128)

/-! ### Writebacks and compression (09 R209) -/

/-- Word j of a line. -/
def lineWordAt (d : BitVec 1024) (j : Nat) : Nat := lineGet d (4 * j) 4

/-- d_j of a line (09 R209). -/
def lineDelta (d : BitVec 1024) (j : Nat) : Int := sext ((lineWordAt d j : Int) - (lineWordAt d 0 : Int)) 32

/-- Whether k bits hold every delta. -/
def deltasFit (d : BitVec 1024) (k : Nat) : Bool :=
  (List.range 31).all fun j =>
    if k = 0 then lineDelta d (j + 1) == 0
    else decide (-(2 : Int) ^ (k - 1) ≤ lineDelta d (j + 1)) && decide (lineDelta d (j + 1) ≤ (2 : Int) ^ (k - 1) - 1)

/-- k of a line: the smallest number of bits that holds every delta. -/
def deltaBits (d : BitVec 1024) : Nat := ((List.range 33).find? (deltasFit d)).getD 32

/-- The bursts a line is written in. -/
def lineBursts (d : BitVec 1024) : Nat :=
  let k := deltaBits d
  if k ≤ 6 then 1 else if k ≤ 15 then 2 else if k ≤ 23 then 3 else 4

/-- The size code a landing writes a line with (09 R209). -/
def State.sizeCode (s : State) (l line : Nat) : Nat :=
  if (s.landing l).cmp.contains line && s.pkg.featAck.getLsbD 2 then 4 - lineBursts (homeLine s line) else 0

/-- A changed line written to DRAM: its size code, the bursts saved, and its cached copy clean. -/
def writeBack (l line : Nat) (s : State) : State :=
  if FMap.get? (s.landing l).msc line = some true then
    let c := s.sizeCode l line
    s.modLanding l fun d =>
      { d with
        msc := FMap.put d.msc line false
        codes := if c = 0 then FMap.del d.codes line else FMap.put d.codes line c
        savw := d.savw + ofN c }
  else s

/-! ### The memory-side cache (09 Table 09-1, R211, R212) -/

/-- The lines a landing's memory-side cache holds: 128 MiB. -/
def mscLines : Nat := 1048576

/-- The line that goes where a cache is full: any that may go, by a free choice (09 R196; log 65). -/
def victimOf (line clk : Nat) (ls : List Nat) : Option Nat :=
  ls[(Config.victim line clk) % ls.length]?

/-- Room made in a full memory-side cache: a line that no captured row pins is written back and goes. -/
def mscRoom (l line : Nat) (s : State) : State :=
  let ld := s.landing l
  if ld.msc.length < mscLines || (FMap.get? ld.msc line).isSome then s
  else match victimOf line s.clk ((ld.msc.map (·.1)).filter fun n => !ld.pinned.contains (s.rowOf n)) with
    | none => s
    | some v => (writeBack l v s).modLanding l fun d => { d with msc := FMap.del d.msc v }

/-- A line put into a landing's memory-side cache; `dirty` where DRAM is older. -/
def mscPut (l line : Nat) (dirty : Bool) (s : State) : State :=
  (mscRoom l line s).modLanding l fun d => { d with msc := FMap.put d.msc line dirty }

/-- What the home does for a read of a line: a hit in the memory-side cache, or a DRAM read of the
bursts its size code names (09 R209, R214). Answers whether it hit and the bursts saved. -/
def homeServe (line : Nat) (s : State) : Bool × Nat × State :=
  let l := s.homeLanding (line * 128)
  let ld := s.landing l
  let hit := (FMap.get? ld.msc line).isSome || ld.pinned.contains (s.rowOf line)
  if hit then (true, 0, s)
  else
    let saved := FMap.getD ld.codes line 0
    (false, saved, mscPut l line false (s.modLanding l fun ld => { ld with savr := ld.savr + ofN saved }))

/-- The Lafold link between two neighbouring dies (17 R375). -/
def linkOf (a b : Nat) : Nat :=
  match min a b, max a b with
  | 0, 1 => 0
  | 0, 2 => 1
  | 1, 3 => 2
  | _, _ => 3

/-- Whether the link between two neighbouring dies has not failed. -/
def State.linkUp (s : State) (a b : Nat) : Bool := !(s.pkg.linkFail[linkOf a b]?).getD false

/-- Whether bytes between dies d and h leave d by its link to d XOR 2: those for that die, and what a failed
link on the other path sends round (09 R214; 13 R316). -/
def State.viaLink1 (s : State) (d h : Nat) : Bool :=
  let a := Nat.xor d 1
  let b := Nat.xor d 2
  if h = b then s.linkUp d b
  else if h = a then !s.linkUp d a
  else !(s.linkUp d a && s.linkUp a h)

/-- Traffic over a die's Lafold links for bytes between dies d and h (09 R214). -/
def Traffic.link (t : Traffic) (d h bytes : Nat) (one : Bool) : Traffic :=
  if d = h then t
  else if one then { t with link1 := t.link1 + ofN bytes }
  else { t with link0 := t.link0 + ofN bytes }

/-- A read of `bytes` of a line by a cluster that misses or bypasses L1; `atHome` when its data came
from the home, with the hit and the bursts saved there (09 R214). -/
def countRead (cl : Option Nat) (die home bytes : Nat) (atHome hit : Bool) (saved : Nat) (s : State) :
    State :=
  match cl with
  | none => s
  | some cl => s.modCluster cl fun c =>
    let t := c.ctr
    let t := if die = home then { t with rdOwn := t.rdOwn + ofN bytes }
             else { t with rdOth := t.rdOth + ofN bytes }
    let t := if atHome then t.link die home bytes (s.viaLink1 die home) else t
    let t := if atHome && hit then { t with lhit := t.lhit + 1 } else t
    let t := if atHome && !hit then { t with csav := t.csav + ofN saved } else t
    { c with ctr := t }

/-- A write of `bytes` by a cluster (09 R214). -/
def countWrite (cl : Option Nat) (die home bytes : Nat) (s : State) : State :=
  match cl with
  | none => s
  | some cl => s.modCluster cl fun c =>
    let t := c.ctr
    let t := if die = home then { t with wrOwn := t.wrOwn + ofN bytes }
             else { t with wrOth := t.wrOth + ofN bytes }
    { c with ctr := t.link die home bytes (s.viaLink1 die home) }

/-- What the home's own read for an atomic or a merge of a cluster counts: a hit in the memory-side cache, the
bursts saved, and `bytes` of reply data (09 R214). -/
def countHome (cl : Option Nat) (die home bytes : Nat) (hit : Bool) (saved : Nat) (s : State) : State :=
  match cl with
  | none => s
  | some cl => s.modCluster cl fun c =>
    let t := c.ctr
    let t := if die = home then { t with rdOwn := t.rdOwn + ofN bytes }
             else { t with rdOth := t.rdOth + ofN bytes }
    let t := t.link die home bytes (s.viaLink1 die home)
    { c with ctr := if hit then { t with lhit := t.lhit + 1 } else { t with csav := t.csav + ofN saved } }

/-! ### Homes, sharers and slices (09 R204, R205) -/

/-- The key of die d's copy of a line. -/
def copyKey (line d : Nat) : Nat := line * 4 + d

/-- The sharer bits of a line, one per die. -/
def State.sharersOf (s : State) (line : Nat) : List Nat :=
  (List.range 4).filter fun d => (FMap.getD s.sharers line 0) / 2 ^ d % 2 == 1

/-- The state with the sharer bits of a line set to a list of dies. -/
def setSharers (line : Nat) (ds : List Nat) (s : State) : State :=
  let v := ds.foldl (fun a d => a + 2 ^ d) 0
  { s with sharers := if v = 0 then FMap.del s.sharers line else FMap.put s.sharers line v }

/-- The line a store goes to in DRAM, if it does. -/
def Store.line? (e : Store) : Option Nat :=
  match e.tgt with
  | .dram pa _ _ _ => some (pa / 128)
  | .spad _ _ _ _ _ => none
  | .lreg _ _ => none
  | .remote _ _ => none
  | .hole => none

/-- The physical address a store goes to in DRAM. -/
def Store.pa (e : Store) : Nat :=
  match e.tgt with
  | .dram pa _ _ _ => pa
  | .spad _ _ _ _ _ => 0
  | .lreg _ _ => 0
  | .remote _ _ => 0
  | .hole => 0

/-- Whether a store's page acts as MCA = 1 and whether it is no-cache. -/
def Store.mca (e : Store) : Bool :=
  match e.tgt with
  | .dram _ m _ _ => m
  | .spad _ _ _ _ _ => true
  | .lreg _ _ => true
  | .remote _ _ => true
  | .hole => true

/-- Whether a store bypasses the slices (09 R203). -/
def Store.nc (e : Store) : Bool :=
  match e.tgt with
  | .dram _ _ n _ => n
  | .spad _ _ _ _ _ => true
  | .lreg _ _ => true
  | .remote _ _ => true
  | .hole => true

/-- A line with a store's bytes. -/
def Store.onto (e : Store) (d : BitVec 1024) : BitVec 1024 := linePut d (e.pa % 128) e.size e.data

/-- Whether two ranges of bytes meet. -/
def meets (a n b m : Nat) : Bool := decide (a < b + m) && decide (b < a + n)

/-- Whether two stores name a common byte of storage. -/
def Store.over (e x : Store) : Bool :=
  match e.tgt, x.tgt with
  | .dram a _ _ _, .dram b _ _ _ => meets a e.size b x.size
  | .spad c a _ _ _, .spad d b _ _ _ => c == d && meets a e.size b x.size
  | .lreg l a, .lreg k b => l == k && a == b
  | .remote k a, .remote j b => k == j && meets a e.size b x.size
  | _, _ => false

/-- Whether a store is one that its die's slice takes before its home does: to a line of an MCA = 0 page, from
a cluster of the die (09 R205). -/
def Store.early (e : Store) : Bool := !e.mca && !e.nc && !e.direct && e.merge == 0

/-- The stores of a die to a line that its slice has taken and that the home has not acknowledged, those the home
has taken first (13 R304). -/
def dieStores (s : State) (die line : Nat) : List Store :=
  let es := s.stores.filter fun e => e.line? == some line && e.die == die && e.early
  sortBy (·.since) (es.filter (·.stage == .home)) ++ sortBy (·.since) (es.filter (·.stage == .slice))

/-- The order of a store that now reaches a stage: after every other. -/
def State.nextSince (s : State) : Nat := s.stores.foldl (fun m e => max m e.since) 0 + 1

/-- The stores to a line that its home has taken, in that order (09 R207). -/
def homeStores (s : State) (line : Nat) : List Store :=
  sortBy (·.since) (s.stores.filter fun e => e.line? == some line && e.stage == .home)

/-- The state with no copy of a line on a die. -/
def dropCopy (line d : Nat) (s : State) : State := { s with slices := FMap.del s.slices (copyKey line d) }

/-- The state with the n-th store changed. -/
def modStore (n : Nat) (f : Store → Store) (s : State) : State :=
  { s with stores := s.stores.map fun e => if e.n = n then f e else e }

/-- Whether a byte of DRAM lies in a line with a poison mark (15 R356). -/
def State.poisoned (s : State) (pa : Nat) : Bool := (FMap.get? s.pkg.poison (pa / 128)).isSome

/-- Bytes rewritten in a line with a poison mark, which goes when all 128 are (15 R356). -/
def cleanPoison (pa n : Nat) (s : State) : State :=
  match FMap.get? s.pkg.poison (pa / 128) with
  | none => s
  | some m =>
    let m' := Nat.lor m (2 ^ (pa % 128) * (2 ^ n - 1))
    { s with pkg := { s.pkg with
        poison := if (List.range 128).all (fun i => m'.testBit i) then FMap.del s.pkg.poison (pa / 128)
                  else FMap.put s.pkg.poison (pa / 128) m' } }

/-- The address under which poison marks of a cluster's scratchpad stand, beyond every address of DRAM (15 R356). -/
def spadMark (cl off : Nat) : Nat := 2 ^ 60 + cl * 2 ^ 21 + off

/-- The home notes whether a line is stored to through a page honoured as CMP (09 R209). -/
def noteCmp (t : Target) (s : State) : State :=
  match t with
  | .dram pa _ _ cmp =>
    s.modLanding (s.homeLanding pa) fun l =>
      { l with cmp := if cmp then (if l.cmp.contains (pa / 128) then l.cmp else (pa / 128) :: l.cmp)
                      else l.cmp.filter (· != pa / 128) }
  | .spad _ _ _ _ _ => s
  | .lreg _ _ => s
  | .remote _ _ => s
  | .hole => s

/-- The home writes bytes to DRAM's current value and marks the memory-side cache's line newer. -/
def homeWrite (pa n v : Nat) (s : State) : State :=
  let s := cleanPoison pa n { s with dram := Memory.write s.dram pa n v }
  if s.inDram pa then mscPut (s.homeLanding pa) (pa / 128) true s else s

/-! ### Scratchpad storage through views (09 R215) is in Operands; here the raw bytes -/

/-- n raw bytes of a cluster's scratchpad. -/
def spadRead (s : State) (cl off n : Nat) : Nat := Memory.read (s.cluster cl).spad off n

/-- A cluster's scratchpad with n raw bytes written. -/
def spadWrite (cl off n v : Nat) (s : State) : State :=
  cleanPoison (spadMark cl off) n (s.modCluster cl fun c => { c with spad := Memory.write c.spad off n v })

/-- The landing register at an offset (09 Table 09-5). -/
def lregRead (s : State) (l off : Nat) : Word :=
  let d := s.landing l
  match off with
  | 0 => d.capt
  | 8 => d.rel
  | 16 => ofN d.pinned.length
  | 24 => d.savw
  | 32 => d.savr
  | 40 => ofN s.pkg.eopra.split
  | _ => 0

/-! ### Copies in the slices (09 R198, R204) -/

/-- The lines of a slice's L2 part, 0.75 MiB, or of its RDC part, 0.25 MiB (09 Table 09-1). -/
def partLines (own : Bool) : Nat := if own then 6144 else 2048

/-- The lines that share a line's part of a die's slice. -/
def sliceMates (line d : Nat) (s : State) : List Nat :=
  (s.slices.filterMap fun e => if e.1 % 4 = d then some (e.1 / 4) else none).filter fun n =>
    n != line && sliceOf (n * 128) == sliceOf (line * 128) &&
      (s.homeDie (n * 128) == d) == (s.homeDie (line * 128) == d)

/-- Die d's copy of a line, put where its part of the slice has room, or in another line's stead. -/
def putCopy (line d : Nat) (v : BitVec 1024) (s : State) : State :=
  let ms := sliceMates line d s
  let s := if ms.length < partLines (s.homeDie (line * 128) == d) then s
    else match victimOf line s.clk ms with
      | none => s
      | some n => dropCopy n d s
  { s with slices := FMap.put s.slices (copyKey line d) v }

/-- The state in which die d shares a line. -/
def shareLine (line d : Nat) (s : State) : State := setSharers line (((s.sharersOf line).filter (· != d)) ++ [d]) s

/-- The home's line with the stores of a die that its slice has and the home has not (09 R205; 13 R304). -/
def fillLine (s : State) (die line : Nat) : BitVec 1024 :=
  ((dieStores s die line).filter (·.stage == .slice)).foldl (fun d e => e.onto d) (homeLine s line)

/-! ### Progress of one store (09 R205; 13 R310, R311) -/

/-- The ranges that stores have gone over, with one more; those it covers go. -/
def patched (ps : List (Nat × Nat)) (o n : Nat) : List (Nat × Nat) :=
  ps.filter (fun q => !(decide (o ≤ q.1) && decide (q.1 + q.2 ≤ o + n))) ++ [(o, n)]

/-- An L1 line with n bytes at an offset stored over. -/
def Line.over (l : Line) (o n v : Nat) : Line :=
  { l with data := linePut l.data o n v, pats := patched l.pats o n }

/-- The gang's L1 line that a store matches on its cluster is updated; hint 1 or 2 invalidates it, and so does a
merge, whose sum only the home has (09 R197, R223). -/
def l1Store (e : Store) (s : State) : State :=
  if e.direct then s
  else
    let tag := e.va.toNat / 128
    s.modCluster e.cl fun c =>
      { c with l1 :=
          if e.nl || e.merge != 0 then c.l1.filter fun l => !(l.gang == e.gang && l.tag == tag)
          else c.l1.map fun l =>
            if l.gang == e.gang && l.tag == tag then l.over (e.va.toNat % 128) e.size e.data else l }

/-- Store n at a stage it has now reached. -/
def moveTo (n : Nat) (st : Stage) (s : State) : State :=
  modStore n (fun e => { e with stage := st, since := s.nextSince }) s

/-- The store n leaves the thread for the L1 write port; a store to scratchpad storage of its own
cluster is performed there (09 Table 09-3; 13 R310). -/
def toPort (n : Nat) (s : State) : State :=
  match s.stores.find? (fun e => e.n == n && e.stage == .issued) with
  | none => s
  | some e =>
    match e.tgt with
    | .spad cl off _ _ _ =>
      if e.cl = cl ∧ !e.direct then
        { spadWrite cl off e.size e.data s with stores := s.stores.filter (·.n != n) }
      else moveTo n .slice s
    | .dram _ _ _ _ => if e.direct then moveTo n .slice s else moveTo n .port (l1Store e s)
    | .lreg _ _ => moveTo n .slice s
    | .remote _ _ => moveTo n .slice s
    | .hole => moveTo n .slice s

/-- The store n reaches its die's slice, whose valid copy takes an MCA = 0 store at once (09 R205). -/
def toSlice (n : Nat) (s : State) : State :=
  match s.stores.find? (fun e => e.n == n && e.stage == .port) with
  | none => s
  | some e =>
    let s := moveTo n .slice s
    match e.line? with
    | none => s
    | some line =>
      if !e.early then s
      else match FMap.get? s.slices (copyKey line e.die) with
        | some d => { s with slices := FMap.put s.slices (copyKey line e.die) (e.onto d) }
        | none => s

/-- The value a merge leaves (09 R223): the integer sum; the float sum is made by the caller's adder. -/
def mergeInt (old v size : Nat) : Nat := (old + v) % 2 ^ (8 * size)

/-- The cluster whose counters a store counts on. -/
def Store.counter (e : Store) : Option Nat := if e.direct then none else some e.cl

/-- The home writes a store it has taken: its value, or the sum of a merge, for which it reads the line (09 R205,
R214, R223). -/
def writeStore (e : Store) (s : State) : State :=
  let line := e.pa / 128
  let r := homeServe line s
  let s := if e.merge = 0 then s
    else countHome e.counter e.die (s.homeDie e.pa) 0 r.1 r.2.1 r.2.2
  let v := if e.merge = 1 then mergeInt (Memory.read s.dram e.pa e.size) e.data e.size
           else if e.merge = 2 then mergeF (Memory.read s.dram e.pa 4) e.data
           else e.data
  modStore e.n (fun e => { e with written := true }) (homeWrite e.pa e.size v (noteCmp e.tgt s))

/-- The stores of a list, in the order in which the home took them, written as far as they may be: under MCA = 0 at
once, otherwise when every invalidation has been acknowledged (09 R205). -/
def writeAll : List Store → State → State
  | [], s => s
  | e :: es, s => if e.acks.isEmpty || (!e.mca && !e.nc) then writeAll es (writeStore e s) else s

/-- What a line's home may write now, written in its order (09 R205, R207). -/
def writeReady (line : Nat) (s : State) : State := writeAll ((homeStores s line).filter (!·.written)) s

/-- Die d's acknowledgement of its invalidations of a line, which it has made. -/
def ackDie (line d : Nat) (s : State) : State :=
  writeReady line
    { s with
      stores := s.stores.map fun e =>
        if e.line? = some line ∧ e.stage = .home then { e with acks := e.acks.filter (· != d) } else e
      aside := s.aside.filter (· != (line, d)) }

/-- The last acknowledged store of a die to a line makes the invalidation that was set aside (13 R304). -/
def asideDue (line d : Nat) (s : State) : State :=
  if s.aside.contains (line, d) && (dieStores s d line).isEmpty then ackDie line d (dropCopy line d s) else s

/-- What the acknowledgement of a store does at its slice: an MCA = 1 store now updates the slice's copy, and a
store that allocates fills one (09 R199, R205). -/
def ackCopy (e : Store) (line : Nat) (s : State) : State :=
  if e.nc || e.direct || e.merge != 0 then s
  else match FMap.get? s.slices (copyKey line e.die) with
    | some d => if e.mca then { s with slices := FMap.put s.slices (copyKey line e.die) (e.onto d) } else s
    | none =>
      if e.la || (homeStores s line).any (!·.written) then s
      else shareLine line e.die (putCopy line e.die (fillLine s e.die line) s)

/-- The state in which die d has set aside its invalidation of a line (13 R304). -/
def setAside (line d : Nat) (s : State) : State :=
  if s.aside.contains (line, d) then s else { s with aside := s.aside ++ [(line, d)] }

/-- One store acknowledged. An invalidation that the home sent its slice before is there first, and has been set aside
for this store (09 R205; 13 R302, R304). -/
def ackOne (e : Store) (s : State) : State :=
  let s := { s with stores := s.stores.filter (·.n != e.n) }
  match e.line? with
  | none => s
  | some line =>
    let late := !e.direct && (homeStores s line).any fun x => decide (x.since < e.since) && x.acks.contains e.die
    let s := if late then setAside line e.die s else s
    asideDue line e.die (ackCopy e line s)

/-- Whether the home has nothing left to do for a store but to acknowledge it. -/
def Store.ready (e : Store) : Bool := e.stage == .home && e.written && e.acks.isEmpty

/-- The home's acknowledgement of store n reaches its slice, after those of the same die to the line that the home
made before it (09 R205; 13 R304). -/
def acknowledge (n : Nat) (s : State) : State :=
  match s.stores.find? (fun e => e.n == n && e.ready) with
  | none => s
  | some e =>
    match e.line? with
    | none => ackOne e s
    | some line =>
      ((homeStores s line).filter fun x => x.ready && x.die == e.die && decide (x.since ≤ e.since)).foldl
        (fun s x => ackOne x s) s

/-- The acknowledgements a home has ready for a line, made in order: the home sends nothing else about the
line to the slice before them (09 R205). -/
def ackLine (line : Nat) (f : Store → Bool) (s : State) : State :=
  ((homeStores s line).filter fun e => e.ready && f e).foldl (fun s e => acknowledge e.n s) s

/-- Whether every invalidation of a line that is still to be acknowledged has been set aside by a die whose own
stores to the line wait for one another's. -/
def asideStuck (line : Nat) (s : State) : Bool :=
  ((homeStores s line).all fun e =>
    e.acks.all (fun d => s.aside.contains (line, d)) && !(e.acks.isEmpty && s.aside.contains (line, e.die))) &&
  !(s.stores.any fun e => e.line? == some line && e.stage == .slice && e.early && s.aside.contains (line, e.die))

/-- Die d acknowledges the invalidation sent for store n once it has made it: while it has MCA = 0 stores to the
line that the home has not acknowledged, it sets it aside (09 R205; 13 R304). Dies that wait for one another so
make theirs together (log 82). -/
def ackStore (n d : Nat) (s : State) : State :=
  match s.stores.find? (fun e => e.n == n && e.stage == .home && e.acks.contains d) with
  | none => s
  | some e =>
    match e.line? with
    | none => s
    | some line =>
      if (dieStores s d line).isEmpty then
        writeReady line (modStore n (fun e => { e with acks := e.acks.filter (· != d) }) (dropCopy line d s))
      else
        let s := setAside line d s
        if asideStuck line s then
          (s.aside.filter fun x => x.1 == line).foldl (fun s x => ackDie line x.2 (dropCopy line x.2 s)) s
        else s

/-- The store n is taken at its home's ordering point (09 R205, R207): every other sharer is to be invalidated, and
every die to which an invalidation is still on its way; merges, no-cache stores and those of landing
cores invalidate the own die's copy as well. A scratchpad store is performed at its target. -/
def takeHome (n : Nat) (s : State) : State :=
  match s.stores.find? (fun e => e.n == n && e.stage == .slice) with
  | none => s
  | some e =>
    match e.tgt with
    | .spad cl off _ _ _ =>
      { spadWrite cl off e.size e.data s with stores := s.stores.filter (·.n != n) }
    | .lreg _ _ => { s with stores := s.stores.filter (·.n != n) }
    | .remote _ _ => { s with stores := s.stores.filter (·.n != n) }
    | .hole => { s with stores := s.stores.filter (·.n != n) }
    | .dram pa _ nc _ =>
      let line := pa / 128
      let keep := !(e.direct || nc || e.merge != 0)
      let sent := (homeStores s line).flatMap (·.acks)
      let others := (List.range 4).filter fun d =>
        !(keep && d == e.die) && ((s.sharersOf line).contains d || sent.contains d)
      let s := setSharers line ((s.sharersOf line).filter fun d => !others.contains d) s
      writeReady line (modStore n (fun x => { x with acks := others }) (moveTo n .home s))

/-- The store n is taken at its home's ordering point, after the acknowledgements that the home has ready for
its line (09 R205, R207). -/
def toHome (n : Nat) (s : State) : State :=
  match s.stores.find? (fun e => e.n == n && e.stage == .slice) with
  | none => s
  | some e =>
    match e.line? with
    | none => takeHome n s
    | some line => takeHome n (ackLine line (fun _ => true) s)

/-! ### Draining stores -/

/-- How far a release makes a store go (09 Table 09-3): 0 issued, 1 the L1 port or own scratchpad, 2 the
own die's slice, 3 the home with every invalidation acknowledged. -/
def Store.level (e : Store) (sc : Scope) : Nat :=
  match sc with
  | .cl => 1
  | .die => if e.mca || e.nc || e.direct then 3 else 2
  | .pkg => 3
  | .sys => 3

/-- Whether two stores take one way from the stage at which the first stands: one thread's, or those of one word
of a wave, to the L1 port; one cluster's to its slice; one die's to the home (13 R304; 09 R218). -/
def Store.oneWay (e x : Store) : Bool :=
  match e.stage with
  | .issued => e.place == x.place || (e.clk == x.clk && e.place.crew == x.place.crew)
  | .port => !x.direct && e.cl == x.cl
  | .slice => if e.direct then x.direct && e.place == x.place else !x.direct && e.die == x.die
  | .home => false

/-- How far a stage is. -/
def Stage.rank : Stage → Nat
  | .issued => 0
  | .port => 1
  | .slice => 2
  | .home => 3

/-- Whether store e goes on before store x: they name a common byte, take one way, and e is ahead (09 R218;
13 R303, R304). -/
def Store.before (e x : Store) : Bool :=
  e.n != x.n && e.over x && e.oneWay x &&
    (decide (x.stage.rank < e.stage.rank) || (x.stage == e.stage && decide (e.since < x.since)))

/-- The invalidations of a line acknowledged as far as they may be, and then the stores to it. -/
def settleHome (line : Nat) (s : State) : State :=
  let s := (homeStores s line).foldl (fun s e => e.acks.foldl (fun s d => ackStore e.n d s) s) s
  (List.range 4).foldl (fun s _ => ackLine line (fun _ => true) s) s

/-- A store that its home has taken, acknowledged: the invalidations are made, for which the home takes the
stores of dies that have set theirs aside (13 R304). -/
def finishStore (n : Nat) (s : State) : State :=
  match s.stores.find? (fun e => e.n == n && e.stage == .home) with
  | none => s
  | some e =>
    match e.line? with
    | none => acknowledge n s
    | some line =>
      let s := settleHome line s
      if s.stores.any (·.n == n) then
        settleHome line ((s.stores.filter fun x => x.line? == some line && x.stage == .slice && x.early).foldl
          (fun s x => takeHome x.n s) s)
      else s

/-- Move store n on to a level, step by step. -/
def stepStore (n level : Nat) (s : State) : State :=
  let s := if 1 ≤ level then toPort n s else s
  let s := if 2 ≤ level then toSlice n s else s
  if 3 ≤ level then finishStore n (toHome n s) else s

/-- Move store n on to a level, behind those that go before it; `k` bounds how long a row of them is. -/
def pushStore : Nat → Nat → Nat → State → State
  | 0, n, level, s => stepStore n level s
  | k + 1, n, level, s =>
    let first : List Store := match s.stores.find? (·.n == n) with
      | some e => s.stores.filter fun x => x.before e
      | none => []
    stepStore n level (first.foldl (fun s x => pushStore k x.n level s) s)

/-- Move every chosen store, and those that go before them, on to their levels. -/
def drain (sel : Store → Bool) (level : Store → Nat) (s : State) : State :=
  (s.stores.filter sel).foldl (fun t e => pushStore s.stores.length e.n (level e) t) s

/-- The stores to a line that its home has taken, or a slice early, completed. -/
def completeLine (line : Nat) (s : State) : State :=
  drain (fun e => e.line? == some line && (e.stage == .home || (e.stage == .slice && e.early))) (fun _ => 3) s

/-- Every copy of a line invalidated, as an atomic, the host or Novilo does it: the stores under way at its home are
completed first (09 R205). -/
def claimLine (line : Nat) (s : State) : State :=
  let s := completeLine line s
  { s with slices := (List.range 4).foldl (fun m d => FMap.del m (copyKey line d)) s.slices
           sharers := FMap.del s.sharers line }

/-! ### Reading -/

/-- Whether w bytes at a may be read from a copy that stores have gone over: none of them met the bytes, or the last
that did covers them all. A copy in which one store stands beside an older one would tear (13 R302). -/
def untorn (ps : List (Nat × Nat)) (a w : Nat) : Bool :=
  match (ps.filter fun q => meets q.1 q.2 a w).getLast? with
  | none => true
  | some q => decide (q.1 ≤ a) && decide (a + w ≤ q.1 + q.2)

/-- Stores over w bytes at a physical address are completed where the bytes would tear (13 R302). -/
def mend (es : List Store) (pa w : Nat) (s : State) : State :=
  if untorn (es.map fun e => (e.pa, e.size)) pa w then s
  else (es.filter fun e => meets e.pa e.size pa w).foldl (fun t e => pushStore s.stores.length e.n 3 t) s

/-- Complete the MCA = 1 stores that the home is making reads of a line wait for (09 R205). -/
def settleLine (line : Nat) (s : State) : State :=
  ((homeStores s line).filter (!·.written)).foldl (fun s e => finishStore e.n s) s

/-- The line a die's slice serves: its copy, or the home's line, which is kept if `alloc`; with the
die's MCA = 0 stores that the slice has and the home has not (09 R198, R205). -/
def sliceLine (cl : Option Nat) (die line bytes : Nat) (alloc : Bool) (s : State) :
    BitVec 1024 × State :=
  let home := s.homeDie (line * 128)
  match FMap.get? s.slices (copyKey line die) with
  | some d => (d, countRead cl die home bytes false false 0 s)
  | none =>
    let s := ackLine line (fun e => e.die == die) (settleLine line s)
    let r := homeServe line s
    let s := countRead cl die home bytes true r.1 r.2.1 r.2.2
    let d := fillLine s die line
    if alloc then (d, shareLine line die (putCopy line die d s)) else (d, s)

/-- The stores of a cluster to a line that have left their threads and that a slice or the home does not yet show;
`copy` where the line is the slice's own copy, which an MCA = 1 store reaches with its acknowledgement (09 R205;
13 R304, R310). -/
def clusterStores (s : State) (cl line : Nat) (copy : Bool) : List Store :=
  let es := s.stores.filter fun e => e.line? == some line && e.cl == cl && !e.direct && e.merge == 0
  sortBy (·.since) (es.filter fun e => e.stage == .home && (!e.written || (copy && e.mca && !e.nc))) ++
  sortBy (·.since) (es.filter fun e => e.stage == .slice && (e.mca || e.nc)) ++
  sortBy (·.since) (es.filter (·.stage == .port))

/-- A line with stores over it. -/
def withStores (es : List Store) (d : BitVec 1024) : BitVec 1024 := es.foldl (fun d e => e.onto d) d

/-- The lines of a cluster's L1: 256 KiB (09 Table 09-1). -/
def l1Lines : Nat := 2048

/-- A line put in front of others in a cache that holds n lines; where it is full, any other goes (09 R196; log 65). -/
def cachePut (n clk : Nat) (x : Line) (ls : List Line) : List Line :=
  x :: (if ls.length < n then ls else ls.eraseIdx ((Config.victim x.tag clk) % ls.length))

/-- A read of w bytes for a cluster through its slice: the line with `own` stores of the cluster over it, and those
stores (09 R198; 13 R302). -/
def slicePath (cl die line pa w bytes : Nat) (alloc own : Bool) (s : State) : (BitVec 1024 × List Store) × State :=
  let mine := fun (s : State) (copy : Bool) => if own then clusterStores s cl line copy else []
  let s := mend (dieStores s die line ++ mine s true) pa w s
  let copy := (FMap.get? s.slices (copyKey line die)).isSome
  let r := sliceLine (some cl) die line bytes alloc s
  let es := mine r.2 copy
  ((withStores es r.1, dieStores r.2 die line ++ es), r.2)

/-- The value w bytes at a physical address have for an agent's load, and the state after the fill; an engine's
reads enter at the slice (`l1` false) (09 R197-R200). -/
def dramLoad (g : Agent) (va : Word) (pa w : Nat) (nc : Bool) (h : Hint) (l1 : Bool) (s : State) :
    Nat × State :=
  let line := pa / 128
  match g.cl with
  | none =>
    let s := settleLine line s
    let r := homeServe line s
    (Memory.read r.2.2.dram pa w, r.2.2)
  | some cl =>
    if nc then
      let s := settleLine line (if l1 then mend (clusterStores s cl line false) pa w s else s)
      let r := homeServe line s
      let s := countRead (some cl) g.die (s.homeDie pa) w true r.1 r.2.1 r.2.2
      (lineGet (withStores (if l1 then clusterStores s cl line false else []) (homeLine s line)) (pa % 128) w, s)
    else
      let tag := va.toNat / 128
      let hit := if l1 then (s.cluster cl).l1.find? (fun l =>
          l.gang == g.gang && l.tag == tag && untorn l.pats (va.toNat % 128) w) else none
      match hit with
      | some l => (lineGet l.data (va.toNat % 128) w, s)
      | none =>
        let fill := l1 && h == .normal
        let r := slicePath cl g.die line pa w (if fill then 128 else w) (h != .la) l1 s
        let s := if l1
          then r.2.modCluster cl fun c =>
            let rest := c.l1.filter fun l => !(l.gang == g.gang && l.tag == tag)
            let x : Line := { gang := g.gang, tag := tag, data := r.1.1, pats := r.1.2.map fun e => (e.pa % 128, e.size) }
            { c with l1 := if fill then cachePut l1Lines s.clk x rest else rest }
          else r.2
        (lineGet r.1.1 (pa % 128) w, s)

/-- The thread's own stores at a virtual address that have not left it (09 R217; 13 R304). -/
def ownOver (s : State) (p : Place) (va : Word) (w : Nat) : List Store :=
  s.stores.filter fun e =>
    e.place == p && (e.stage == .issued || (e.direct && !e.written)) && meets e.va.toNat e.size va.toNat w

/-- The thread's own stores that have not left it, over a value read at the same virtual address
(09 R217; 13 R304). -/
def ownStores (s : State) (p : Place) (va : Word) (w v : Nat) : Nat :=
  (ownOver s p va w).foldl (fun v e => overlay va.toNat w v e.va.toNat e.size e.data) v

/-- A thread's merges over bytes it is about to read are performed, and so are its stores where the bytes would
tear (13 R302, R304). -/
def mendOwn (p : Place) (va : Word) (w : Nat) (s : State) : State :=
  let torn := !untorn ((ownOver s p va w).map fun e => (e.va.toNat, e.size)) va.toNat w
  drain (fun e => e.place == p && meets e.va.toNat e.size va.toNat w &&
    (e.merge != 0 || (torn && (e.stage == .issued || e.direct)))) (fun _ => 3) s

/-! ### Releases and acquires (09 R206) -/

/-- The acknowledgements that homes have ready for a die (13 R310). -/
def ackReady (die : Nat) (s : State) : State :=
  (s.stores.filter fun e => e.ready && e.die == die && !e.direct).foldl (fun s e => acknowledge e.n s) s

/-- An acquire of an agent at a scope. At .die or wider it invalidates every L1 line of the gang on the cluster, and
what homes have written for stores of the die stands in its slices (09 R206; 13 R310); for a landing core, which
reads at the homes, they take what the slices of its die have (13 R306). -/
def acquireAt (g : Agent) (sc : Scope) (s : State) : State :=
  match sc, g.cl with
  | .cl, _ => s
  | _, none => drain (fun e => e.die == g.die && e.stage == .slice && e.early) (fun _ => 3) s
  | _, some cl => (ackReady g.die s).modCluster cl fun c => { c with l1 := c.l1.filter (·.gang != g.gang) }

end Sys2Proof.Machine
end

