-- ==== Sys2Proof/Machine/Walk.lean ====
section
/-!
DEFINITION. The page walk on the memory path, the translation caches, the permission checks and the route of
an access (15 R340-R343; 09 R200, R217; 17 R379).
-/

namespace Sys2Proof.Machine

/-! ### The walk (15 R340-R342) -/

/-- How a walk ends: a leaf entry, where it stands and how many levels above level 3 it is; or a
failure with its reason and level. -/
inductive Walk
  | leaf (pte : Word) (at_ : Nat) (up : Nat)
  | fail (reason level : Nat)
  deriving DecidableEq, Repr

/-- Whether a leaf entry's frame and attributes agree (09 R201; 15 R341). -/
def State.frameOk (s : State) (pte : Word) (up : Nat) : Bool :=
  let frame := wbits pte 51 13 * 8192
  let size := 2 ^ (16 + 10 * up)
  let home := wbits pte 10 8
  let last := frame + size - 1
  if frame % size ≠ 0 then false
  else if last < s.interSize then home == 0
  else match s.pinnedDie? frame, s.pinnedDie? last with
    | some d, some e => d == e && home == 4 + d
    | some _, none => false
    | none, _ =>
      if frame < s.interSize then false else home == 0 && wbit pte 63

/-- Whether a valid entry at a level is well formed (15 R341). -/
def State.entryOk (s : State) (pte : Word) (level : Nat) : Bool :=
  let leaf := wbit pte 7
  if wbits pte 62 52 ≠ 0 then false
  else if leaf then
    if level = 0 then false
    else !(wbit pte 2 && !wbit pte 1) && s.frameOk pte (3 - level)
  else if level = 3 then false
  else wbits pte 12 8 == 0 && wbits pte 6 1 == 0 && !wbit pte 63

/-- The walk from a table at a level, with the levels left (15 R340, R341). -/
def State.walkFrom (s : State) (va : Word) : Nat → Nat → Nat → Walk
  | 0, _, level => .fail 1 level
  | n + 1, table, level =>
    let idx := wbits va (55 - 10 * level) (46 - 10 * level)
    let at_ := table + 8 * idx
    let e := ofN (Memory.read s.dram at_ 8)
    if !wbit e 0 then .fail 0 level
    else if !s.entryOk e level then .fail 1 level
    else if wbit e 7 then .leaf e at_ (3 - level)
    else s.walkFrom va n (wbits e 51 13 * 8192) (level + 1)

/-- The walk from a gang's root (15 R340). -/
def State.walk (s : State) (root : Nat) (va : Word) : Walk := s.walkFrom va 4 root 0

/-- A read of a line at its home that no slice sees: after the stores that the home is making reads wait for
(09 R198, R205, R209). -/
def readHome (line : Nat) (s : State) : State :=
  if s.inDram (line * 128) then (homeServe line (settleLine line s)).2.2 else s

/-- Where the entry for va stands in a table at a level (15 R340). -/
def walkEntry (va : Word) (table level : Nat) : Nat := table + 8 * wbits va (55 - 10 * level) (46 - 10 * level)

/-- The table that the entry at an address leads on to, if it is a pointer (15 R340). -/
def State.nextTable (s : State) (at_ level : Nat) : Option Nat :=
  let e := ofN (Memory.read s.dram at_ 8)
  if wbit e 0 && s.entryOk e level && !wbit e 7 then some (wbits e 51 13 * 8192) else none

/-- What follows the read of an entry: nothing where it lies in a line with a poison mark, or the rest of the walk. -/
def walkOn (rest : Nat → State → Bool × State) (at_ level : Nat) (s : State) : Bool × State :=
  if s.poisoned at_ then (true, s)
  else match s.nextTable at_ level with
    | some t => rest t s
    | none => (false, s)

/-- The entries of a walk read at their homes, down to the one at which it ends; whether one of them lies in a line
with a poison mark (15 R340, R356; 09 R200). -/
def walkReads (va : Word) : Nat → Nat → Nat → State → Bool × State
  | 0, _, _, s => (false, s)
  | n + 1, table, level, s =>
    walkOn (fun t s => walkReads va n t (level + 1) s) (walkEntry va table level) level
      (readHome (walkEntry va table level / 128) s)

/-- The state after the reads of a walk from a gang's root. -/
def walked (root : Nat) (va : Word) (s : State) : State := (walkReads va 4 root 0 s).2

/-- What an access needs of a page. -/
inductive Need | read | write | atomic | exec
  deriving DecidableEq, Repr

/-- Table 15-4's access code. -/
def Need.code : Need → Nat
  | .read => 0
  | .write => 1
  | .exec => 2
  | .atomic => 3

/-- Whether an access stores. -/
def Need.stores : Need → Bool
  | .read => false
  | .exec => false
  | .write => true
  | .atomic => true

/-- Whether a firmware-column core's firewall lists n bytes at an address, in one window (17 R379). -/
def State.inFirewall (s : State) (core a n : Nat) : Bool :=
  s.pkg.eopra.firewall.any fun w => w.1 == core && decide (w.2.1 ≤ a) && decide (a + n ≤ w.2.1 + w.2.2)

/-- Whether an access returns what it finds: a load, an ATOM or a CAS (17 R379; log 88). -/
def Need.reads : Need → Bool
  | .read => true
  | .exec => false
  | .write => false
  | .atomic => true

/-- Whether a firmware-column core's firewall lists w bytes of a physical window, whose addresses nothing translates
(17 R379; 01 R26). -/
def State.columnWindow (s : State) (g : Agent) (a : Word) (w : Nat) : Bool :=
  match g.col with
  | none => true
  | some c => s.inFirewall c a.toNat w

/-- Where an access of w bytes to the window region goes; the firewall bounds what the firmware column reaches and
keeps it from reading a share's bytes (01 R24-R28; 17 R379). An own-cluster access by a thread whose gang holds no share
of the cluster faults (log 89). -/
def windowRoute (s : State) (g : Agent) (a : Word) (w : Nat) (need : Need) : Route :=
  match windowOf a with
  | .none => .bad Cause.access
  | .own o =>
    match g.cl, s.share? g.gang g.rank with
    | some cl, some sh => if sh.cl = cl then shareRoute sh o w else .bad Cause.access
    | _, _ => .bad Cause.access
  | .rank k o =>
    match s.share? g.gang k with
    | none => .bad Cause.access
    | some sh => if s.live sh || (g.rank == k && g.cl == some sh.cl) then shareRoute sh o w else .held
  | .phys c o =>
    if g.user then .bad Cause.access
    else
      let view := o / 0x200000
      match viewBytes view (o % 0x200000) w with
      | none => .bad Cause.access
      | some (b, n) =>
        if b + n ≤ 0x200000 then
          if !s.columnWindow g a w then .bad Cause.access
          else match s.byteHolder c b with
            | some sh =>
              if g.col.isSome && need.reads then .bad Cause.access
              else .to (.spad c b view sh.gang sh.rank)
            | none => .to (.spad c b view 0 0)
        else .bad Cause.access

/-- The permission checks of a page (09 R217, R220; 05 R99). -/
def permits (pte : Word) (need : Need) (user : Bool) : Bool :=
  (!user || wbit pte 4) &&
  (match need with
   | .read => wbit pte 1
   | .write => wbit pte 2
   | .atomic => wbit pte 1 && wbit pte 2
   | .exec => wbit pte 3 && !wbit pte 63)

/-- The physical address of va through a leaf (15 R340). -/
def physOf (pte : Word) (up : Nat) (va : Word) : Nat :=
  wbits pte 51 13 * 8192 + va.toNat % 2 ^ (16 + 10 * up)

/-- Whether a cached translation covers va for a gang in a slice. -/
def Tlb.hits (e : Tlb) (die slice gang : Nat) (va : Word) : Bool :=
  e.die == die && e.slice == slice && e.gang == gang &&
    decide (e.va = va.toNat / 2 ^ (16 + 10 * e.up))

/-- An entry with A set, and D for a store (15 R342). -/
def marked (pte : Word) (d : Bool) : Word := setBit (if d then setBit pte 6 true else pte) 5 true

/-- The stores under way that name bytes of an entry: any of them may reach the home between a walk and its CAS. -/
def entryStores (at_ : Nat) (s : State) : List Store :=
  s.stores.filter fun e => e.line? == some (at_ / 128) && e.stage != .issued && meets e.pa e.size at_ 8

/-- What reaches an entry's home between the j-th walk of a clk and its CAS: a store under way to it, or nothing, by a
free choice (15 R342; log 20). -/
def entryRace (j at_ : Nat) (s : State) : State :=
  match (entryStores at_ s)[Config.entryRace s.clk at_ j]? with
  | some e => drain (fun x => x.n == e.n) (fun _ => 3) s
  | none => s

/-- The CAS of a walker at an entry's home, where the entry is still as the walker read it: every copy of its line is
invalidated (15 R342). -/
def markEntry (at_ : Nat) (e : Word) (s : State) : State :=
  homeWrite at_ 8 e.toNat (claimLine (at_ / 128) (readHome (at_ / 128) s))

/-- The entry a leaf is used with after the j-th walk's CAS, where it needs one; none where the CAS fails, since the
entry at the home is no longer what the walker read (15 R342). -/
def casEntry (j at_ : Nat) (pte : Word) (d : Bool) (s : State) : Option Word × State :=
  let e := marked pte d
  if e = pte then (some pte, s)
  else
    let s := completeLine (at_ / 128) (entryRace j at_ s)
    if ofN (Memory.read s.dram at_ 8) = pte then (some e, markEntry at_ e s) else (none, s)

/-- What a walk that is to serve an access comes to. -/
inductive Filled
  | ok (pte : Word) (up : Nat)
  | fail (reason level : Nat)
  /-- An entry it would use lies in a line with a poison mark (15 R356). -/
  | bad
  deriving DecidableEq, Repr

/-- The translation root of a gang (15 R340). -/
def State.rootOf (s : State) (gang : Nat) : Nat :=
  match s.gang? gang with
  | some x => x.root
  | none => 0

/-- What a leaf's CAS leaves of a walk: the entry used, or none where the CAS fails. -/
def casWalk (up : Nat) (r : Option Word × State) : Option Filled × Nat × State :=
  match r.1 with
  | some e => (some (.ok e up), up, r.2)
  | none => (none, up, r.2)

/-- The end of a walk whose entries have been read: where it ends, with its CAS; none where the CAS fails. -/
def walkEnd (j : Nat) (need : Need) (w : Walk) (s : State) : Option Filled × Nat × State :=
  match w with
  | .fail reason level => (some (.fail reason level), 0, s)
  | .leaf pte at_ up => casWalk up (casEntry j at_ pte (need.stores && wbit pte 2) s)

/-- A walk whose entries have been read ends; where one lies in a line with a poison mark, none is used. -/
def walkRead (j root : Nat) (va : Word) (need : Need) (r : Bool × State) : Option Filled × Nat × State :=
  if r.1 then (some .bad, 0, r.2) else walkEnd j need (r.2.walk root va) r.2

/-- One walk from the root, with its CAS; none where the CAS fails. -/
def walkOnce (g : Agent) (j : Nat) (va : Word) (need : Need) (s : State) : Option Filled × Nat × State :=
  walkRead j (s.rootOf g.gang) va need (walkReads va 4 (s.rootOf g.gang) 0 s)

/-- A walk looked at, and where its CAS has failed one more (15 R342). -/
def walkAgain (g : Agent) (va : Word) (need : Need) (r : Option Filled × Nat × State) : Option Filled × Nat × State :=
  match r.1 with
  | some _ => r
  | none => walkOnce g 1 va need r.2.2

/-- A walk, and where its CAS fails one more (15 R342). -/
def walkTwice (g : Agent) (va : Word) (need : Need) (s : State) : Option Filled × Nat × State :=
  walkAgain g va need (walkOnce g 0 va need s)

/-- What the walks for an access come to: a leaf enters the slice's translation cache, and a second failed CAS is
reported as contended (15 R342). -/
def fillWith (g : Agent) (die slice : Nat) (va : Word) (r : Option Filled × Nat × State) : Filled × State :=
  match r.1 with
  | some (.ok pte up) =>
    let e : Tlb := { die := die, slice := slice, gang := g.gang, va := va.toNat / 2 ^ (16 + 10 * up),
                     up := up, pte := pte }
    (.ok pte up, { r.2.2 with tlb := e :: r.2.2.tlb })
  | some x => (x, r.2.2)
  | none => (.fail 2 (3 - r.2.1), r.2.2)

/-- A walk that fills the slice's translation cache (15 R342). -/
def walkFill (g : Agent) (die slice : Nat) (va : Word) (need : Need) (s : State) : Filled × State :=
  fillWith g die slice va (walkTwice g va need s)

/-- The state without a cached translation of va. -/
def dropTlbOf (die slice gang : Nat) (va : Word) (s : State) : State :=
  { s with tlb := s.tlb.filter fun e => !e.hits die slice gang va }

/-- Whether a physical address lies in the scratchpad block of a gang's save area (15 R353). -/
def State.saveSpad (s : State) (pa : Nat) : Bool :=
  (FMap.vals s.gangs).any fun x =>
    let o := pa - (x.desc.save + 0x10000)
    x.desc.save != 0 && decide (x.desc.save + 0x10000 ≤ pa) &&
      decide (o < x.desc.ranks * 0x800000) && decide (0x600000 ≤ o % 0x800000)

/-- The firewall of the firmware column (17 R379): its accesses of w bytes stay inside the listed windows and read
no saved scratchpad. No descriptor bit authorises debugging (03 Table 03-8; log 51). -/
def State.firewall (s : State) (g : Agent) (need : Need) (pa w : Nat) : Bool :=
  match g.col with
  | none => true
  | some c => s.inFirewall c pa w && !(need.reads && (s.saveSpad pa || s.saveSpad (pa + w - 1)))

/-- The route of a translated access of w bytes after its walk (09 R217; 13 R317 step 3). -/
def routeOf (s : State) (g : Agent) (need : Need) (w : Nat) (va : Word) (pte : Word) (up : Nat) : Route :=
  if permits pte need g.user then
    let pa := physOf pte up va
    if !s.firewall g need pa w then .bad Cause.access
    else if s.inDram pa && s.pkg.fenced.contains (s.homeDie pa) then .bad Cause.dieFence
    else .to (s.targetOf pa pte)
  else .bad Cause.access

/-- The route of an access of w bytes by the walk made for it (15 R342, R356). -/
def walkRoute (g : Agent) (va : Word) (w : Nat) (need : Need) (r : Filled × State) : Route × State :=
  match r.1 with
  | .ok pte up => (routeOf r.2 g need w va pte up, r.2)
  | .fail reason level => (.missed reason level, r.2)
  | .bad => (.bad Cause.dataError, r.2)

/-- Translation of an access of w bytes at the slice of its die (09 R198; 15 R342, R343). -/
def translate (g : Agent) (va : Word) (w : Nat) (need : Need) (s : State) : Route × State :=
  let slice := sliceOf va.toNat
  match s.tlb.find? (·.hits g.die slice g.gang va) with
  | some e =>
    if permits e.pte need g.user && (!need.stores || wbit e.pte 6) then
      (routeOf s g need w va e.pte e.up, s)
    else walkRoute g va w need (walkFill g g.die slice va need (dropTlbOf g.die slice g.gang va s))
  | none => walkRoute g va w need (walkFill g g.die slice va need s)

/-- Where an access of w bytes at a goes: the alignment and canonical checks, the window checks, or the
translation (09 R217; 01 R22, R26). `align` is the size the address must be a multiple of. -/
def route (g : Agent) (a : Word) (w : Nat) (need : Need) (s : State) : Route × State :=
  if !canonical a || a.toNat % w ≠ 0 then (.bad Cause.access, s)
  else if inWindow a then
    if need = .exec then (.bad Cause.access, s)
    else match windowRoute s g a w need with
      | .to (.spad cl off view gang rank) =>
        if s.pkg.fenced.contains (cl / 48) then (.bad Cause.dieFence, s)
        else (.to (.spad cl off view gang rank), s)
      | r => (r, s)
  else
    match translate g a w need s with
    | (.to .hole, s') => (.bad Cause.access, s')
    | (.to (.remote _ _), s') => (.bad Cause.access, s')
    | (.to (.lreg l o), s') =>
      if s'.pkg.fenced.contains (l / 2) then (.bad Cause.dieFence, s')
      else if w = 8 && (need == .read || need == .write) then (.to (.lreg l o), s') else (.bad Cause.access, s')
    | r => r

end Sys2Proof.Machine
end

