-- ==== Sys2Proof/Machine/Access.lean ====
section
/-!
DEFINITION. Accesses of threads and engines: the scratchpad views (09 R215; 06 R136-R138), loads and
stores with their checks, page faults and waits (09 R217; 15 R344), the loads a thread has in flight
and the stores it has made (09 R218; 13 R303).
-/

namespace Sys2Proof.Machine

/-! ### code8 and the views -/

/-- Entry i of a decode table, as the signed value it holds; a missing table is all 0 (06 R135). -/
def decodeEntry (t : List (BitVec 16)) (i : Nat) : Int := ((t[i]?).getD 0).toInt

/-- One step of the search of encode8 for each power of two from 2^(n-1) down (06 R137). -/
def encodeSearch (t : List (BitVec 16)) (v : Int) : Nat → Nat → Nat
  | 0, i => i
  | n + 1, i => encodeSearch t v n (if decodeEntry t (i + 2 ^ n) ≤ v then i + 2 ^ n else i)

/-- encode8 (06 R137). -/
def encode8 (t : List (BitVec 16)) (v : Int) : Nat :=
  let i := encodeSearch t v 8 0
  if i < 255 ∧ v - decodeEntry t i > decodeEntry t (i + 1) - v then i + 1 else i

/-- decode8 (06 R136), as 16 bits. -/
def decode8 (t : List (BitVec 16)) (c : Nat) : Nat := ((t[c]?).getD 0).toNat

/-- The decode table of a share; all 0 where there is none. -/
def State.decodeOf (s : State) (g r : Nat) : List (BitVec 16) :=
  match s.share? g r with
  | some sh => sh.decode
  | none => []

/-- n elements of a bit string of element width w, each through a function to width w'. -/
def mapElems (n w w' : Nat) (f : Nat → Nat) (v : Nat) : Nat :=
  (List.range n).foldl (fun acc i => acc + (f (v / 2 ^ (w * i) % 2 ^ w) % 2 ^ w') * 2 ^ (w' * i)) 0

/-- An integer's low w bits. -/
def lowBits (v : Int) (w : Nat) : Nat := (v % (2 : Int) ^ w).toNat

/-- The w bytes a view gives for storage bytes st (09 Table 09-6). -/
def viewRead (t : List (BitVec 16)) (view w st : Nat) : Nat :=
  match view with
  | 0 => st
  | 1 => mapElems (w / 2) 8 16 (fun b => lowBits (sext b 8) 16) st
  | 2 => mapElems (w / 2) 8 16 (decode8 t) st
  | _ => mapElems (w / 4) 16 32 widenBf16 st

/-- The storage bytes a view stores for w bytes v (09 Table 09-6). -/
def viewWrite (t : List (BitVec 16)) (view w v : Nat) : Nat :=
  match view with
  | 0 => v
  | 1 => mapElems (w / 2) 16 8 (fun b => lowBits (sat (sext b 16) 8) 8) v
  | 2 => mapElems (w / 2) 16 8 (fun b => encode8 t (sext b 16)) v
  | _ => mapElems (w / 4) 32 16 bf16Rne v

/-- Storage bytes of w bytes of a view. -/
def viewSize (view w : Nat) : Nat := if view = 0 then w else w / 2

/-! ### Reading and writing a target -/

/-- Perform what stores of a cluster or place stand before a read of a scratchpad (13 R304, R310). -/
def settleSpad (cl off n : Nat) (from_ : Option Nat) (s : State) : State :=
  drain (fun e =>
    match e.tgt with
    | .spad c o _ _ _ =>
      c == cl && decide (o < off + n) && decide (off < o + e.size) && some e.cl == from_ &&
        e.stage != .issued
    | .dram _ _ _ _ => false
    | .lreg _ _ => false
    | .remote _ _ => false
    | .hole => false) (fun _ => 3) s

/-- The w bytes at a target for an agent, without its own undelivered stores; `l1` false for an engine, whose reads
enter at the slice (09 R200). -/
def readTarget (g : Agent) (va : Word) (t : Target) (w : Nat) (h : Hint) (l1 : Bool) (s : State) : Nat × State :=
  match t with
  | .dram pa _ nc _ => dramLoad g va pa w nc h l1 s
  | .spad cl off view gang rank =>
    let s := settleSpad cl off (viewSize view w) g.cl s
    (viewRead (s.decodeOf gang rank) view w (spadRead s cl off (viewSize view w)), s)
  | .lreg l o => ((lregRead s l o).toNat, s)
  | .remote _ _ => (0, s)
  | .hole => (0, s)

/-- What an engine's or thread's access comes to. -/
inductive Got
  | val (v : Nat)
  | bad (cause : Nat)
  | missed (reason level : Nat)
  | held
  deriving DecidableEq, Repr

/-- A data error in the bytes an access would use (15 R356). -/
def dataBad (s : State) (t : Target) : Bool :=
  match t with
  | .dram pa _ _ _ => s.poisoned pa
  | .spad cl off _ _ _ => s.poisoned (spadMark cl off)
  | .lreg _ _ => false
  | .remote _ _ => false
  | .hole => false

/-- An engine's read of w bytes (copies, streams, the bank, MREQ), which no landing register takes (09 R213). -/
def engineRead (g : Agent) (va : Word) (w : Nat) (s : State) : Got × State :=
  match route g va w .read s with
  | (.bad c, s) => (.bad c, s)
  | (.missed r l, s) => (.missed r l, s)
  | (.held, s) => (.held, s)
  | (.to (.lreg _ _), s) => (.bad Cause.access, s)
  | (.to t, s) =>
    if dataBad s t then (.bad Cause.dataError, s)
    else
      let r := readTarget g va t w .nl false s
      (.val r.1, r.2)

/-- An engine's write of w bytes, performed at .pkg or at the target scratchpad (10 R239; 12 R284); the
issuing gang's L1 lines on the cluster are updated. -/
def engineWrite (g : Agent) (p : Place) (va : Word) (w v : Nat) (merge : Nat) (s : State) : Got × State :=
  match route g va w (if merge = 0 then .write else .atomic) s with
  | (.bad c, s) => (.bad c, s)
  | (.missed r l, s) => (.missed r l, s)
  | (.held, s) => (.held, s)
  | (.to (.lreg _ _), s) => (.bad Cause.access, s)
  | (.to t, s) =>
    let view := match t with
      | .spad _ _ view _ _ => view
      | .dram _ _ _ _ => 0
      | .lreg _ _ => 0
      | .remote _ _ => 0
      | .hole => 0
    let data := match t with
      | .spad _ _ view gang rank => viewWrite (s.decodeOf gang rank) view w v
      | .dram _ _ _ _ => v
      | .lreg _ _ => v
      | .remote _ _ => v
      | .hole => v
    let n := s.reqCtr
    let e : Store :=
      { n := n, place := p, gang := g.gang, cl := g.cl.getD 0, die := g.die,
        direct := g.cl.isNone, va := va, tgt := t, size := viewSize view w,
        data := data % 2 ^ (8 * viewSize view w), nl := false, merge := merge, stage := .issued,
        written := false, acks := [], la := false, clk := s.clk, since := s.nextSince }
    let s := { s with stores := s.stores ++ [e], reqCtr := n + 1 }
    let s := match t with
      | .dram pa _ _ _ => countWrite g.cl g.die (s.homeDie pa) w s
      | .spad _ _ _ _ _ => s
      | .lreg _ _ => s
      | .remote _ _ => s
      | .hole => s
    (.val 0, drain (fun x => x.n == n) (fun _ => 3) s)

/-! ### Page faults (15 R344) -/

/-- The cluster whose pager cores take a fault of an agent: its own, or for a landing core the cluster
that holds rank 0 of the gang (15 R344). -/
def State.faultCluster (s : State) (g : Agent) : Nat :=
  match g.cl with
  | some cl => cl
  | none =>
    match s.share? g.gang 0 with
    | some sh => sh.cl
    | none => 0

/-- A failed walk waits for its token (15 R344). -/
def addMiss (g : Agent) (a : Asker) (va : Word) (need : Need) (reason level : Nat) (s : State) : State :=
  { s with misses := s.misses ++
      [{ cl := s.faultCluster g, asker := a, va := va, access := need.code, reason := reason,
         level := level, user := g.user, gang := g.gang, rank := g.rank, st := .fresh }] }

/-- The failed walk of an asker that stands, if any. -/
def State.missOf (s : State) (a : Asker) : Option Miss := s.misses.find? (·.asker == a)

/-- The state without an asker's failed walks. -/
def dropMiss (a : Asker) (s : State) : State := { s with misses := s.misses.filter (·.asker != a) }

/-! ### A thread's accesses -/

/-- Whether the present turn leaves requests to later turns (log 1, log 81). -/
def State.split (s : State) : Bool :=
  match s.turn with
  | .issue _ b => b
  | .tick => false
  | .resume _ => false
  | .act _ => false
  | .move _ => false

/-- The value a thread's load of w bytes takes at a target, with its own stores (09 R217; 13 R302). -/
def threadRead (p : Place) (va : Word) (t : Target) (w : Nat) (h : Hint) (s : State) : Nat × State :=
  let r := readTarget (s.agent p) va t w h true (mendOwn p va w s)
  match t with
  | .dram _ _ _ _ => (ownStores r.2 p va w r.1, r.2)
  | .spad _ _ _ _ _ => (ownStores r.2 p va w r.1, r.2)
  | .lreg _ _ => r
  | .remote _ _ => r
  | .hole => r

/-- How a loaded value is placed in its register (09 R217). -/
def extend (size : Nat) (signed : Bool) (v : Nat) : Word :=
  if signed then ofI (sext v (8 * size)) else ofN v

/-- The new value of an atomic (09 R222): 4 ADD, 5 MIN, 6 MAX, 7 MINU, 8 MAXU, 9 AND, 10 OR, 11 XOR,
12 SWAP, 13 CAS; none where nothing is written. -/
def atomNew (op size old v expect : Nat) : Option Nat :=
  let w := 8 * size
  match op with
  | 4 => some ((old + v) % 2 ^ w)
  | 5 => some (if sext old w ≤ sext v w then old else v)
  | 6 => some (if sext v w ≤ sext old w then old else v)
  | 7 => some (min old v)
  | 8 => some (max old v)
  | 9 => some (Nat.land old v)
  | 10 => some (Nat.lor old v)
  | 11 => some (Nat.xor old v)
  | 12 => some v
  | _ => if old = expect then some v else none

/-- A gang's L1 line on a cluster with n bytes at a virtual address stored over. -/
def l1Over (cl : Option Nat) (gang : Nat) (va : Word) (n v : Nat) (s : State) : State :=
  match cl with
  | some c => s.modCluster c fun x =>
      { x with l1 := x.l1.map fun l =>
          if l.gang == gang && l.tag == va.toNat / 128 then l.over (va.toNat % 128) n v else l }
  | none => s

/-- Whether a store to a line stands on the way that an atomic of a cluster, or of a landing core of a die, takes to the
home: at its L1 port, or past its slice (13 R303, R304). -/
def Store.aheadOf (e : Store) (cl : Option Nat) (die : Nat) : Bool :=
  (e.stage == .port && some e.cl == cl) || (e.stage == .slice && e.die == die && e.direct == cl.isNone)

/-- An atomic or CAS performed at its home or scratchpad as one step: the old value (09 R207, R222). It
invalidates every copy of the line. A CAS sends two operands (09 R214; log 92). -/
def atomPerform (cl : Option Nat) (die gang : Nat) (op : Nat) (va : Word) (t : Target) (size v expect : Nat)
    (s : State) : Nat × State :=
  match t with
  | .dram pa _ _ _ =>
    let line := pa / 128
    let s := drain (fun e => e.line? == some line && e.aheadOf cl die) (fun _ => 3) s
    let r := homeServe line (completeLine line s)
    let s := countWrite cl die (r.2.2.homeDie pa) (if op = 13 then 2 * size else size) r.2.2
    let s := countHome cl die (s.homeDie pa) size r.1 r.2.1 s
    let old := Memory.read s.dram pa size
    let s := match atomNew op size old v expect with
      | some new => l1Over cl gang va size new (homeWrite pa size new (noteCmp t (claimLine line s)))
      | none => s
    (old, s)
  | .spad c off _ _ _ =>
    let s := settleSpad c off size cl s
    let old := spadRead s c off size
    match atomNew op size old v expect with
    | some new => (old, spadWrite c off size new s)
    | none => (old, s)
  | .lreg _ _ => (0, s)
  | .remote _ _ => (0, s)
  | .hole => (0, s)

/-- The thread at p has acquired: its releases pass on the stores made before now (13 R308). -/
def noteAcquire (p : Place) (s : State) : State := s.modThread p fun t => { t with acq := s.reqCtr }

/-- Whether a store is one of another thread that an acquire of the thread at p, made when the next request had
the number n, may have brought before p's release: made before, and at its cluster's L1 port or beyond, or taken
early by the slice of the die (13 R306, R308). -/
def passedOn (p : Place) (n : Nat) (e : Store) : Bool :=
  decide (e.n < n) && e.stage != .issued && !e.direct &&
    (some e.cl == p.cluster? || (e.die == p.die && e.early && (e.stage == .slice || e.stage == .home)))

/-- Perform one access in flight of the thread at p, if it has not been (09 R218, R222). An atomic is an acquire and a
release at once: what happens before the store it may read is performed at its scope (13 R308). -/
def performAccess (p : Place) (a : Access) (s : State) : State :=
  match a.val with
  | some _ => s
  | none =>
    let g := s.agent p
    let r : Word × State :=
      match a.kind with
      | .load size signed =>
        let r := threadRead p a.va a.tgt size a.hint s
        (extend size signed r.1, r.2)
      | .atom op size =>
        let s := drain (fun e => e.merge == 0 && passedOn p s.reqCtr e) (fun e => e.level a.scope) s
        let r := atomPerform g.cl g.die g.gang op a.va a.tgt size (a.opnd.toNat % 2 ^ (8 * size))
          (a.expect.toNat % 2 ^ (8 * size)) s
        (extend size true r.1, noteAcquire p (acquireAt g a.scope r.2))
    r.2.modThread p fun t =>
      { t with loads := t.loads.map fun x => if x.n = a.n then { x with val := some r.1 } else x }

/-- Land a performed access in its register, after any older write of it (02 R59, R61). -/
def landAccess (p : Place) (n : Nat) (s : State) : State :=
  match (s.thread p).loads.find? (·.n == n) with
  | none => s
  | some a =>
    match a.val with
    | none => s
    | some v => writeReg p 0 a.file a.reg v (s.modThread p fun t =>
        { t with loads := t.loads.filter (·.n != n) })

/-- Whether two targets share storage. -/
def Target.meets (t : Target) (n : Nat) (u : Target) (m : Nat) : Bool :=
  match t, u with
  | .dram a _ _ _, .dram b _ _ _ => Machine.meets a n b m
  | .spad c a v _ _, .spad d b w _ _ => c == d && Machine.meets a (viewSize v n) b (viewSize w m)
  | .lreg l a, .lreg k b => l == k && a == b
  | .remote k a, .remote j b => k == j && Machine.meets a n b m
  | _, _ => false

/-- The size of an access. -/
def Access.size (a : Access) : Nat :=
  match a.kind with
  | .load n _ => n
  | .atom _ n => n

/-- Whether an access in flight touches bytes of another of the same thread (13 R303). -/
def Access.touches (a : Access) (va : Word) (t : Target) (w : Nat) : Bool :=
  meets a.va.toNat a.size va.toNat w || a.tgt.meets a.size t w

/-- Whether an access is an ATOM or a CAS. -/
def Access.atomic (a : Access) : Bool :=
  match a.kind with
  | .atom _ _ => true
  | .load _ _ => false

/-- Perform the accesses of the thread at p older than the n-th that touch the same bytes. -/
def performOlder (p : Place) (x : Access) (s : State) : State :=
  ((s.thread p).loads.filter fun a => decide (a.n < x.n) && a.touches x.va x.tgt x.size).foldl
    (fun s a => performAccess p a s) s

/-- Perform and land the n-th access of a thread. -/
def settleAccess (p : Place) (n : Nat) (s : State) : State :=
  match (s.thread p).loads.find? (·.n == n) with
  | none => s
  | some a => landAccess p n (performAccess p a (performOlder p a s))

/-- Perform and land every access of the thread at p, oldest first. -/
def forceLoads (p : Place) (s : State) : State :=
  (s.thread p).loads.foldl (fun s a => settleAccess p a.n s) s

/-- Perform and land the atomics in flight: they are acquires, and later accesses follow them
(09 R222). -/
def forceAtoms (p : Place) (s : State) : State :=
  if (s.thread p).loads.any (·.atomic) then forceLoads p s else s

/-- Perform the accesses in flight of the thread that touch bytes it is about to store to. -/
def performTouching (p : Place) (va : Word) (t : Target) (w : Nat) (s : State) : State :=
  ((s.thread p).loads.filter fun a => a.touches va t w).foldl (fun s a => performAccess p a s) s

/-- A thread's store is made: it joins the stores in flight and, unless the turn leaves it, reaches the
L1 port or is performed at the own scratchpad (13 R310). -/
def makeStore (p : Place) (va : Word) (t : Target) (w v : Nat) (h : Hint) (merge : Nat) (s : State) :
    State :=
  let s := performTouching p va t w s
  let g := s.agent p
  let n := s.reqCtr
  let view := match t with
    | .spad _ _ view _ _ => view
    | .dram _ _ _ _ => 0
    | .lreg _ _ => 0
    | .remote _ _ => 0
    | .hole => 0
  let data := match t with
    | .spad _ _ view gang rank => viewWrite (s.decodeOf gang rank) view w v
    | .dram _ _ _ _ => v
    | .lreg _ _ => v
    | .remote _ _ => v
    | .hole => v
  let e : Store :=
    { n := n, place := p, gang := g.gang, cl := g.cl.getD 0, die := g.die, direct := g.cl.isNone,
      va := va, tgt := t, size := viewSize view w, data := data % 2 ^ (8 * viewSize view w), nl := h != .normal,
      merge := merge, stage := .issued, written := false, acks := [], la := h == .la, clk := s.clk, since := s.nextSince }
  let s := { s with stores := s.stores ++ [e], reqCtr := n + 1 }
  let s := match t with
    | .dram pa _ _ _ => countWrite g.cl g.die (s.homeDie pa) w s
    | .spad _ _ _ _ _ => s
    | .lreg _ _ => s
    | .remote _ _ => s
    | .hole => s
  if s.split && view == 0 then s
  else drain (fun x => x.n == n) (fun _ => if view = 0 then 1 else 3) s

/-- A thread's access of w bytes at va: the checks and waits of R217, then what is done with the
target. -/
def access (p : Place) (va : Word) (w : Nat) (need : Need) (s : State) (k : Target → State → Res) : Res :=
  let g := s.agent p
  match route g va w need s with
  | (.bad c, s) => .trap s c va
  | (.missed r l, s) => .wait (addMiss g (.thread p) va need r l s) .sleep
  | (.held, s) => .wait s (.waiting 0 0)
  | (.to t, s) =>
    if need != .write && dataBad s t then .trap s Cause.dataError va else k t s

/-- A thread's load whose value is wanted at once (records, tables). -/
def loadNow (p : Place) (va : Word) (w : Nat) (s : State) (k : Nat → State → Res) : Res :=
  access p va w .read s fun t s =>
    let r := threadRead p va t w .normal s
    k r.1 r.2

/-- n doublewords from va, each an LD.D of the thread (10 R245, R247). -/
def loadWords (p : Place) : Nat → Word → List Word → State → (List Word → State → Res) → Res
  | 0, _, acc, s, k => k acc.reverse s
  | n + 1, va, acc, s, k =>
    loadNow p va 8 s fun v s => loadWords p n (va + 8) (ofN v :: acc) s k

/-! ### Releases and acquires of a thread (09 R206, R223) -/

/-- Every earlier load and store of the thread is performed at a scope's point, with the stores that happen before
them (13 R308); merges, where asked for, at their homes. -/
def releaseStores (p : Place) (sc : Scope) (merges : Bool) (s : State) : State :=
  let s := forceLoads p s
  let n := (s.thread p).acq
  drain (fun e => (e.place == p && (merges || e.merge == 0)) || (e.merge == 0 && passedOn p n e))
    (fun e => if e.merge = 0 then e.level sc else 3) s

/-- The merges of the thread at p are performed at their homes (09 R223). -/
def settleMerges (p : Place) (s : State) : State := drain (fun e => e.place == p && e.merge != 0) (fun _ => 3) s

/-- An acquire of the thread at a scope, which waits for its earlier merges (09 R206, R223). -/
def acquire (p : Place) (sc : Scope) (s : State) : State :=
  let s := settleMerges p (forceAtoms p s)
  noteAcquire p (acquireAt (s.agent p) sc s)

end Sys2Proof.Machine
end

