-- ==== Sys2Proof/Machine/Tile.lean ====
section
/-!
DEFINITION. Bay references and tile handles, the state of slots and bays, and what happens at the
gallery unit (11 R249-R262).
-/

namespace Sys2Proof.Machine

/-! ### References -/

/-- A bay as an entry of Table 11-1. -/
def Bay.entry (b : Bay) : Word :=
  ofN (2 ^ 44 + b.cntm1 * 2 ^ 36 + b.lsz * 2 ^ 32 + b.base)

/-- The bay an entry of Table 11-1 defines, every slot free at generation 1 (11 R252, R255). -/
def bayOf (phys : Nat) (e : Word) : Bay where
  phys := phys
  base := wbits e 31 0
  lsz := wbits e 35 32
  cntm1 := wbits e 43 36
  slots := List.replicate (wbits e 43 36 + 1) { st := .free, gen := 1, cnt := 0, avail := 0 }
  fifo := []
  wd := none

/-- Bay b of a share, if it is valid. -/
def Share.bay? (sh : Share) (b : Nat) : Option Bay := (sh.bays[b]?).getD none

/-- What a bay reference or a handle names (11 R253): nothing valid; or bay b of a share, with a slot
and a generation for a handle. -/
inductive TileRef
  | bad
  | ok (gang rank b slot gen : Nat)
  deriving DecidableEq, Repr

/-- A bay reference of the thread at p (11 Table 11-3). -/
def bayRef (p : Place) (a : Word) (s : State) : TileRef :=
  let t := s.thread p
  let rk := wbit a 24
  let r := wbits a 23 8
  let b := wbits a 2 0
  if wbits a 63 25 ≠ 0 ∨ wbits a 7 3 ≠ 0 then .bad
  else if !rk && (r != 0 || p.engine == .landing) then .bad
  else
    let rank := if rk then r else t.rank
    match s.share? t.gang rank with
    | none => .bad
    | some sh => if (sh.bay? b).isSome then .ok t.gang rank b 0 0 else .bad

/-- A handle used for gang g (11 Table 11-2, R253). -/
def handleRef (g : Nat) (h : Word) (s : State) : TileRef :=
  let cl := wbits h 31 30 * 48 + wbits h 29 24
  let b := wbits h 23 21
  let slot := wbits h 20 13
  if wbits h 63 32 ≠ 0 ∨ 48 ≤ wbits h 29 24 then .bad
  else match (s.sharesOf g).find? (·.launch == cl) with
    | none => .bad
    | some sh =>
      match sh.bay? b with
      | none => .bad
      | some bay => if slot ≤ bay.cntm1 then .ok g sh.rank b slot (wbits h 12 0) else .bad

/-- The handle of a slot of a share's bay at a generation (11 Table 11-2). -/
def handleOf (sh : Share) (b slot gen : Nat) : Word :=
  ofN ((sh.launch / 48) * 2 ^ 30 + (sh.launch % 48) * 2 ^ 24 + b * 2 ^ 21 + slot * 2 ^ 13 + gen)

/-- The window address of a slot (11 R254). -/
def tileAddr (rank : Nat) (bay : Bay) (slot : Nat) : Word :=
  rankAddr rank (bay.base + slot * 2 ^ bay.lsz)

/-- The window address a handle's tile has; 0 for a handle that names none. -/
def handleAddr (g : Nat) (h : Word) (s : State) : Word :=
  match handleRef g h s with
  | .bad => 0
  | .ok g r b slot _ =>
    match (s.share? g r).bind (·.bay? b) with
    | some bay => tileAddr r bay slot
    | none => 0

/-! ### Slots and bays -/

/-- The bay b of share (g, r). -/
def State.bayAt (s : State) (g r b : Nat) : Option Bay := (s.share? g r).bind (·.bay? b)

/-- The slot of a bay. -/
def State.slotAt (s : State) (g r b n : Nat) : Option Slot :=
  (s.bayAt g r b).bind fun y => y.slots[n]?

/-- The state with a bay changed. -/
def modBay (g r b : Nat) (f : Bay → Bay) (s : State) : State :=
  s.modShare g r fun sh => { sh with bays := sh.bays.modify b fun o => o.map f }

/-- Whether a slot is available in a clk (11 R259). -/
def Slot.ready (x : Slot) (clk : Nat) : Bool := x.st == .free && decide (x.avail ≤ clk)

/-- The lowest available slot of a bay (11 R259). -/
def Bay.freeSlot? (y : Bay) (clk : Nat) : Option Nat := y.slots.findIdx? (·.ready clk)

/-- The watchdog after something happened at a bay; it restarts at a seal, a count or a drop, or goes on
(11 R262). -/
def Bay.watch (y : Bay) (clk : Nat) (restart : Bool) : Bay :=
  if (y.freeSlot? clk).isSome || y.fifo.isEmpty then { y with wd := none }
  else match y.wd with
    | some c => { y with wd := some (if restart then clk else c) }
    | none => { y with wd := some clk }

/-- A bay with slot n changed. -/
def Bay.modSlot (y : Bay) (n : Nat) (f : Slot → Slot) : Bay := { y with slots := y.slots.modify n f }

/-- The generation after one more return to the pool (11 R252). -/
def nextGen (g : Nat) : Nat := if 8191 ≤ g then 1 else g + 1

/-- A slot freed in a clk: it is available from the next one (11 R255, R259). -/
def Slot.free (x : Slot) (clk : Nat) : Slot :=
  { st := .free, gen := nextGen x.gen, cnt := 0, avail := clk + 1 }

/-- A slot with k taken from its count (11 R256, R268). -/
def Slot.take (x : Slot) (clk k : Nat) : Slot :=
  if x.cnt ≤ k then x.free clk else { x with cnt := x.cnt - k }

/-- Seal slot n of a bay. -/
def sealSlot (g r b n : Nat) (s : State) : State :=
  modBay g r b (fun y => (y.modSlot n fun x => { x with st := .sealed }).watch s.clk true) s

/-- Take k from the count of slot n. -/
def takeSlot (g r b n k : Nat) (s : State) : State :=
  modBay g r b (fun y => (y.modSlot n fun x => x.take s.clk k).watch s.clk true) s

/-- Allocate slot n with a declared count: it is filling (11 R255). -/
def fillSlot (g r b n c : Nat) (s : State) : State :=
  modBay g r b (fun y => (y.modSlot n fun x => { x with st := .filling, cnt := c }).watch s.clk false) s

/-- Whether the share of a reference is one whose operations go on now (11 R251). -/
def State.shareLive (s : State) (g r : Nat) : Bool :=
  match s.share? g r with
  | some sh => s.live sh
  | none => false

/-- Whether an operation on a handle goes on now: not while the share it names is saved (11 R251). -/
def handleLive (g : Nat) (h : Word) (s : State) : Bool :=
  match handleRef g h s with
  | .bad => true
  | .ok g r _ _ _ => s.shareLive g r

/-- A consuming read of an engine or stream, counted at its end: false when the handle is stale
(11 R256, R257). -/
def consume (g : Nat) (h : Word) (s : State) : Bool × State :=
  match handleRef g h s with
  | .bad => (false, s)
  | .ok g r b n gen =>
    match s.slotAt g r b n with
    | none => (false, s)
    | some x => if x.gen = gen ∧ x.st = .sealed then (true, takeSlot g r b n 1 s) else (false, s)

/-- The cluster that now holds the bay of a handle used for gang g; none for a handle that names none. -/
def handleHome (g : Nat) (h : Word) (s : State) : Option Nat :=
  match handleRef g h s with
  | .bad => none
  | .ok g r _ _ _ => (s.share? g r).map (·.cl)

/-- What a handle's slot shows: its state and whether the handle is stale; none when it is invalid. -/
def handleSlot (g : Nat) (h : Word) (s : State) : Option (SlotSt × Bool) :=
  match handleRef g h s with
  | .bad => none
  | .ok g r b n gen => (s.slotAt g r b n).map fun x => (x.st, x.gen != gen)

end Sys2Proof.Machine
end

