-- ==== Sys2Proof/Machine/Operands.lean ====
section
/-!
DEFINITION. How a word reads and writes its operands: f registers that may be streams (10 R225-R235;
06 R149), flags, pushes, and the releases that wait for pushes.
-/

namespace Sys2Proof.Machine

/-- What a word's meaning knows beside its place: the active lanes, and the state before the first of
them acted. -/
structure Ctx where
  act : List Place
  pre : State

/-- The meaning of a word for one thread. -/
abbrev Body := Ctx → Place → State → Res

/-! ### Stream records (10 Table 10-1) -/

/-- Doubleword i of a record. -/
def recWord (r : List Word) (i : Nat) : Word := (r[i]?).getD 0

/-- Whether a stream writes. -/
def Strm.writes (m : Strm) : Bool := wbit (recWord m.record 1) 0
/-- Its format. -/
def Strm.fmt (m : Strm) : Nat := wbits (recWord m.record 1) 3 1
/-- Whether it names a tile. -/
def Strm.hvalid (m : Strm) : Bool := wbit (recWord m.record 1) 4
/-- Whether its last pop consumes the tile. -/
def Strm.consumes (m : Strm) : Bool := wbit (recWord m.record 1) 5
/-- Its tile handle. -/
def Strm.handle (m : Strm) : Word := ofN (wbits (recWord m.record 1) 63 32)

/-- Extent k of a stream record. -/
def strmExt (r : List Word) (k : Nat) : Nat :=
  let w := recWord r (2 + k / 2)
  if k % 2 = 0 then wbits w 31 0 else wbits w 63 32

/-- The number of dimensions of a stream record. -/
def strmDims (r : List Word) : Nat := wbits (recWord r 1) 7 6 + 1

/-- The vector length (10 R227). -/
def strmLen (r : List Word) : Nat :=
  (List.range (strmDims r)).foldl (fun n k => n * strmExt r k) 1

/-- The storage size of a stream format (10 Table 10-2). -/
def fmtSize (f : Nat) : Nat :=
  match f with
  | 0 => 4
  | 1 => 2
  | 2 => 2
  | 3 => 4
  | 4 => 2
  | _ => 1

/-- What a pop gives for storage bits (10 Table 10-2). -/
def fmtPop (f v : Nat) : W32 :=
  match f with
  | 1 => BitVec.ofNat 32 (widenBf16 v)
  | 2 => BitVec.ofNat 32 (convF fp16 fp32 .rne false false v).1
  | 4 => BitVec.ofInt 32 (sext v 16)
  | 5 => BitVec.ofInt 32 (sext v 8)
  | _ => BitVec.ofNat 32 v

/-- What a push stores for an f value (10 Table 10-2). -/
def fmtPush (f : Nat) (v : W32) : Nat :=
  match f with
  | 1 => bf16Rne v.toNat
  | 2 => (convF fp32 fp16 .rne false false v.toNat).1
  | 4 => lowBits (sat (sext v.toNat 32) 16) 16
  | 5 => lowBits (sat (sext v.toNat 32) 8) 8
  | _ => v.toNat

/-- Σ i_k × STR_k of element j, dimension 0 fastest (10 R227). -/
def affine : List (Nat × Int) → Nat → Int
  | [], _ => 0
  | (n, st) :: ds, j => ((j % n : Nat) : Int) * st + affine ds (j / n)

/-- The address of element j of a stream of gang g (10 R227, R234). -/
def Strm.addr (m : Strm) (g : Nat) (j : Nat) (s : State) : Word :=
  let ds := (List.range (strmDims m.record)).map fun k =>
    (strmExt m.record k, sext (recWord m.record (4 + k)).toNat 64)
  let base := if m.hvalid then handleAddr g m.handle s + recWord m.record 0 else recWord m.record 0
  base + ofI (affine ds j)

/-! ### Bound registers -/

/-- The stream f register r of a thread is bound to. -/
def Thread.strmOf (t : Thread) (r : Reg) : Option Strm :=
  if 28 ≤ r.val then (t.strm[r.val - 28]?).getD none else none

/-- The state with the stream of f(28 + i) of the thread at p changed. -/
def modStrm (p : Place) (i : Nat) (f : Option Strm → Option Strm) (s : State) : State :=
  s.modThread p fun t => { t with strm := t.strm.modify i f }

/-- Registers without repeats, in order. -/
def dedup (rs : List Reg) : List Reg :=
  rs.foldl (fun acc r => if acc.contains r then acc else acc ++ [r]) []

/-- What reading a set of f registers and writing another comes to before anything happens (10 R231,
R232; wrong direction before past the end, log 8). -/
inductive FCheck
  | ok
  | fault (cause : Nat) (eval : Word)
  /-- an element has not arrived, or a buffer is full: the word is not ready -/
  | notReady
  deriving DecidableEq, Repr

/-- The checks of the stream operands of a word. -/
def Thread.fcheck (t : Thread) (srcs dsts : List Reg) : FCheck :=
  let rd := (dedup srcs).filterMap fun r => t.strmOf r
  let wr := (dedup dsts).filterMap fun r => t.strmOf r
  if rd.any (·.writes) || wr.any (fun m => !m.writes) then .fault Cause.stream 3
  else if rd.any (fun m => decide (strmLen m.record ≤ m.pos)) ||
      wr.any (fun m => decide (strmLen m.record ≤ m.pos)) then .fault Cause.stream 2
  else match rd.findSome? (fun m =>
      match m.ahead.head? with
      | some (.bad c a) => some (c, a)
      | some (.val _) => none
      | none => none) with
    | some (c, a) => .fault c a
    | none =>
      if rd.any (fun m => m.ahead.isEmpty) || wr.any (fun m => decide (64 ≤ m.push.length))
      then .notReady else .ok

/-- The value an f operand has: the next element of a bound register, or the contents. -/
def Thread.fval (t : Thread) (r : Reg) : W32 :=
  match t.strmOf r with
  | some m =>
    match m.ahead.head? with
    | some (.val v) => v
    | some (.bad _ _) => 0
    | none => 0
  | none => t.getF r

/-- A failed element is fetched again when its instruction is executed again (10 R231). -/
def dropBad (p : Place) (srcs : List Reg) (s : State) : State :=
  (dedup srcs).foldl (fun s r =>
    if 28 ≤ r.val then modStrm p (r.val - 28) (fun o => o.map fun m =>
      match m.ahead.head? with
      | some (.bad _ _) => { m with ahead := [] }
      | some (.val _) => m
      | none => m) s
    else s) s

/-- The consuming streams of which a word pops the last element (10 R234). -/
def Thread.lastPops (t : Thread) (srcs : List Reg) : List Strm :=
  (dedup srcs).filterMap fun r =>
    match t.strmOf r with
    | some m => if m.consumes && m.pos + 1 == strmLen m.record then some m else none
    | none => none

/-- Pop the element of every bound register among the sources; with the last one of a CONSUME stream its
consuming read goes to the bay (10 R232, R234; 11 R258). -/
def popAll (p : Place) (srcs : List Reg) (s : State) : State :=
  (dedup srcs).foldl (fun s r =>
    match (s.thread p).strmOf r with
    | none => s
    | some m => modStrm p (r.val - 28) (fun _ => some { m with
        pos := m.pos + 1
        ahead := m.ahead.tail
        counting := m.counting || (m.consumes && m.pos + 1 == strmLen m.record) }) s) s

/-- Write f register d with a result: onto its stream when it is bound to one (10 R233). -/
def putF (p : Place) (lat : Nat) (d : Reg) (v : W32) (s : State) : State :=
  match (s.thread p).strmOf d with
  | none => setFReg p lat d v s
  | some m =>
    let m' :=
      match m.failAt with
      | some _ => { m with pos := m.pos + 1 }
      | none => { m with pos := m.pos + 1, push := m.push ++ [(s.clk, v)],
                         base := if m.push.isEmpty then m.pos else m.base }
    modStrm p (d.val - 28) (fun _ => some m') s

/-! ### Pushes and releases (10 R233) -/

/-- Whether elements that the thread at p pushed before a clk, on any stream, and that are not stores yet, meet n bytes
from an address: a push there follows them, for a thread's stores to one location keep program order (10 R233;
13 R304). -/
def pushedAt (p : Place) (a : Word) (n clk : Nat) (s : State) : Bool :=
  (s.thread p).strm.any fun o =>
    match o with
    | some m => (m.push.mapIdx fun k e =>
        decide (e.1 < clk) && meets (m.addr (s.thread p).gang (m.base + k) s).toNat (fmtSize m.fmt) a.toNat n).any id
    | none => false

/-- Perform the oldest pushed element of f(28 + i) as a store of the thread; answers whether it is
done with (made, or failed and reported at SCLOSE). A store that misses a translation stays, and one that follows an older
push of another stream to its bytes. -/
def pushOne (p : Place) (i : Nat) (s : State) : Bool × State :=
  let t := s.thread p
  match (t.strm[i]?).getD none with
  | none => (true, s)
  | some m =>
    match m.push with
    | [] => (true, s)
    | (clk, v) :: vs =>
      let a := m.addr t.gang m.base s
      let w := fmtSize m.fmt
      if pushedAt p a w clk s then (false, s)
      else
      let fail := fun (c : Nat) (s : State) => modStrm p i (fun o => o.map fun m =>
        { m with push := [], failAt := some (if c = Cause.dieFence then c else Cause.access, a) })
        (dropMiss (.stream p i) s)
      match s.missOf (.stream p i) with
      | some x =>
        (match x.st with
         | .killed => (true, fail Cause.access s)
         | .fresh => (false, s)
         | .token _ => (false, s))
      | none =>
        match route (s.agent p) a w .write s with
        | (.bad c, s) => (true, fail c s)
        | (.missed r l, s) => (false, addMiss (s.agent p) (.stream p i) a .write r l s)
        | (.held, s) => (false, s)
        | (.to tg, s) =>
          let s := drain (fun e => e.place == p && e.stage == .issued) (fun _ => 1) s
          let s := makeStore p a tg w (fmtPush m.fmt v) .normal 0 s
          (true, modStrm p i (fun o => o.map fun m => { m with push := vs, base := m.base + 1 }) s)

/-- The stream on which the oldest of a thread's pushed elements stands. -/
def Thread.oldestPush (t : Thread) : Option Nat :=
  let heads := t.strm.mapIdx fun i o => (i, (o.bind fun m => m.push.head?).map (·.1))
  (heads.foldl (fun (b : Option (Nat × Nat)) x =>
    match x.2, b with
    | none, _ => b
    | some c, none => some (x.1, c)
    | some c, some y => if c < y.2 then some (x.1, c) else b) none).map (·.1)

/-- Perform pushed elements of f(28 + i), at most n, up to one that must stay. -/
def pushMany (p : Place) (i : Nat) : Nat → State → State
  | 0, s => s
  | n + 1, s =>
    let r := pushOne p i s
    if r.1 then pushMany p i n r.2 else r.2

/-- Perform pushed elements of the thread at p in the order of their pushes, at most n, up to one that must stay. -/
def pushOldest (p : Place) : Nat → State → State
  | 0, s => s
  | n + 1, s =>
    match (s.thread p).oldestPush with
    | none => s
    | some i =>
      let r := pushOne p i s
      if r.1 then pushOldest p n r.2 else r.2

/-- Perform every pushed element of the thread at p: at most 64 of each of its four streams. -/
def pushAll (p : Place) (s : State) : State := pushOldest p 256 s

/-- Whether a thread has pushed elements that are not performed. -/
def Thread.pushing (t : Thread) : Bool :=
  t.strm.any fun o =>
    match o with
    | some m => !m.push.isEmpty
    | none => false

/-- A release of the thread at a scope (09 R206), and what follows it; it waits as `w` says while a pushed element
cannot be performed (10 R233). -/
def releaseOr (w : Wait) (p : Place) (sc : Scope) (merges : Bool) (s : State) (k : State → Res) : Res :=
  let s := pushAll p s
  if (s.thread p).pushing then .wait s w else k (releaseStores p sc merges s)

/-- A release of the thread at a scope, from whose wait the word starts again. -/
def releaseThen (p : Place) (sc : Scope) (merges : Bool) (s : State) (k : State → Res) : Res :=
  releaseOr (.waiting 0 0) p sc merges s k

/-- The scope of a gallery release of the thread at p for a bay on a cluster: `.pkg` where it lies on another die
(11 R260). -/
def galScope (p : Place) (cl : Nat) : Scope := if cl / 48 = p.die then .die else .pkg

/-- The scope of the release that the consuming reads of streams are (10 R234; 11 R260). -/
def popScope (p : Place) (ms : List Strm) (s : State) : Scope :=
  if ms.any fun m => galScope p ((handleHome (s.thread p).gang m.handle s).getD (p.cluster?.getD 0)) == .pkg
  then .pkg else .die

/-- Read f operands and act: the checks, the release of a consuming read, then k with the operands' values,
given what pops them. -/
def withF (p : Place) (srcs dsts : List Reg) (s : State)
    (k : (Reg → W32) → (State → State) → State → Res) : Res :=
  let t := s.thread p
  match t.fcheck srcs dsts with
  | .fault c v => .trap (dropBad p srcs s) c v
  | .notReady => .left s
  | .ok =>
    match t.lastPops srcs with
    | [] => k t.fval (popAll p srcs) s
    | ms => releaseThen p (popScope p ms s) true s fun s => k (s.thread p).fval (popAll p srcs) s

/-- OR flags into FFLAGS (06 R144). -/
def orFlags (p : Place) (fl : Nat) (s : State) : State :=
  if fl = 0 then s
  else s.modThread p fun t => { t with fflags := t.fflags ||| BitVec.ofNat 5 fl }

/-- FTZ of a thread (06 Table 06-3). -/
def Thread.ftz (t : Thread) : Bool := wbit t.fmode 2
/-- DAZ of a thread. -/
def Thread.daz (t : Thread) : Bool := wbit t.fmode 3
/-- Whether VER is 1 (06 Table 06-5). -/
def Thread.ver1 (t : Thread) : Bool := wbits t.nbv 1 0 == 1

/-! ### Waits -/

/-- What the thread at p waits in, if it waits inside a word. -/
def waitOf (p : Place) (s : State) : Option Wait :=
  match (s.thread p).run with
  | .wait _ w => some w
  | .running => none
  | .idle => none
  | .retired => none
  | .fetchSleep => none

/-- The stage a *waiting* word has reached; 0 before its wait (or when it starts again). -/
def stageOf (p : Place) (s : State) : Nat :=
  match waitOf p s with
  | some (.waiting n _) => n
  | _ => 0

end Sys2Proof.Machine
end

