-- ==== Sys2Proof/Machine/Info.lean ====
section
/-!
DEFINITION. What issue asks of a word: its register fields, the registers it reads and writes
(02 R41, R387), the engines that run it (02 Table 02-7), the mode it needs (02 R50), and the latency of
its results (05 Table 05-1; 06 Table 06-10; 07 Table 07-3, R181).
-/

namespace Sys2Proof

/-- Whether a reduction works on f registers (07 Table 07-5). -/
def RedOp.float : RedOp → Bool
  | .fadd => true
  | .fmin => true
  | .fmax => true
  | .add => false
  | .min => false
  | .max => false
  | .minu => false
  | .maxu => false
  | .and => false
  | .or => false
  | .xor => false

/-- Whether a system register is numbered 0x100 or above (02 Table 02-9). -/
def SysReg.supervisor : SysReg → Bool
  | .status => true
  | .cause => true
  | .epc => true
  | .eval => true
  | .eguard => true
  | .tvec => true
  | .escr => true
  | _ => false

end Sys2Proof

namespace Sys2Proof.Machine

/-- What issue asks of a word. `inter`: its results are interlocked on a wide engine; `div`: 1 for an
integer division, 2 for a floating-point one. -/
structure Info where
  regs : List Reg := []
  rd : List (RFile × Nat) := []
  wr : List (RFile × Nat) := []
  lane : Bool := true
  landing : Bool := true
  priv : Bool := false
  lat : Nat := 1
  wlat : Nat := 0
  inter : Bool := false
  div : Nat := 0
  deriving DecidableEq, Repr

/-- xd from xa and xb. -/
def Info.xxx (d a b : Reg) (l w : Nat) : Info :=
  { regs := [d, a, b], rd := [(.x, a), (.x, b)], wr := [(.x, d)], lat := l, wlat := w }
/-- xd from xa. -/
def Info.xx (d a : Reg) (l w : Nat) : Info :=
  { regs := [d, a], rd := [(.x, a)], wr := [(.x, d)], lat := l, wlat := w }
/-- xd alone. -/
def Info.x (d : Reg) (l w : Nat) : Info := { regs := [d], wr := [(.x, d)], lat := l, wlat := w }
/-- xa and xb read. -/
def Info.rr (a b : Reg) : Info := { regs := [a, b], rd := [(.x, a), (.x, b)], inter := true }
/-- xa read. -/
def Info.r (a : Reg) : Info := { regs := [a], rd := [(.x, a)], inter := true }
/-- An interlocked xd from xa and xb. -/
def Info.at3 (d a b : Reg) : Info := { Info.xxx d a b 1 0 with inter := true }
/-- An interlocked xd from xa. -/
def Info.ixx (d a : Reg) : Info := { Info.xx d a 1 0 with inter := true }
/-- An interlocked xd. -/
def Info.ix (d : Reg) : Info := { Info.x d 1 0 with inter := true }
/-- fd from fa and fb. -/
def Info.fff (d a b : Reg) (l w : Nat) : Info :=
  { regs := [d, a, b], rd := [(.f, a), (.f, b)], wr := [(.f, d)], lat := l, wlat := w }
/-- fd from fa. -/
def Info.ff (d a : Reg) (l w : Nat) : Info :=
  { regs := [d, a], rd := [(.f, a)], wr := [(.f, d)], lat := l, wlat := w }
/-- xd from fa. -/
def Info.xf (d a : Reg) (l w : Nat) : Info :=
  { regs := [d, a], rd := [(.f, a)], wr := [(.x, d)], lat := l, wlat := w }
/-- fd from xa. -/
def Info.fx (d a : Reg) (l w : Nat) : Info :=
  { regs := [d, a], rd := [(.x, a)], wr := [(.f, d)], lat := l, wlat := w }
/-- fd from fa, fb and fc. -/
def Info.ffff (d a b c : Reg) : Info :=
  { regs := [d, a, b, c], rd := [(.f, a), (.f, b), (.f, c)], wr := [(.f, d)], lat := 4, wlat := 4 }
/-- A load; the shortest latency is that of the own scratchpad (09 R225's timing list). -/
def Info.ld (r : RFile) (d a : Reg) : Info :=
  { regs := [d, a], rd := [(.x, a)], wr := [(r, d)], lat := 4, inter := true }

/-- The predicates of group g (05 R123). -/
def predGroup (g : Fin 3) : List (RFile × Nat) :=
  (List.range 32).map fun i => (RFile.p, 32 * g.val + i)
/-- x registers b, b+1, … -/
def runX (b : Reg) (n : Nat) : List (RFile × Nat) :=
  (List.range n).map fun i => (RFile.x, b.val + i)
/-- f registers a, a+1, …, one at least (07 R178). -/
def runF (a : Reg) (n : Nat) : List (RFile × Nat) :=
  (List.range (max 1 n)).map fun i => (RFile.f, a.val + i)
/-- x, or f where the flag says so. -/
def fileOf (f : Bool) : RFile := if f then .f else .x

/-- What issue asks of each word; events ask nothing. -/
def info : Instr → Info
  | .add d a b => .xxx d a b 1 2
  | .sub d a b => .xxx d a b 1 2
  | .and d a b => .xxx d a b 1 2
  | .or d a b => .xxx d a b 1 2
  | .xor d a b => .xxx d a b 1 2
  | .andn d a b => .xxx d a b 1 2
  | .orn d a b => .xxx d a b 1 2
  | .xnor d a b => .xxx d a b 1 2
  | .shl d a b => .xxx d a b 1 2
  | .shr d a b => .xxx d a b 1 2
  | .sar d a b => .xxx d a b 1 2
  | .rol d a b => .xxx d a b 1 2
  | .ror d a b => .xxx d a b 1 2
  | .mul d a b => .xxx d a b 3 4
  | .mulh d a b => .xxx d a b 3 4
  | .mulhu d a b => .xxx d a b 3 4
  | .div d a b => { Info.xxx d a b 34 40 with inter := true, div := 1 }
  | .divu d a b => { Info.xxx d a b 34 40 with inter := true, div := 1 }
  | .rem d a b => { Info.xxx d a b 34 40 with inter := true, div := 1 }
  | .remu d a b => { Info.xxx d a b 34 40 with inter := true, div := 1 }
  | .min d a b => .xxx d a b 1 2
  | .max d a b => .xxx d a b 1 2
  | .minu d a b => .xxx d a b 1 2
  | .maxu d a b => .xxx d a b 1 2
  | .slt d a b => .xxx d a b 1 2
  | .sltu d a b => .xxx d a b 1 2
  | .clz d a => .xx d a 1 2
  | .ctz d a => .xx d a 1 2
  | .pop d a => .xx d a 1 2
  | .brev d a => .xx d a 1 2
  | .bswap d a => .xx d a 1 2
  | .sextB d a => .xx d a 1 2
  | .sextH d a => .xx d a 1 2
  | .sextW d a => .xx d a 1 2
  | .zextB d a => .xx d a 1 2
  | .zextH d a => .xx d a 1 2
  | .zextW d a => .xx d a 1 2
  | .addw d a b => .xxx d a b 1 2
  | .subw d a b => .xxx d a b 1 2
  | .mulw d a b => .xxx d a b 3 4
  | .addi d a _ => .xx d a 1 2
  | .andi d a _ => .xx d a 1 2
  | .ori d a _ => .xx d a 1 2
  | .xori d a _ => .xx d a 1 2
  | .shli d a _ => .xx d a 1 2
  | .shri d a _ => .xx d a 1 2
  | .sari d a _ => .xx d a 1 2
  | .roli d a _ => .xx d a 1 2
  | .slti d a _ => .xx d a 1 2
  | .lui d _ => .x d 1 2
  | .luih d _ => { Info.x d 1 2 with rd := [(.x, d)] }
  | .addpc d _ => .x d 1 2
  | .lea d a b _ _ => .xxx d a b 1 2
  | .bfxu d a _ _ => .xx d a 1 2
  | .bfx d a _ _ => .xx d a 1 2
  | .bfi d a _ _ => { Info.xx d a 1 2 with rd := [(.x, a), (.x, d)] }
  | .mhpk d a b _ => { Info.xxx d a b 2 3 with rd := [(.x, b)] }
  | .mhun _ d a _ => { Info.xx d a 2 3 with wr := [] }
  | .layw a b => .rr a b
  | .layr d a => .xx d a 1 2
  | .prdx d g => { Info.x d 1 2 with rd := predGroup g }
  | .xprd a g => { Info.r a with wr := predGroup g, lat := 1, wlat := 2, inter := false }
  | .pcmp _ p a b => { Info.rr a b with wr := [(.p, p)], lat := 1, wlat := 2, inter := false }
  | .pcmpi _ p a _ => { Info.r a with wr := [(.p, p)], lat := 1, wlat := 2, inter := false }
  | .fcmp _ p a b => { regs := [a, b], rd := [(.f, a), (.f, b)], wr := [(.p, p)], lat := 2, wlat := 4 }
  | .pand p a b => { rd := [(.p, a), (.p, b)], wr := [(.p, p)], lat := 1, wlat := 2 }
  | .por p a b => { rd := [(.p, a), (.p, b)], wr := [(.p, p)], lat := 1, wlat := 2 }
  | .pxor p a b => { rd := [(.p, a), (.p, b)], wr := [(.p, p)], lat := 1, wlat := 2 }
  | .pandn p a b => { rd := [(.p, a), (.p, b)], wr := [(.p, p)], lat := 1, wlat := 2 }
  | .porn p a b => { rd := [(.p, a), (.p, b)], wr := [(.p, p)], lat := 1, wlat := 2 }
  | .pnot p a => { rd := [(.p, a)], wr := [(.p, p)], lat := 1, wlat := 2 }
  | .br _ => {}
  | .call _ => { wr := [(.x, 23)], lat := 1, wlat := 2 }
  | .brp p _ => { rd := [(.p, p)] }
  | .brn p _ => { rd := [(.p, p)] }
  | .jmpr a => .r a
  | .callr a => { Info.r a with wr := [(.x, 23)], lat := 1, wlat := 2, inter := false }
  | .ret => { rd := [(.x, 23)] }
  | .fadd _ d a b => .fff d a b 4 4
  | .fsub _ d a b => .fff d a b 4 4
  | .fmul _ d a b => .fff d a b 4 4
  | .fdiv _ d a b => { Info.fff d a b 16 24 with inter := true, div := 2 }
  | .fsqrt _ d a => { Info.ff d a 16 24 with inter := true, div := 2 }
  | .fmin _ d a b => .fff d a b 1 3
  | .fmax _ d a b => .fff d a b 1 3
  | .fabs _ d a => .ff d a 1 3
  | .fneg _ d a => .ff d a 1 3
  | .fsgnj _ d a b => .fff d a b 1 3
  | .frcp _ d a => .ff d a 8 8
  | .frsq _ d a => .ff d a 8 8
  | .fexp2 _ d a => .ff d a 8 8
  | .flog2 _ d a => .ff d a 8 8
  | .fsin _ d a => .ff d a 8 8
  | .fcos _ d a => .ff d a 8 8
  | .fclass _ d a => .xf d a 1 3
  | .f2i _ d a => .xf d a 2 4
  | .f2iu _ d a => .xf d a 2 4
  | .i2f _ d a => .fx d a 2 4
  | .iu2f _ d a => .fx d a 2 4
  | .f2bf _ d a => .ff d a 2 4
  | .bf2f _ d a => .ff d a 2 4
  | .f2h _ d a => .ff d a 2 4
  | .h2f _ d a => .ff d a 2 4
  | .hadd2 _ d a b => .fff d a b 4 4
  | .hmul2 _ d a b => .fff d a b 4 4
  | .hmin2 _ d a b => .fff d a b 2 4
  | .hmax2 _ d a b => .fff d a b 2 4
  | .fmvXf _ d a => .xf d a 1 3
  | .fmvFx _ d a => .fx d a 1 3
  | .fma _ d a b c => .ffff d a b c
  | .fms _ d a b c => .ffff d a b c
  | .fnma _ d a b c => .ffff d a b c
  | .fnms _ d a b c => .ffff d a b c
  | .hfma2 _ d a b c => .ffff d a b c
  | .hfma2h _ d a b c => .ffff d a b c
  | .ldB _ d a _ => .ld .x d a
  | .ldBu _ d a _ => .ld .x d a
  | .ldH _ d a _ => .ld .x d a
  | .ldHu _ d a _ => .ld .x d a
  | .ldW _ d a _ => .ld .x d a
  | .ldWu _ d a _ => .ld .x d a
  | .ldD _ d a _ => .ld .x d a
  | .fld _ d a _ => .ld .f d a
  | .stB _ d a _ => .rr a d
  | .stH _ d a _ => .rr a d
  | .stW _ d a _ => .rr a d
  | .stD _ d a _ => .rr a d
  | .fst _ d a _ => { Info.r a with regs := [a, d], rd := [(.x, a), (.f, d)] }
  | .lda _ _ d a _ => .ld .x d a
  | .strel _ _ b a _ => .rr a b
  | .fence _ => {}
  | .atomAdd _ _ d a b => .at3 d a b
  | .atomMin _ _ d a b => .at3 d a b
  | .atomMax _ _ d a b => .at3 d a b
  | .atomMinu _ _ d a b => .at3 d a b
  | .atomMaxu _ _ d a b => .at3 d a b
  | .atomAnd _ _ d a b => .at3 d a b
  | .atomOr _ _ d a b => .at3 d a b
  | .atomXor _ _ d a b => .at3 d a b
  | .atomSwap _ _ d a b => .at3 d a b
  | .cas _ _ d a b => { Info.at3 d a b with rd := [(.x, a), (.x, b), (.x, d)] }
  | .amergeI _ _ a b => .rr a b
  | .amergeF _ a b => { Info.r a with regs := [a, b], rd := [(.x, a), (.f, b)] }
  | .pref _ a => .r a
  | .cinv _ a => .r a
  | .cflush _ a => .r a
  | .sbind _ a => { Info.r a with lane := false }
  | .sclose _ => { lane := false }
  | .sstat d _ => .ix d
  | .tcopy d a => .ixx d a
  | .tlwait _ a b => .rr a b
  | .tlread _ d a => .ixx d a
  | .tlarm a b => { Info.rr a b with rd := (.x, a) :: runX b 3 }
  | .galloc d a b => { Info.xxx d a b 4 0 with wr := runX d 2, inter := true }
  | .gtry d a b => { Info.xxx d a b 4 0 with wr := runX d 2, inter := true }
  | .gseal a => .r a
  | .gtake d a => .ixx d a
  | .gdone a => .r a
  | .gdrop a b => .rr a b
  | .gstatBay d a => .ixx d a
  | .gstatTile d a => .ixx d a
  | .gbay d a b => { Info.at3 d a b with priv := true }
  | .wcfg _ a => { Info.r a with landing := false }
  | .wrcf a _ => { Info.ix a with landing := false }
  | .wldp _ _ _ a b => { Info.rr a b with landing := false }
  | .wldt _ _ _ a b => { Info.rr a b with landing := false }
  | .wmul _ _ _ a => { Info.r a with landing := false }
  | .wmac _ _ a b => { Info.rr a b with landing := false }
  | .wext _ a b => { Info.rr a b with landing := false }
  | .wrot _ _ _ => { landing := false }
  | .wmacr _ _ _ a b => { Info.rr a b with landing := false }
  | .wsta a b => { Info.rr a b with landing := false }
  | .wzero a b => { Info.rr a b with landing := false }
  | .wzeroZ _ => { landing := false }
  | .wwait a => { Info.r a with landing := false }
  | .wstat _ a _ => { Info.ix a with landing := false }
  | .wmov _ _ => { landing := false }
  | .wunpk _ a _ => { Info.r a with landing := false }
  | .wshft _ _ _ b => { Info.r b with landing := false }
  | .msend a b => { Info.rr a b with rd := [(.x, a)] }
  | .mreq a b => .rr a b
  | .mret => { lane := false }
  | .hset a b => { Info.rr a b with lane := false }
  | .hmask d a b => { Info.at3 d a b with lane := false }
  | .rput a b => .rr a b
  | .qget d _ => { Info.ix d with lane := false }
  | .qpeek d _ => { Info.ix d with lane := false }
  | .dqpush _ d a b => { Info.at3 d a b with lane := false }
  | .dqpop d => { Info.ix d with wr := runX d 2, lane := false }
  | .dqsteal d a => { Info.ixx d a with wr := runX d 2, lane := false }
  | .bar _ d a => .ixx d a
  | .bara _ d a => .ixx d a
  | .barw _ a b => .rr a b
  | .pace _ _ _ _ _ _ _ _ => {}
  | .guard p _ _ => { rd := [(.p, p)] }
  | .vshfl _ _ fp k d a b => { regs := [d, a, b], rd := [(fileOf fp, a), (.x, b)], wr := (fileOf fp, d.val) :: (if k.val = 0 then [] else [(.p, k.val)]), lat := 2, wlat := 4, landing := false }
  | .vred op d a => { regs := [d, a], rd := [(fileOf op.float, a)], wr := [(fileOf op.float, d)], lat := 4, wlat := 8, landing := false }
  | .vscan op _ d a => { regs := [d, a], rd := [(fileOf op.float, a)], wr := [(fileOf op.float, d)], lat := 4, wlat := 8, landing := false }
  | .vball d p => { Info.x d 2 4 with rd := [(.p, p)], landing := false }
  | .velect d p => { Info.x d 2 4 with wr := [(.x, d), (.p, p)], landing := false }
  | .vquant d a b k => { regs := [d, a, b], rd := (.x, b) :: runF a (2 ^ (k.val + 3) / 64), wr := runX d 2, lat := 4, wlat := 8, landing := false }
  | .vdeq d a b => { regs := [d, a, b], rd := [(.x, a), (.x, b)], wr := [(.f, d)], lat := 2, wlat := 6, landing := false }
  | .venc d a _ => { Info.xx d a 2 6 with landing := false }
  | .mbpost _ a b => { regs := [a, b], rd := (.x, a) :: runX b 2, lane := false, landing := false }
  | .mbwait d _ => { Info.ix d with lane := false, landing := false }
  | .gflush a => { Info.r a with landing := false }
  | .migr a => { Info.r a with landing := false }
  | .mgpt => { landing := false }
  | .trap _ => {}
  | .eret => { priv := true }
  | .sysr d r => { Info.ix d with priv := r.supervisor }
  | .sysw r a => { Info.r a with priv := r.supervisor }
  | .wfm => { lane := false }
  | .yield => {}
  | .exit a => .r a
  | .pginv a => { Info.r a with priv := true }
  | .brk _ => {}
  | _ => {}

/-- The registers of the fields of layout l that have a width, from register b (02 R387). -/
def layRegs (lay : List (Nat × Nat)) (l : Fin 8) (b : Reg) : List (RFile × Nat) :=
  (List.range 8).filterMap fun f =>
    match lay[8 * l.val + f]? with
    | some e => if 0 < e.2 then some (RFile.x, b.val + f) else none
    | none => none

/-- The registers a word reads, those of a run counted as far as it uses them (02 R387). -/
def reads (i : Instr) (t : Thread) (lay : List (Nat × Nat)) : List (RFile × Nat) :=
  match i with
  | .mhpk _ a _ l => (info i).rd ++ layRegs lay l a
  | .msend a b => (info i).rd ++ runX b (wbits (t.getX a) 8 6)
  | _ => (info i).rd

/-- The registers a word writes. -/
def writes (i : Instr) (lay : List (Nat × Nat)) : List (RFile × Nat) :=
  match i with
  | .mhun _ d _ l => layRegs lay l d
  | _ => (info i).wr

/-- Whether a register counts for interlocks and checking: x0 and p0 never do, nor does a register the
engine has not (02 R387). -/
def counts (e : Engine) (r : RFile × Nat) : Bool :=
  match r.1 with
  | .x => r.2 != 0 && decide (r.2 < e.nregs)
  | .f => decide (r.2 < e.nregs)
  | .p => r.2 != 0

end Sys2Proof.Machine
end

