-- ==== Sys2Proof/Machine/Issue.lean ====
section
/-!
DEFINITION. How a word is issued: the conditions of issue (05 R102-R105; 07 R166-R168; 15 R361), fetch
faults and the default trap routine (05 R99, R100; 15 R334, R339), decode faults and the pacing check
(02 R48-R51, R55-R61), and the execution of a word for its context or the active lanes of its wave
(02 R54; 07 R162-R165).
-/

namespace Sys2Proof.Machine

/-! ### The places of a crew -/

/-- The layout table a place uses (05 R118). -/
def State.layOf (s : State) (p : Place) : List (Nat × Nat) :=
  match p with
  | .ctx cl c _ => (s.core (.scalar cl c)).lay
  | .lane cl e sl _ =>
    match s.wave? cl e sl with
    | some w => w.lay
    | none => []
  | .lctx _ _ _ => (s.thread p).lay

/-- Whether a thread runs (07 R160: present and unblocked). -/
def Thread.runs (t : Thread) : Bool := t.run == .running

/-- The running places of a crew. -/
def State.runners (s : State) (u : Crew) : List Place :=
  match u with
  | .ctx cl c k => if (s.thread (.ctx cl c k)).runs then [.ctx cl c k] else []
  | .wave cl e sl => (s.lanes cl e sl).filter fun p => (s.thread p).runs
  | .lctx l c k => if (s.thread (.lctx l c k)).runs then [.lctx l c k] else []

/-- The lowest pc of a list of places, as unsigned values (01 R20; 07 R163). -/
def State.minPc (s : State) : List Place → Option Word
  | [] => none
  | p :: ps =>
    let a := (s.thread p).pc
    match s.minPc ps with
    | some b => some (if b.toNat < a.toNat then b else a)
    | none => some a

/-- The places a crew would issue for: those running at the issuing pc (07 R162, R163). -/
def State.standing (s : State) (u : Crew) : List Place :=
  let r := s.runners u
  match s.minPc r with
  | some pc => r.filter fun p => (s.thread p).pc == pc
  | none => []

/-- The groups a crew has fetched. -/
def State.groups (s : State) (u : Crew) : List Group :=
  match u with
  | .ctx cl c k => (s.thread (.ctx cl c k)).fetch
  | .wave cl e sl =>
    match s.wave? cl e sl with
    | some w => w.fetch
    | none => []
  | .lctx l c k => (s.thread (.lctx l c k)).fetch

/-- The address of the aligned group of eight words that holds pc (05 R100). -/
def groupOf (pc : Word) : Word := pc - ofN (pc.toNat % 32)

/-- What stands next for a crew: a word; a fetch that faults with a cause; the firmware's default trap routine
(15 R339); nothing fetched yet. -/
inductive NextWord
  | word (w : W32)
  | bad (cause : Nat)
  | routine
  | none
  deriving DecidableEq, Repr

/-- What a crew finds at pc (02 R39; 05 R99, R100, R391). -/
def State.nextWord (s : State) (u : Crew) (p : Place) (pc : Word) : NextWord :=
  let t := s.thread p
  if t.mode && pc == Config.trapRoutine then .routine
  else if pc.toNat % 4 ≠ 0 then .bad Cause.access
  else match (s.groups u).find? (fun g => g.addr == groupOf pc && decide (g.clk < s.clk)) with
    | none => .none
    | some g =>
      if g.bad ≠ 0 then .bad g.bad
      else match g.words[(pc.toNat % 32) / 4]? with
        | some w => .word w
        | none => .none

/-- The instruction a word is; a word that is none raises illegal-instruction fault (02 R48). -/
def instrOf (w : W32) : Instr :=
  match decode w with
  | .ok i => i
  | .error _ => .illegalInstruction w

/-! ### Readiness -/

/-- Whether a register a word uses has an interlocked result under way, one held behind an older paced result among
them (02 R59; 05 R104; 07 R166). -/
def Thread.busyOn (t : Thread) (clk : Nat) (rs : List (RFile × Nat)) : Bool :=
  (t.busy.any fun b => decide (clk < b.2.2) && rs.contains (b.1, b.2.1)) ||
  t.pend.any fun w => w.inter && decide (clk < w.due) && rs.contains (w.file, w.reg)

/-- The registers a word uses at a place. -/
def usedRegs (i : Instr) (p : Place) (s : State) : List (RFile × Nat) :=
  let lay := s.layOf p
  (reads i (s.thread p) lay ++ writes i lay).filter (counts p.engine)

/-- The f operands a word reads and writes, for the conditions of R231 and R233. -/
def fOperands (rs : List (RFile × Nat)) : List Reg :=
  rs.filterMap fun r => if r.1 == .f then some (Fin.ofNat 32 r.2) else none

/-- Whether a word is PACE. -/
def isPace (i : Instr) : Bool :=
  match i with
  | .pace _ _ _ _ _ _ _ _ => true
  | _ => false

/-- Whether a word is GUARD or PACE (02 R48, R55). -/
def isControl (i : Instr) : Bool :=
  match i with
  | .guard _ _ _ => true
  | i => isPace i

/-- Whether a thread is guarded off (02 R55). -/
def Thread.off (t : Thread) : Bool := t.grem != 0 && !t.gcnd

/-- Whether a register of a list has a load, atomic or CAS in flight (05 R102; 07 R166). -/
def Thread.loadsOn (t : Thread) (rs : List (RFile × Nat)) : Bool :=
  t.loads.any fun a => rs.contains (a.file, a.reg)

/-- Whether a word reads or replaces FFLAGS and waits for the flags of the words before it (06 R144). -/
def flagsReady (i : Instr) (t : Thread) (clk : Nat) : Bool :=
  match i with
  | .sysr _ .fflags => decide (t.flagDue ≤ clk)
  | .sysw .fflags _ => decide (t.flagDue ≤ clk)
  | _ => true

/-- Whether the stream operands of a word let it issue (10 R231, R233); a guarded-off word pops and pushes
nothing and waits for none. -/
def streamReady (i : Instr) (t : Thread) : Bool :=
  t.off || t.fcheck (fOperands (info i).rd) (fOperands (info i).wr) != .notReady

/-- Whether a division may issue (05 R104; 06 R158; 07 R168). -/
def divReady (i : Instr) (p : Place) (s : State) : Bool :=
  match (info i).div with
  | 0 => true
  | d =>
    match p with
    | .lane cl e _ _ => decide (((s.cluster cl).divFree[e]?).getD 0 ≤ s.clk)
    | .ctx cl c _ =>
      let k := s.core (.scalar cl c)
      decide ((if d = 1 then k.divFree else k.fdivFree) ≤ s.clk)
    | .lctx l c _ =>
      let k := s.core (.landing l c)
      decide ((if d = 1 then k.divFree else k.fdivFree) ≤ s.clk)

/-- Whether a YIELD no longer holds its crew (15 R361). -/
def yieldOver (clk till : Nat) (for_ : List Nat) : Bool := decide (till ≤ clk) || for_.isEmpty

/-- Whether the share of a place is being saved: its threads issue no more (15 R348). -/
def State.interrupted (s : State) (p : Place) : Bool :=
  match s.shareOf? p with
  | some sh => sh.stopped
  | none => false

/-- Whether a context's control stands at its next word in this clk, issuable or not. -/
def ctxHere (s : State) (p : Place) : Bool :=
  let t := s.thread p
  t.runs && !s.interrupted p && decide (t.ready ≤ s.clk) && yieldOver s.clk t.yieldUntil t.yieldFor

/-! Words that memory order holds back (09 R206, R222, R223; 10 R233; 13 R303) -/

/-- Whether a word is a plain load or store of its thread, or names a line. -/
def isAccess (i : Instr) : Bool :=
  match i with
  | .ldB _ _ _ _ | .ldBu _ _ _ _ | .ldH _ _ _ _ | .ldHu _ _ _ _ | .ldW _ _ _ _ | .ldWu _ _ _ _ | .ldD _ _ _ _
  | .fld _ _ _ _ | .stB _ _ _ _ | .stH _ _ _ _ | .stW _ _ _ _ | .stD _ _ _ _ | .fst _ _ _ _ | .cflush _ _
  | .sbind _ _ | .tlarm _ _ => true
  | _ => false

/-- Whether a word is a store of its thread to an address an operand gives. -/
def isStore (i : Instr) : Bool :=
  match i with
  | .stB _ _ _ _ | .stH _ _ _ _ | .stW _ _ _ _ | .stD _ _ _ _ | .fst _ _ _ _ => true
  | _ => false

/-- Whether a word is an acquire of its thread (13 Table 13-1; 09 R222). -/
def isAcquire (i : Instr) : Bool :=
  match i with
  | .lda _ _ _ _ _ | .tlwait _ _ _ | .galloc _ _ _ | .gtry _ _ _ | .gtake _ _ | .wwait _ | .mbwait _ _ | .qget _ _
  | .qpeek _ _ | .dqpop _ | .dqsteal _ _ | .barw _ _ _ => true
  | _ => false

/-- Whether a word is an AMERGE, which waits for no earlier merge (09 R223). -/
def isMerge (i : Instr) : Bool :=
  match i with
  | .amergeI _ _ _ _ | .amergeF _ _ _ => true
  | _ => false

/-- The widest scope at which a word is a release of its thread (13 Table 13-1; 09 R222, R223; 14 R322). -/
def releaseScope (i : Instr) : Option Scope :=
  match i with
  | .strel _ c _ _ _ | .fence c | .atomAdd _ c _ _ _ | .atomMin _ c _ _ _ | .atomMax _ c _ _ _ | .atomMinu _ c _ _ _
  | .atomMaxu _ c _ _ _ | .atomAnd _ c _ _ _ | .atomOr _ c _ _ _ | .atomXor _ c _ _ _ | .atomSwap _ c _ _ _
  | .cas _ c _ _ _ | .amergeI _ c _ _ | .amergeF c _ _ | .dqpush c _ _ _ | .bar c _ _ | .bara c _ _ => some c
  | .tcopy _ _ | .wldp _ _ _ _ _ | .wldt _ _ _ _ _ | .wmul _ _ _ _ | .wmac _ _ _ _ | .wext _ _ _ | .wrot _ _ _
  | .wmacr _ _ _ _ _ | .wsta _ _ | .wzero _ _ | .wzeroZ _ | .wmov _ _ | .wunpk _ _ _ | .wshft _ _ _ _ => some .die
  | .gseal _ | .gdone _ | .gdrop _ _ | .msend _ _ | .rput _ _ => some .pkg
  | .mbpost _ _ _ | .exit _ => some .cl
  | .pginv _ => some .sys
  | _ => none

/-- Whether a store has come as far as a release at a scope asks. -/
def Store.reached (e : Store) (sc : Scope) : Bool :=
  let l := if e.merge = 0 then e.level sc else 3
  decide (l < 3) && decide (l ≤ e.stage.rank)

/-- Whether what a word is ordered behind has been performed: atomics before a later access, pushed elements before a
store, merges before an acquire, and before a release the thread's accesses (09 R206, R222, R223; 10 R233; 13 R303;
log 64). -/
def orderReady (i : Instr) (p : Place) (s : State) : Bool :=
  let t := s.thread p
  let rel := releaseScope i
  let mine := s.stores.filter fun e => e.place == p
  (!(isAccess i || isAcquire i || rel.isSome) || !t.loads.any (fun a => a.val.isNone && a.atomic)) &&
  (!isStore i || !t.pushing) &&
  (!isAcquire i || mine.all fun e => e.merge == 0) &&
  (match rel with
   | none => true
   | some sc =>
     t.loads.all (fun a => a.val.isSome) &&
     s.stores.all fun e =>
       !((e.place == p && (e.merge == 0 || !isMerge i)) || (e.merge == 0 && passedOn p t.acq e)) || e.reached sc)

/-- Whether a word's registers, flags, streams and divider, and memory order, let a thread execute it (05 R102; 06 R144;
10 R231). -/
def wordReady (i : Instr) (p : Place) (s : State) : Bool :=
  let t := s.thread p
  !t.busyOn s.clk (usedRegs i p s) && !t.loadsOn (usedRegs i p s) && flagsReady i t s.clk &&
    streamReady i t && divReady i p s && (t.off || orderReady i p s)

/-- Whether a context is ready (05 R102). A word that cannot be fetched is not issued (R100). -/
def ctxReady (s : State) (p : Place) : Bool :=
  ctxHere s p &&
  (match s.nextWord p.crew p (s.thread p).pc with
   | .none => false
   | .bad _ => false
   | .routine => true
   | .word w => wordReady (instrOf w) p s)

/-- The PACE stall a lane holds for its next word (02 R58). -/
def Thread.stall (t : Thread) : Nat := t.pace.head?.getD 0

/-- The thread at a place with its latest completed writes (07 R170). -/
def State.settled (s : State) (p : Place) : Thread :=
  match p.engine with
  | .lane => (s.thread p).land s.clk
  | .scalar => s.thread p
  | .landing => s.thread p

/-- The registers a word reads at a place. -/
def readRegs (i : Instr) (p : Place) (s : State) : List (RFile × Nat) :=
  (reads i (s.settled p) (s.layOf p)).filter (counts p.engine)

/-- Whether every interlocked result that a word reads has landed in an active lane, the flags it reads have been set,
and memory order lets it issue (06 R144; 07 R166). -/
def laneReady (i : Instr) (p : Place) (s : State) : Bool :=
  let t := s.thread p
  (t.off && !isControl i) ||
    (!t.busyOn s.clk (readRegs i p s) && !t.loadsOn (readRegs i p s) && flagsReady i t s.clk && orderReady i p s)

/-- Whether a wave is ready (07 R166). A word that cannot be fetched is not issued (05 R100). -/
def waveReady (s : State) (cl e sl : Nat) : Bool :=
  match s.wave? cl e sl with
  | none => false
  | some w =>
    let ls := s.standing (.wave cl e sl)
    match ls with
    | [] => false
    | p :: _ =>
      let pc := (s.thread p).pc
      yieldOver s.clk w.yieldUntil w.yieldFor && !s.interrupted p &&
      (match s.nextWord (.wave cl e sl) p pc with
       | .none => false
       | .bad _ => false
       | .routine => decide ((if pc = w.nextPc then w.lastClk + 1 else w.lastClk + 3) ≤ s.clk)
       | .word x =>
         let i := instrOf x
         isPace i ||
         (decide (w.lastClk + 1 + ls.foldl (fun m q => max m (s.thread q).stall) 0 ≤ s.clk) &&
          decide ((if pc = w.nextPc then w.lastClk + 1 else w.lastClk + 3) ≤ s.clk) &&
          ls.all (fun q => laneReady i q s) && divReady i p s))

/-- The contexts of a core in the order the issue pointer gives (05 R103). -/
def issueOrder (iptr : Nat) : List Nat := (List.range 4).map fun j => (iptr + j) % 4

/-- Whether context k is the one the core issues (01 R19; 05 R103, R106). -/
def coreIssues (s : State) (c : CoreId) (k : Nat) : Bool :=
  decide ((s.core c).nextIssue ≤ s.clk) &&
  (issueOrder (s.core c).iptr).find? (fun j => ctxReady s (c.place j)) == some k

/-- Whether a cluster skips issue in this clk for current, heat or droop (17 R373, R374; log 11). -/
def skips (s : State) (cl : Nat) : Bool :=
  (s.pkg.skip && s.clk % 4 == 0) || ((s.cluster cl).hot && s.clk % 2 == 0) ||
    decide (s.clk < (s.cluster cl).skipUntil)

/-- Whether the turn's crew is the one that issues now (05 R103; 07 R167). -/
def canIssue (s : State) (u : Crew) : Bool :=
  match u with
  | .ctx cl c k => !skips s cl && coreIssues s (.scalar cl c) k
  | .lctx l c k => coreIssues s (.landing l c) k
  | .wave cl e sl =>
    !skips s cl && decide (((s.cluster cl).engNext[e]?).getD 0 ≤ s.clk) && waveReady s cl e sl &&
    (List.range 16).all fun j =>
      j == sl || !waveReady s cl e j ||
        (match s.wave? cl e j, s.wave? cl e sl with
         | some a, some b => decide (b.num < a.num)
         | _, _ => true)

/-! ### Ends of words -/

/-- The end of a word, with every access of the thread in flight performed before a trap is taken
(02 R61; 15 R333). -/
def finishAt (p : Place) (i : Instr) (pc : Word) (before : Nat) (r : Res) : State :=
  match r with
  | .trap s c v => finish p i pc before (.trap (forceLoads p s) c v)
  | .trapNext s c v => finish p i pc before (.trapNext (forceLoads p s) c v)
  | r => finish p i pc before r

/-- Perform and land the accesses in flight whose register a word uses (02 R59, R61). -/
def forceRegs (i : Instr) (p : Place) (s : State) : State :=
  let rs := usedRegs i p s
  ((s.thread p).loads.filter fun a => rs.contains (a.file, a.reg)).foldl
    (fun s a => settleAccess p a.n s) s

/-! ### Decode faults and the pacing check -/

/-- The word of an instruction, as EVAL holds it (02 R49). -/
def wordOf (i : Instr) : Word :=
  match i with
  | .illegalInstruction w => w.setWidth 64
  | i =>
    match encode i with
    | some w => w.setWidth 64
    | none => 0

/-- Whether a word is none in a lane or where it stands (02 R48). -/
def illegalAt (i : Instr) (p : Place) (t : Thread) : Bool :=
  (match i with
   | .illegalInstruction _ => true
   | i => isControl i && t.grem != 0) ||
  (p.engine == .lane && (info i).regs.any fun r => decide (24 ≤ r.val))

/-- Whether the engine of a place runs a word (02 Table 02-7). -/
def engineRuns (i : Instr) (e : Engine) : Bool :=
  match e with
  | .scalar => true
  | .lane => (info i).lane
  | .landing => (info i).landing

/-- The decode fault of a word, in the order of 02 R49; an operation reports one fault (00 R5). -/
def decodeFault (i : Instr) (p : Place) (t : Thread) : Option Nat :=
  if illegalAt i p t then some Cause.illegal
  else if (info i).priv && !t.mode then some Cause.privilege
  else if !engineRuns i p.engine then some Cause.engine
  else none

/-- The number of a register file in a pacing trap's EVAL (02 R60). -/
def RFile.num : RFile → Nat
  | .x => 0
  | .f => 1
  | .p => 2

/-- The source lane of a VSHFL, as an integer (07 R172). -/
def shflLane (m : Shfl) (i : Nat) (t : Word) : Int :=
  match m with
  | .idx => t.toNat
  | .up => (i : Int) - t.toNat
  | .down => (i : Int) + t.toNat
  | .xor => Nat.xor i (wbits t 5 0)

/-- The registers of active lanes that a word reads for the lane at p: VSHFL reads register a of its source lane, where
that is active, and its own where KEEP has no source (07 R170, R172). -/
def pacedRegs (i : Instr) (act : List Place) (p : Place) (s : State) : List (RFile × Nat) :=
  match i, p with
  | .vshfl m keep fp _ _ a b, .lane cl e sl _ =>
    let j := shflLane m p.laneNum ((s.settled p).getX b)
    let here := fun (l : List Place) => l.any fun q => decide (j = (q.laneNum : Int))
    (.x, b.val) ::
      (if here act || (keep && !here (s.lanes cl e sl)) then [(if fp then .f else .x, a.val)] else [])
  | i, p => readRegs i p s

/-- The first register that a word of a wave reads early in its active lanes: one whose latest paced write by any lane
has not had its latency (02 R60; 07 R170; log 9). A write held behind an older one has not had its latency until it
lands (02 R61; log 90). Where a word reads several registers early, EVAL names the first in the order in which its entry
reads them, for which the manual gives no order. DESIGN CHOICE (log 78). -/
def earlyRead (i : Instr) (act : List Place) (p : Place) (s : State) : Option (RFile × Nat) :=
  match p with
  | .lane cl e sl _ =>
    match s.wave? cl e sl with
    | none => none
    | some w =>
      if !w.chksb then none
      else
        let pend := (s.lanes cl e sl).flatMap fun q =>
          let t := s.thread q
          t.pend.filterMap fun x =>
            if s.clk < x.due && !t.busyOn s.clk [(x.file, x.reg)] then some (x.file, x.reg) else none
        ((p :: act).flatMap fun q => pacedRegs i act q s).find? fun r => pend.contains r
  | .ctx _ _ _ => none
  | .lctx _ _ _ => none

/-! ### Executing a word -/

/-- The decode fault of a word at a place: in a wave the first in the order of 02 R49 that any active lane
meets, which every active lane then takes (02 R49; 07 R165; log 79). -/
def wordFault (i : Instr) (c : Ctx) (p : Place) : Option Nat :=
  match p with
  | .lane _ _ _ _ =>
    let fs := c.act.filterMap fun q => decodeFault i q (c.pre.thread q)
    [Cause.illegal, Cause.privilege, Cause.engine].find? fun f => fs.contains f
  | .ctx _ _ _ => decodeFault i p (c.pre.thread p)
  | .lctx _ _ _ => decodeFault i p (c.pre.thread p)

/-- A word for one thread that stands at it: counted only, when guarded off; a decode fault; the pacing
trap; or its meaning (02 R49, R55, R60; 15 R336). A GUARD or PACE word in a GUARD range faults though the
lane is guarded off, as 02 R55 says (log 80). -/
def runOne (i : Instr) (body : Body) (c : Ctx) (p : Place) (s : State) : Res :=
  let t := s.thread p
  if t.off && !isControl i then .ok s
  else match wordFault i c p with
    | some f => .trap s f (wordOf i)
    | none =>
      match earlyRead i c.act p c.pre with
      | some r => .trap s Cause.pacing (ofN (r.1.num * 256 + r.2))
      | none => body c p s

/-- Whether a word may set flags in FFLAGS (06 R140-R157; 07 R171). -/
def setsFlags (i : Instr) : Bool :=
  match i with
  | .fcmp _ _ _ _ => true
  | .vred op _ _ => op.float
  | .vscan op _ _ _ => op.float
  | .vquant _ _ _ _ => true
  | .vdeq _ _ _ => true
  | .vshfl _ _ _ _ _ _ _ => false
  | .fld _ _ _ _ => false
  | .fst _ _ _ _ => false
  | .amergeF _ _ _ => false
  | .fmvXf _ _ _ => false
  | .fmvFx _ _ _ => false
  | .fclass _ _ _ => false
  | i => (info i).rd.any (fun r => r.1 == .f) || (info i).wr.any (fun r => r.1 == .f)

/-- The clk until the result of a word stands, at a place. -/
def latOf (i : Instr) (p : Place) : Nat :=
  match p.engine with
  | .lane => (info i).wlat
  | .scalar => (info i).lat
  | .landing => (info i).lat

/-- How long the results of a word make later words wait at a place: in a lane only interlocked ones do
(05 R104; 07 R169). -/
def busyLat (i : Instr) (p : Place) : Nat :=
  match p.engine with
  | .lane => if (info i).inter then (info i).wlat else 0
  | .scalar => (info i).lat
  | .landing => (info i).lat

/-- The results of a word that make later words wait: on scalar and landing cores every result, in a
lane the interlocked ones that have a latency, which stand behind older paced ones (02 R61); and the flags it sets
(05 R104; 06 R144; 07 R169). -/
def markBusy (i : Instr) (p : Place) (r : Res) (s : State) : State :=
  match r with
  | .ok c =>
    if (c.thread p).off && !isControl i then s
    else
      let s := if setsFlags i then s.modThread p fun t => { t with flagDue := max t.flagDue (s.clk + latOf i p) } else s
      if busyLat i p ≤ 1 then s
      else
      let lay := s.layOf p
      s.modThread p fun t =>
        { t with busy := t.busy.filter (fun b => decide (s.clk < b.2.2)) ++
            ((writes i lay).filter (counts p.engine)).map fun x =>
              (x.1, x.2, dueAfter x.1 x.2 (s.clk + busyLat i p) t.pend) }
  | _ => s

/-- The state with the divider taken by a division word. -/
def takeDivider (i : Instr) (p : Place) (s : State) : State :=
  match (info i).div with
  | 0 => s
  | d =>
    match p with
    | .lane cl e _ _ => s.modCluster cl fun x =>
        { x with divFree := x.divFree.set e (s.clk + (info i).wlat) }
    | .ctx cl c _ => s.modCore (.scalar cl c) fun k =>
        if d = 1 then { k with divFree := s.clk + (info i).lat } else { k with fdivFree := s.clk + (info i).lat }
    | .lctx l c _ => s.modCore (.landing l c) fun k =>
        if d = 1 then { k with divFree := s.clk + (info i).lat } else { k with fdivFree := s.clk + (info i).lat }

/-- The state with context k of a core having issued in this clk (05 R103; 15 R361). -/
def coreIssued (c : CoreId) (k : Nat) (s : State) : State :=
  let s := s.modCore c fun x => { x with iptr := (k + 1) % 4, nextIssue := s.clk + 1 }
  (List.range 4).foldl (fun s j =>
    let q := c.place j
    match s.thread? q with
    | some t => if t.yieldFor.contains k then s.setThread q { t with yieldFor := t.yieldFor.filter (· != k) } else s
    | none => s) s

/-- Whether a word's execution completes, its pc advancing. -/
def Res.completes : Res → Bool
  | .ok _ => true
  | .jump _ _ => false
  | .eret _ _ => false
  | .trap _ _ _ => false
  | .trapNext _ _ _ => false
  | .wait _ _ => false
  | .left _ => false

/-- A word executed by a context. -/
def issueCtx (i : Instr) (body : Body) (p : Place) (c : CoreId) (k : Nat) (s : State) : State :=
  let s := s.modThread p fun t => { t with entered := false, lastPc := some t.pc }
  let s := forceRegs i p s
  let t := s.thread p
  let r := runOne i body { act := [p], pre := s } p s
  let s' := markBusy i p r (finishAt p i t.pc t.grem r)
  coreIssued c k (if t.off || !r.completes then s' else takeDivider i p s')

/-- The state with a wave's issue recorded: a PACE word takes no issue cycle (02 R58; 07 R166). -/
def waveIssued (i : Instr) (cl e sl : Nat) (pc : Word) (s : State) : State :=
  if isPace i then
    s.modWave cl e sl fun w => { w with nextPc := if w.nextPc = pc then pc + 4 else w.nextPc, lastPc := some pc }
  else
    let s := s.modWave cl e sl fun w => { w with lastClk := s.clk, nextPc := pc + 4, lastPc := some pc }
    let s := s.modCluster cl fun x => { x with engNext := x.engNext.set e (s.clk + 1) }
    (List.range 16).foldl (fun s j =>
      s.modWave cl e j fun w => { w with yieldFor := w.yieldFor.filter (· != sl) }) s

/-- The unblocked lanes of a wave with what is due landed (02 R59). A blocked lane's word goes on with the
operands it had at issue, so what falls due in it meanwhile lands when it runs again. -/
def landWave (cl e sl : Nat) (s : State) : State :=
  (s.runners (.wave cl e sl)).foldl (fun s p => s.modThread p fun t => t.land s.clk) s

/-- The lanes that execute a word: not guarded off, or the word is GUARD or PACE (02 R55). -/
def activeOf (i : Instr) (ls : List Place) (s : State) : List Place :=
  ls.filter fun p => !((s.thread p).off && !isControl i)

/-- What every lane at the issuing pc does before the word: a count of its PACE run, and no fresh trap
entry any more. -/
def prepLanes (i : Instr) (ls : List Place) (s : State) : State :=
  ls.foldl (fun s p =>
    let s' := s.modThread p fun t => { t with entered := false, pace := if isPace i then t.pace else t.pace.tail }
    if (s.thread p).off && !isControl i then s' else forceRegs i p s') s

/-- A word executed by a wave: `run` carries it out for the lanes at the issuing pc, of which those
given are active. -/
def issueWave (i : Instr) (run : Ctx → List Place → State → State) (cl e sl : Nat) (s : State) : State :=
  let s := landWave cl e sl s
  let ls := s.standing (.wave cl e sl)
  match ls with
  | [] => s
  | p :: _ =>
    let pc := (s.thread p).pc
    let s := prepLanes i ls s
    let act := activeOf i ls s
    let s' := run { act := act, pre := s } ls s
    let s' := if act.any (fun q => (s'.thread q).runs && !(s'.thread q).entered) then takeDivider i p s' else s'
    waveIssued i cl e sl pc s'

/-- A word for each lane at the pc in ascending order (07 R165). -/
def runLanes (i : Instr) (body : Body) (c : Ctx) (ls : List Place) (s : State) : State :=
  ls.foldl (fun s p =>
    let t := s.thread p
    let r := runOne i body c p s
    markBusy i p r (finishAt p i t.pc t.grem r)) s

/-- A waiting word looked at again: its meaning goes on for the one thread (07 R161). A division takes the divider
where it completes, and waits for it (06 R158; 07 R168). -/
def resumeWord (i : Instr) (body : Body) (p : Place) (s : State) : State :=
  let t := s.thread p
  match t.run with
  | .wait j _ =>
    if j ≠ i || !divReady i p s then s
    else
      let r := body { act := [p], pre := s } p s
      let s' := markBusy i p r (finishAt p i t.pc t.grem r)
      if r.completes then takeDivider i p s' else s'
  | .running => s
  | .idle => s
  | .retired => s
  | .fetchSleep => s

/-- The execution of a word at the present turn: for the crew that issues it, or for the waiting thread
that looks again. At any other turn no thread issues, and there is nothing to execute. -/
def issueWord (i : Instr) (body : Body) (s : State) : Host.Outcome State Fault Refusal :=
  match s.turn with
  | .issue (.ctx cl c k) _ =>
    if (s.thread (.ctx cl c k)).runs then .next (issueCtx i body (.ctx cl c k) (.scalar cl c) k s)
    else .fault .noThread
  | .issue (.lctx l c k) _ =>
    if (s.thread (.lctx l c k)).runs then .next (issueCtx i body (.lctx l c k) (.landing l c) k s)
    else .fault .noThread
  | .issue (.wave cl e sl) _ =>
    if (s.standing (.wave cl e sl)).isEmpty then .fault .noThread
    else .next (issueWave i (runLanes i body) cl e sl s)
  | .resume p =>
    if (s.thread? p).isSome then .next (resumeWord i body p s) else .fault .noThread
  | .tick => .fault .noThread
  | .act _ => .fault .noThread
  | .move _ => .fault .noThread

/-! ### Fetch faults and the default trap routine -/

/-- A fetch fault of the thread at p at its pc, with its cause; on the first word of a trap vector it ends the thread
with trap-vector fault, recording the fault that led there (05 R99; 15 R334). -/
def fetchFault (cause : Nat) (p : Place) (s : State) : State :=
  let s := forceLoads p s
  let t := s.thread p
  if t.entered then
    let c := t.cause.toNat
    startEnding p (endValue c) (recordFault p t.epc t.eval c s)
  else trapEnter p cause t.pc t.pc s

/-- The default trap routine for the thread at p, as one step (15 R339; 18 R383; log 49). -/
def routineStep (p : Place) (s : State) : State :=
  let s := forceLoads p (s.modThread p fun t => { t.landAll with entered := false })
  let t := s.thread p
  if t.cause.toNat = Cause.trap ∧ t.eval = 1 then
    let v := t.getX 2
    let s := if canonical v && v.toNat % 4 == 0
      then s.modShare t.gang t.rank fun sh => { sh with tvec := v } else s
    let e := t.epc
    (trapReturn p s).modThread p fun t => t.goto s.clk e
  else
    startEnding p (endValue t.cause.toNat) (recordFault p t.epc t.eval t.cause.toNat s)

/-- Whether a crew's control has reached a word that cannot be fetched (05 R100; 07 R166). -/
def fetchStuck (s : State) (u : Crew) : Bool :=
  match u with
  | .ctx cl c k => ctxHere s (.ctx cl c k)
  | .lctx l c k => ctxHere s (.lctx l c k)
  | .wave cl e sl =>
    match s.wave? cl e sl, s.standing (.wave cl e sl) with
    | some w, p :: _ => yieldOver s.clk w.yieldUntil w.yieldFor && !s.interrupted p
    | _, _ => false

/-- What happens to every place where a crew stands: a fetch fault, with which nothing issues. -/
def eachStanding (u : Crew) (f : Place → State → State) (s : State) : State :=
  (s.standing u).foldl (fun s p => f p s) s

/-- The default trap routine for every place where a crew stands, which takes the crew's issue. -/
def forStanding (u : Crew) (f : Place → State → State) (s : State) : State :=
  let ls := s.standing u
  let s' := eachStanding u f s
  match u with
  | .ctx cl c k => coreIssued (.scalar cl c) k s'
  | .lctx l c k => coreIssued (.landing l c) k s'
  | .wave cl e sl =>
    match s.minPc ls with
    | some pc => waveIssued (.yield) cl e sl pc s'
    | none => s'

/-! ### Waits that end -/

/-- A waiting thread whose word has ended issues no word in the same clk (05 R103, R104). -/
def heldOver (p : Place) : Host.Outcome State Fault Refusal → Host.Outcome State Fault Refusal
  | .next s => .next (s.modThread p fun t => { t with ready := max t.ready (s.clk + 1) })
  | .fault f => .fault f
  | .refused r => .refused r

/-- A fetch of a sleeping crew looked at again: its walk was killed, is to be tried again, or is still
out (05 R99; 15 R345). The lanes of a wave that sleep at one pc share the walk of the lowest. -/
def wakeFetch (p : Place) (s : State) : State :=
  let pc := (s.thread p).pc
  let ps := match p with
    | .lane cl e sl _ => (s.lanes cl e sl).filter fun q =>
        (s.thread q).run == Run.fetchSleep && (s.thread q).pc == pc
    | .ctx _ _ _ => [p]
    | .lctx _ _ _ => [p]
  match s.misses.find? (fun m => ps.any fun q => m.asker == Asker.thread q) with
  | none => ps.foldl (fun s q => s.modThread q fun t => { t with run := .running }) s
  | some m =>
    match m.st with
    | .killed => ps.foldl (fun s q => fetchFault Cause.access q s) (dropMiss m.asker s)
    | .fresh => s
    | .token _ => s

/-- A thread asleep on a page fault looked at again: the access is killed, still out, or to be made
again, for which `again` executes the word (15 R345). -/
def wakeSleep (p : Place) (i : Instr) (again : State → Host.Outcome State Fault Refusal) (s : State) :
    Host.Outcome State Fault Refusal :=
  match s.missOf (.thread p) with
  | none => again s
  | some m =>
    match m.st with
    | .killed =>
      let t := s.thread p
      .next (finishAt p i t.pc t.grem (.trap (dropMiss (.thread p) s) Cause.access m.va))
    | .fresh => .next s
    | .token _ => .next s

end Sys2Proof.Machine
end

