-- ==== Sys2Proof/Machine/Alu.lean ====
section
/-!
DEFINITION. The ALU class (05 R107-R109).
-/

namespace Sys2Proof.Machine

/-! ### Values (05 Table 05-2) -/

/-- sa of a register. -/
def sgn (a : Word) : Int := sext a.toNat 64

/-- The amount of a register shift: the low six bits. -/
def amount (b : Word) : Nat := b.toNat % 64

/-- SHL by n. -/
def shlV (a : Word) (n : Nat) : Word := ofN (a.toNat * 2 ^ n)
/-- SHR by n. -/
def shrV (a : Word) (n : Nat) : Word := ofN (a.toNat / 2 ^ n)
/-- SAR by n. -/
def sarV (a : Word) (n : Nat) : Word := ofI (sgn a / 2 ^ n)
/-- ROL by n: bit i is bit (i − n) mod 64 of a. -/
def rolV (a : Word) (n : Nat) : Word := a.rotateLeft n
/-- ROR by n. -/
def rorV (a : Word) (n : Nat) : Word := a.rotateRight n
/-- MULH. -/
def mulhV (a b : Word) : Word := ofI (sgn a * sgn b / 2 ^ 64)
/-- MULHU. -/
def mulhuV (a b : Word) : Word := ofN (a.toNat * b.toNat / 2 ^ 64)
/-- DIV (R109). -/
def divV (a b : Word) : Word :=
  if b = 0 then ofI (-1)
  else if sgn a = -2 ^ 63 ∧ sgn b = -1 then a
  else ofI (Int.tdiv (sgn a) (sgn b))
/-- DIVU (R109). -/
def divuV (a b : Word) : Word := if b = 0 then ofN (2 ^ 64 - 1) else ofN (a.toNat / b.toNat)
/-- REM (R109). -/
def remV (a b : Word) : Word :=
  if b = 0 then a
  else if sgn a = -2 ^ 63 ∧ sgn b = -1 then 0
  else ofI (sgn a - sgn b * Int.tdiv (sgn a) (sgn b))
/-- REMU (R109). -/
def remuV (a b : Word) : Word := if b = 0 then a else ofN (a.toNat % b.toNat)
/-- Sign extension from w bits. -/
def sextV (a : Word) (w : Nat) : Word := ofI (sext a.toNat w)
/-- Zero extension from w bits. -/
def zextV (a : Word) (w : Nat) : Word := ofN (zext a.toNat w)
/-- A truth value as 1 or 0. -/
def boolV (b : Bool) : Word := if b then 1 else 0
/-- CLZ. -/
def clzV (a : Word) : Word := ofN (64 - bitLen a.toNat)
/-- CTZ. -/
def ctzV (a : Word) : Word := ofN (ctzN 64 a.toNat)
/-- POP. -/
def popV (a : Word) : Word := ofN (popCount 64 a.toNat)
/-- BREV. -/
def brevV (a : Word) : Word := ofN (bitRev 64 a.toNat)
/-- BSWAP. -/
def bswapV (a : Word) : Word := ofN (byteRev 8 a.toNat)

/-- The field of len bits at pos, bits above 63 reading 0 (R115). -/
def fieldV (x : Word) (pos len : Nat) : Nat := x.toNat / 2 ^ pos % 2 ^ len

/-! ### Words -/

/-- A word that writes xd with a value of xa and xb. -/
def wordXXX (i : Instr) (d a b : Reg) (f : Word → Word → Word) (s : State) :
    Host.Outcome State Fault Refusal :=
  issueWord i (fun _ p s => .ok (setX p (info i).wlat d (f (getX p a s) (getX p b s)) s)) s

/-- A word that writes xd with a value of xa. -/
def wordXX (i : Instr) (d a : Reg) (f : Word → Word) (s : State) :
    Host.Outcome State Fault Refusal :=
  issueWord i (fun _ p s => .ok (setX p (info i).wlat d (f (getX p a s)) s)) s

/-- ADD (R108, R109). -/
def execAdd (d a b : Reg) (s : State) : Host.Outcome State Fault Refusal :=
  wordXXX (.add d a b) d a b (fun a b => a + b) s

/-- SUB (R108, R109). -/
def execSub (d a b : Reg) (s : State) : Host.Outcome State Fault Refusal :=
  wordXXX (.sub d a b) d a b (fun a b => a - b) s

/-- AND (R108, R109). -/
def execAnd (d a b : Reg) (s : State) : Host.Outcome State Fault Refusal :=
  wordXXX (.and d a b) d a b (fun a b => a &&& b) s

/-- OR (R108, R109). -/
def execOr (d a b : Reg) (s : State) : Host.Outcome State Fault Refusal :=
  wordXXX (.or d a b) d a b (fun a b => a ||| b) s

/-- XOR (R108, R109). -/
def execXor (d a b : Reg) (s : State) : Host.Outcome State Fault Refusal :=
  wordXXX (.xor d a b) d a b (fun a b => a ^^^ b) s

/-- ANDN (R108, R109). -/
def execAndn (d a b : Reg) (s : State) : Host.Outcome State Fault Refusal :=
  wordXXX (.andn d a b) d a b (fun a b => a &&& ~~~b) s

/-- ORN (R108, R109). -/
def execOrn (d a b : Reg) (s : State) : Host.Outcome State Fault Refusal :=
  wordXXX (.orn d a b) d a b (fun a b => a ||| ~~~b) s

/-- XNOR (R108, R109). -/
def execXnor (d a b : Reg) (s : State) : Host.Outcome State Fault Refusal :=
  wordXXX (.xnor d a b) d a b (fun a b => ~~~(a ^^^ b)) s

/-- SHL (R108, R109). -/
def execShl (d a b : Reg) (s : State) : Host.Outcome State Fault Refusal :=
  wordXXX (.shl d a b) d a b (fun a b => shlV a (amount b)) s

/-- SHR (R108, R109). -/
def execShr (d a b : Reg) (s : State) : Host.Outcome State Fault Refusal :=
  wordXXX (.shr d a b) d a b (fun a b => shrV a (amount b)) s

/-- SAR (R108, R109). -/
def execSar (d a b : Reg) (s : State) : Host.Outcome State Fault Refusal :=
  wordXXX (.sar d a b) d a b (fun a b => sarV a (amount b)) s

/-- ROL (R108, R109). -/
def execRol (d a b : Reg) (s : State) : Host.Outcome State Fault Refusal :=
  wordXXX (.rol d a b) d a b (fun a b => rolV a (amount b)) s

/-- ROR (R108, R109). -/
def execRor (d a b : Reg) (s : State) : Host.Outcome State Fault Refusal :=
  wordXXX (.ror d a b) d a b (fun a b => rorV a (amount b)) s

/-- MUL (R108, R109). -/
def execMul (d a b : Reg) (s : State) : Host.Outcome State Fault Refusal :=
  wordXXX (.mul d a b) d a b (fun a b => a * b) s

/-- MULH (R108, R109). -/
def execMulh (d a b : Reg) (s : State) : Host.Outcome State Fault Refusal :=
  wordXXX (.mulh d a b) d a b (mulhV) s

/-- MULHU (R108, R109). -/
def execMulhu (d a b : Reg) (s : State) : Host.Outcome State Fault Refusal :=
  wordXXX (.mulhu d a b) d a b (mulhuV) s

/-- DIV (R108, R109). -/
def execDiv (d a b : Reg) (s : State) : Host.Outcome State Fault Refusal :=
  wordXXX (.div d a b) d a b (divV) s

/-- DIVU (R108, R109). -/
def execDivu (d a b : Reg) (s : State) : Host.Outcome State Fault Refusal :=
  wordXXX (.divu d a b) d a b (divuV) s

/-- REM (R108, R109). -/
def execRem (d a b : Reg) (s : State) : Host.Outcome State Fault Refusal :=
  wordXXX (.rem d a b) d a b (remV) s

/-- REMU (R108, R109). -/
def execRemu (d a b : Reg) (s : State) : Host.Outcome State Fault Refusal :=
  wordXXX (.remu d a b) d a b (remuV) s

/-- MIN (R108, R109). -/
def execMin (d a b : Reg) (s : State) : Host.Outcome State Fault Refusal :=
  wordXXX (.min d a b) d a b (fun a b => if sgn a ≤ sgn b then a else b) s

/-- MAX (R108, R109). -/
def execMax (d a b : Reg) (s : State) : Host.Outcome State Fault Refusal :=
  wordXXX (.max d a b) d a b (fun a b => if sgn b ≤ sgn a then a else b) s

/-- MINU (R108, R109). -/
def execMinu (d a b : Reg) (s : State) : Host.Outcome State Fault Refusal :=
  wordXXX (.minu d a b) d a b (fun a b => if a.toNat ≤ b.toNat then a else b) s

/-- MAXU (R108, R109). -/
def execMaxu (d a b : Reg) (s : State) : Host.Outcome State Fault Refusal :=
  wordXXX (.maxu d a b) d a b (fun a b => if b.toNat ≤ a.toNat then a else b) s

/-- SLT (R108, R109). -/
def execSlt (d a b : Reg) (s : State) : Host.Outcome State Fault Refusal :=
  wordXXX (.slt d a b) d a b (fun a b => boolV (decide (sgn a < sgn b))) s

/-- SLTU (R108, R109). -/
def execSltu (d a b : Reg) (s : State) : Host.Outcome State Fault Refusal :=
  wordXXX (.sltu d a b) d a b (fun a b => boolV (decide (a.toNat < b.toNat))) s

/-- CLZ (R108). -/
def execClz (d a : Reg) (s : State) : Host.Outcome State Fault Refusal :=
  wordXX (.clz d a) d a (clzV) s

/-- CTZ (R108). -/
def execCtz (d a : Reg) (s : State) : Host.Outcome State Fault Refusal :=
  wordXX (.ctz d a) d a (ctzV) s

/-- POP (R108). -/
def execPop (d a : Reg) (s : State) : Host.Outcome State Fault Refusal :=
  wordXX (.pop d a) d a (popV) s

/-- BREV (R108). -/
def execBrev (d a : Reg) (s : State) : Host.Outcome State Fault Refusal :=
  wordXX (.brev d a) d a (brevV) s

/-- BSWAP (R108). -/
def execBswap (d a : Reg) (s : State) : Host.Outcome State Fault Refusal :=
  wordXX (.bswap d a) d a (bswapV) s

/-- SEXT.B (R108). -/
def execSextB (d a : Reg) (s : State) : Host.Outcome State Fault Refusal :=
  wordXX (.sextB d a) d a (fun a => sextV a 8) s

/-- SEXT.H (R108). -/
def execSextH (d a : Reg) (s : State) : Host.Outcome State Fault Refusal :=
  wordXX (.sextH d a) d a (fun a => sextV a 16) s

/-- SEXT.W (R108). -/
def execSextW (d a : Reg) (s : State) : Host.Outcome State Fault Refusal :=
  wordXX (.sextW d a) d a (fun a => sextV a 32) s

/-- ZEXT.B (R108). -/
def execZextB (d a : Reg) (s : State) : Host.Outcome State Fault Refusal :=
  wordXX (.zextB d a) d a (fun a => zextV a 8) s

/-- ZEXT.H (R108). -/
def execZextH (d a : Reg) (s : State) : Host.Outcome State Fault Refusal :=
  wordXX (.zextH d a) d a (fun a => zextV a 16) s

/-- ZEXT.W (R108). -/
def execZextW (d a : Reg) (s : State) : Host.Outcome State Fault Refusal :=
  wordXX (.zextW d a) d a (fun a => zextV a 32) s

/-- ADDW (R108, R109). -/
def execAddw (d a b : Reg) (s : State) : Host.Outcome State Fault Refusal :=
  wordXXX (.addw d a b) d a b (fun a b => sextV (a + b) 32) s

/-- SUBW (R108, R109). -/
def execSubw (d a b : Reg) (s : State) : Host.Outcome State Fault Refusal :=
  wordXXX (.subw d a b) d a b (fun a b => sextV (a - b) 32) s

/-- MULW (R108, R109). -/
def execMulw (d a b : Reg) (s : State) : Host.Outcome State Fault Refusal :=
  wordXXX (.mulw d a b) d a b (fun a b => sextV (a * b) 32) s

end Sys2Proof.Machine
end

