-- ==== Sys2Proof/Machine/Imm.lean ====
section
/-!
DEFINITION. Immediates, constants, addresses and bit fields: classes 1 to 12 (05 R110-R116).
-/

namespace Sys2Proof.Machine

/-- An immediate sign-extended to 64 bits. -/
def sxI {w : Nat} (i : BitVec w) : Word := ofI (sext i.toNat w)

/-- ADDI (R110). -/
def execAddi (d a : Reg) (i : BitVec 17) (s : State) : Host.Outcome State Fault Refusal :=
  wordXX (.addi d a i) d a (fun x => x + sxI i) s

/-- ANDI (R110). -/
def execAndi (d a : Reg) (i : BitVec 17) (s : State) : Host.Outcome State Fault Refusal :=
  wordXX (.andi d a i) d a (fun x => x &&& ofN i.toNat) s

/-- ORI (R110). -/
def execOri (d a : Reg) (i : BitVec 17) (s : State) : Host.Outcome State Fault Refusal :=
  wordXX (.ori d a i) d a (fun x => x ||| ofN i.toNat) s

/-- XORI (R110). -/
def execXori (d a : Reg) (i : BitVec 17) (s : State) : Host.Outcome State Fault Refusal :=
  wordXX (.xori d a i) d a (fun x => x ^^^ ofN i.toNat) s

/-- SHLI (R111). -/
def execShli (d a : Reg) (n : Fin 64) (s : State) : Host.Outcome State Fault Refusal :=
  wordXX (.shli d a n) d a (fun x => shlV x n) s

/-- SHRI (R111). -/
def execShri (d a : Reg) (n : Fin 64) (s : State) : Host.Outcome State Fault Refusal :=
  wordXX (.shri d a n) d a (fun x => shrV x n) s

/-- SARI (R111). -/
def execSari (d a : Reg) (n : Fin 64) (s : State) : Host.Outcome State Fault Refusal :=
  wordXX (.sari d a n) d a (fun x => sarV x n) s

/-- ROLI (R111). -/
def execRoli (d a : Reg) (n : Fin 64) (s : State) : Host.Outcome State Fault Refusal :=
  wordXX (.roli d a n) d a (fun x => rolV x n) s

/-- SLTI (R112). -/
def execSlti (d a : Reg) (i : BitVec 17) (s : State) : Host.Outcome State Fault Refusal :=
  wordXX (.slti d a i) d a (fun x => boolV (decide (sgn x < sext i.toNat 17))) s

/-- LUI (R113). -/
def execLui (d : Reg) (i : BitVec 22) (s : State) : Host.Outcome State Fault Refusal :=
  issueWord (.lui d i) (fun _ p s =>
    .ok (setX p 2 d (ofI (sext i.toNat 22 * 2 ^ 17)) s)) s

/-- LUIH: bits [63:39] of xd replaced (R113). -/
def execLuih (d : Reg) (i : BitVec 22) (s : State) : Host.Outcome State Fault Refusal :=
  issueWord (.luih d i) (fun _ p s =>
    .ok (setX p 2 d (ofI (sext i.toNat 22 * 2 ^ 39) + ofN ((getX p d s).toNat % 2 ^ 39)) s)) s

/-- ADDPC (R113). -/
def execAddpc (d : Reg) (i : BitVec 22) (s : State) : Host.Outcome State Fault Refusal :=
  issueWord (.addpc d i) (fun _ p s =>
    .ok (setX p 2 d ((s.thread p).pc + ofI (sext i.toNat 22 * 4)) s)) s

/-- LEA (R114). -/
def execLea (d a b : Reg) (c : Fin 8) (i : BitVec 7) (s : State) :
    Host.Outcome State Fault Refusal :=
  wordXXX (.lea d a b c i) d a b (fun x y => x + ofN (y.toNat * 2 ^ c.val) + sxI i) s

/-- BFXU (R115). -/
def execBfxu (d a : Reg) (l p : Fin 64) (s : State) : Host.Outcome State Fault Refusal :=
  wordXX (.bfxu d a l p) d a (fun x => ofN (fieldV x p (l + 1))) s

/-- BFX (R115). -/
def execBfx (d a : Reg) (l p : Fin 64) (s : State) : Host.Outcome State Fault Refusal :=
  wordXX (.bfx d a l p) d a (fun x => ofI (sext (fieldV x p (l + 1)) (l + 1))) s

/-- BFI: bits above 63 are dropped (R116). -/
def execBfi (d a : Reg) (l p : Fin 64) (s : State) : Host.Outcome State Fault Refusal :=
  issueWord (.bfi d a l p) (fun _ q s =>
    .ok (setX q 2 d (ofN (setField (getX q d s).toNat p (l + 1) (getX q a s).toNat)) s)) s

end Sys2Proof.Machine
end

