-- ==== Sys2Proof/Machine/LoadStore.lean ====
section
/-!
DEFINITION. LOAD and STORE (09 R216-R218).
-/

namespace Sys2Proof.Machine

/-- The address of a LOAD or STORE (09 R217). -/
def memAddr (p : Place) (a : Reg) (o : BitVec 12) (s : State) : Word := getX p a s + sxI o

/-- The state with a load or atomic sent. A load is performed at once unless the turn leaves it; an atomic always
takes its turn at the home (09 R207, R217, R222; log 1, log 81). -/
def sendAccess (p : Place) (a : Access) (s : State) : State :=
  let n := s.reqCtr
  let s := { s with reqCtr := n + 1 }
  let s := s.modThread p fun t => { t with loads := t.loads ++ [{ a with n := n, clk := s.clk }] }
  if s.split || a.atomic then s else settleAccess p n s

/-- A load into register r of a file (09 R217). -/
def loadBody (size : Nat) (signed : Bool) (file : RFile) (h : Hint) (r a : Reg) (o : BitVec 12) : Body :=
  fun _ p s =>
    let s := forceAtoms p s
    let va := memAddr p a o s
    access p va size .read s fun t s =>
      .ok (sendAccess p { n := 0, kind := .load size signed, va := va, tgt := t, hint := h, file := file,
                          reg := r, opnd := 0, expect := 0, val := none } s)

/-- A load into an x register as a word. -/
def wordLoad (i : Instr) (size : Nat) (signed : Bool) (h : Hint) (d a : Reg) (o : BitVec 12) (s : State) :
    Host.Outcome State Fault Refusal :=
  issueWord i (loadBody size signed .x h d a o) s

/-- FLD: into an f register, or onto the stream it is bound to (09 R218). -/
def fldBody (h : Hint) (d a : Reg) (o : BitVec 12) : Body := fun c p s =>
  withF p [] [d] s fun _ _ s =>
    match (s.thread p).strmOf d with
    | none => loadBody 4 false .f h d a o c p s
    | some _ =>
      let s := forceAtoms p s
      let va := memAddr p a o s
      access p va 4 .read s fun t s =>
        let r := threadRead p va t 4 h s
        .ok (putF p 0 d (BitVec.ofNat 32 r.1) r.2)

/-- A store of a value of w bytes (09 R217). -/
def storeTo (p : Place) (va : Word) (w v : Nat) (h : Hint) (s : State) (k : State → Res) : Res :=
  access p va w .write (forceAtoms p s) fun t s =>
    k (makeStore p va t w (v % 2 ^ (8 * w)) h 0 s)

/-- A store from an x register as a word. -/
def wordStore (i : Instr) (w : Nat) (h : Hint) (d a : Reg) (o : BitVec 12) (s : State) :
    Host.Outcome State Fault Refusal :=
  issueWord i (fun _ p s => storeTo p (memAddr p a o s) w (getX p d s).toNat h s .ok) s

/-- LD.B (R217). -/
def execLdB (h : Hint) (d a : Reg) (o : BitVec 12) (s : State) :
    Host.Outcome State Fault Refusal :=
  wordLoad (.ldB h d a o) 1 true h d a o s

/-- LD.BU (R217). -/
def execLdBu (h : Hint) (d a : Reg) (o : BitVec 12) (s : State) :
    Host.Outcome State Fault Refusal :=
  wordLoad (.ldBu h d a o) 1 false h d a o s

/-- LD.H (R217). -/
def execLdH (h : Hint) (d a : Reg) (o : BitVec 12) (s : State) :
    Host.Outcome State Fault Refusal :=
  wordLoad (.ldH h d a o) 2 true h d a o s

/-- LD.HU (R217). -/
def execLdHu (h : Hint) (d a : Reg) (o : BitVec 12) (s : State) :
    Host.Outcome State Fault Refusal :=
  wordLoad (.ldHu h d a o) 2 false h d a o s

/-- LD.W (R217). -/
def execLdW (h : Hint) (d a : Reg) (o : BitVec 12) (s : State) :
    Host.Outcome State Fault Refusal :=
  wordLoad (.ldW h d a o) 4 true h d a o s

/-- LD.WU (R217). -/
def execLdWu (h : Hint) (d a : Reg) (o : BitVec 12) (s : State) :
    Host.Outcome State Fault Refusal :=
  wordLoad (.ldWu h d a o) 4 false h d a o s

/-- LD.D (R217). -/
def execLdD (h : Hint) (d a : Reg) (o : BitVec 12) (s : State) :
    Host.Outcome State Fault Refusal :=
  wordLoad (.ldD h d a o) 8 false h d a o s

/-- FLD (R217, R218). -/
def execFld (h : Hint) (d a : Reg) (o : BitVec 12) (s : State) :
    Host.Outcome State Fault Refusal :=
  issueWord (.fld h d a o) (fldBody h d a o) s

/-- ST.B (R217). -/
def execStB (h : Hint) (d a : Reg) (o : BitVec 12) (s : State) :
    Host.Outcome State Fault Refusal :=
  wordStore (.stB h d a o) 1 h d a o s

/-- ST.H (R217). -/
def execStH (h : Hint) (d a : Reg) (o : BitVec 12) (s : State) :
    Host.Outcome State Fault Refusal :=
  wordStore (.stH h d a o) 2 h d a o s

/-- ST.W (R217). -/
def execStW (h : Hint) (d a : Reg) (o : BitVec 12) (s : State) :
    Host.Outcome State Fault Refusal :=
  wordStore (.stW h d a o) 4 h d a o s

/-- ST.D (R217). -/
def execStD (h : Hint) (d a : Reg) (o : BitVec 12) (s : State) :
    Host.Outcome State Fault Refusal :=
  wordStore (.stD h d a o) 8 h d a o s

/-- FST (R217, R218). -/
def execFst (h : Hint) (d a : Reg) (o : BitVec 12) (s : State) :
    Host.Outcome State Fault Refusal :=
  issueWord (.fst h d a o) (fun _ p s => withF p [d] [] s fun v pop s =>
    storeTo p (memAddr p a o s) 4 (v d).toNat h s fun s => .ok (pop s)) s

end Sys2Proof.Machine
end

