-- ==== Sys2Proof/Machine/MsgOps.lean ====
section
/-!
DEFINITION. Messages: headers, destinations, payload conversion and outbound queues (03 R72-R76; 14 R320,
R321; 17 R379).
-/

namespace Sys2Proof.Machine

/-! ### Headers (03 Table 03-6) -/

/-- KIND. -/
def hKind (h : Word) : Nat := wbits h 1 0
/-- CHAN. -/
def hChan (h : Word) : Nat := wbits h 5 2
/-- COUNT. -/
def hCount (h : Word) : Nat := wbits h 8 6
/-- FMT. -/
def hFmt (h : Word) : Nat := wbits h 10 9
/-- TAG. -/
def hTag (h : Word) : Nat := wbits h 22 11
/-- AGENT. -/
def hAgent (h : Word) : Nat := wbits h 24 23
/-- DIE. -/
def hDie (h : Word) : Nat := wbits h 26 25
/-- CLUS. -/
def hClus (h : Word) : Nat := wbits h 32 27
/-- CORE. -/
def hCore (h : Word) : Nat := wbits h 37 33
/-- CTX. -/
def hCtx (h : Word) : Nat := wbits h 40 38

/-- Whether a header as a sender gives it is invalid (03 R72). -/
def badHeader (h : Word) : Bool :=
  wbits h 47 41 != 0 || decide (5 ≤ hCtx h) || hKind h == 2 ||
  (match hAgent h with
   | 0 => decide (48 ≤ hClus h)
   | 1 => decide (2 ≤ hCore h) || decide (48 ≤ hClus h)
   | _ => hDie h != 0 || hClus h != 0 || hCore h != 0 || hCtx h != 0)

/-- The core a header names, for AGENT 0 and 1. -/
def hDest (h : Word) : Option CoreId :=
  match hAgent h with
  | 0 => some (.scalar (hDie h * 48 + hClus h) (hCore h))
  | 1 => some (.landing (hDie h * 2 + hCore h) (hClus h))
  | _ => none

/-- A header for a core and context (03 Table 03-6). -/
def mkHeader (kind chan count fmt tag : Nat) (c : CoreId) (ctx : Nat) : Word :=
  let place := match c with
    | .scalar cl k => (cl / 48) * 2 ^ 25 + (cl % 48) * 2 ^ 27 + k * 2 ^ 33
    | .landing l k => 2 ^ 23 + (l / 2) * 2 ^ 25 + k * 2 ^ 27 + (l % 2) * 2 ^ 33
  ofN (kind + chan * 4 + count * 2 ^ 6 + fmt * 2 ^ 9 + tag * 2 ^ 11 + place + ctx * 2 ^ 38)

/-- A header for the host. -/
def hostHeader (kind count tag : Nat) : Word :=
  ofN (kind + count * 2 ^ 6 + tag * 2 ^ 11 + 3 * 2 ^ 23)

/-- The launch cluster of a thread's rank; the own cluster of a thread that has none, and 0 on a landing-core
context that is not lent, for which the manual gives no value (02 Table 02-9). DESIGN CHOICE (log 70). -/
def State.clusterNum (s : State) (p : Place) : Nat :=
  match s.shareOf? p with
  | some sh => sh.launch
  | none => p.cluster?.getD 0

/-- SRCID of a place (03 R72). -/
def srcId (p : Place) : Nat :=
  match p with
  | .ctx cl c k => (cl / 48) * 2 ^ 14 + (cl % 48) * 2 ^ 8 + c * 8 + k
  | .lane cl e sl _ => (cl / 48) * 2 ^ 14 + (cl % 48) * 2 ^ 8 + (e * 16 + sl) * 8 + 4
  | .lctx l c k => (l / 2) * 2 ^ 14 + (48 + 8 * (l % 2) + c / 8) * 2 ^ 8 + (c % 8) * 8 + k

/-- SRCID of the thread at a place, by its share's launch position, so that no receiver observes that it
has moved (03 R72; 15 R352). -/
def srcOf (p : Place) (s : State) : Nat :=
  match p with
  | .ctx _ c k => srcId (.ctx (s.clusterNum p) c k)
  | .lane _ e sl ln => srcId (.lane (s.clusterNum p) e sl ln)
  | .lctx l c k => srcId (.lctx l c k)

/-- A header with SRCID set. -/
def withSrc (h : Word) (src : Nat) : Word := ofN (h.toNat % 2 ^ 48 + src * 2 ^ 48)

/-- SRCID of the host, the dispatcher and the firmware's records. -/
def hostSrc : Nat := 0xFFFF

/-- A payload word as the receiver gets it (03 R74, Table 03-7). -/
def fmtWord (f : Nat) (w : Word) : Word :=
  let n := w.toNat
  match f with
  | 1 => ofN (mapElems 2 32 32 (fun b => widenBf16 (bf16Rne b)) n)
  | 2 => ofN (mapElems 2 32 32 (fun b => lowBits (sat (sext b 32) 16) 32) n)
  | 3 => ofN (mapElems 4 16 16 (fun b => lowBits (sat (sext b 16) 8) 16) n)
  | _ => w

/-- The message of a header, a source and payload words as sent. -/
def mkMsg (h : Word) (src : Nat) (pay : List Word) : Msg :=
  { hdr := withSrc h src, pay := (pay.take (hCount h)).map (fmtWord (hFmt h)) }

/-! ### Destinations -/

/-- Whether a share holds context k of core c of its cluster (03 R73, R80). -/
def Share.holdsCtx (sh : Share) (c k : Nat) : Bool :=
  match sh.cores.findIdx? (· == c) with
  | some i => decide (k < 4) && decide (i * 4 + k < sh.nctx)
  | none => false

/-- Whether a share holds a context of core c. -/
def Share.holdsCore (sh : Share) (c : Nat) : Bool := sh.holdsCtx c 0

/-- The share of gang g that holds contexts of a scalar core. -/
def State.shareOn? (s : State) (g cl c : Nat) : Option Share :=
  (s.sharesOf g).find? fun sh => sh.cl == cl && sh.holdsCore c

/-- The share of gang g that a launch position names (15 R352). -/
def State.shareAt? (s : State) (g cl c : Nat) : Option Share :=
  (s.sharesOf g).find? fun sh => sh.launch == cl && sh.holdsCore c

/-- The share whose contexts a scalar core runs (03 R73: a core serves at most one gang). -/
def State.shareOfCore? (s : State) (cl c : Nat) : Option Share :=
  (FMap.vals s.shares).find? fun sh => sh.cl == cl && sh.holdsCore c && sh.saved.isNone

/-- The rank a landing-core context is lent to, for gang g. -/
def State.lentTo? (s : State) (g l c k : Nat) : Option Nat :=
  (s.lent.find? fun e => e.1 == Place.key (.lctx l c k) && e.2.1 == g).map (·.2.2)

/-- Whether a user-mode sender of gang g may address a core and context (03 R73). -/
def userMaySend (s : State) (g : Nat) (c : CoreId) (ctx : Nat) : Bool :=
  match c with
  | .scalar cl k =>
    (match s.shareAt? g cl k with
     | some sh => ctx == 4 || sh.holdsCtx k ctx
     | none => false)
  | .landing l k =>
    if ctx = 4 then (List.range 4).any fun j => (s.lentTo? g l k j).isSome
    else (s.lentTo? g l k ctx).isSome

/-- The privilege or message-destination fault of a send, if any (03 R73; 17 R379). -/
def sendFault (p : Place) (h : Word) (s : State) : Option Nat :=
  let t := s.thread p
  if !t.mode then
    if hAgent h = 2 ∨ 14 ≤ hChan h ∨ hKind h = 3 then some Cause.privilege
    else match hDest h with
      | some c => if userMaySend s t.gang c (hCtx h) then none else some Cause.messageDest
      | none => none
  else if (s.colOf p).isSome && hChan h == 15 then
    match hDest h with
    | some c => if s.columnCore c then none else some Cause.messageDest
    | none => if hAgent h = 2 then none else some Cause.messageDest
  else none

/-! ### Outbound queues (03 R76) -/

/-- The parcels in a queue. -/
def State.outq (s : State) (q : OutQ) : List Parcel :=
  match q with
  | .core c => (s.core c).outq
  | .eng cl e => ((s.cluster cl).engOut[e]?).getD []
  | .mesh i => (s.mesh[i]?).toList

/-- The outbound queue of a place. -/
def outqOf (p : Place) : OutQ :=
  match p with
  | .ctx cl c _ => .core (.scalar cl c)
  | .lane cl e _ _ => .eng cl e
  | .lctx l c _ => .core (.landing l c)

/-- The state with a parcel at the end of a place's outbound queue. -/
def enqueue (p : Place) (x : Parcel) (s : State) : State :=
  match outqOf p with
  | .core c => s.modCore c fun k => { k with outq := k.outq ++ [x] }
  | .eng cl e => s.modCluster cl fun k => { k with engOut := k.engOut.modify e (· ++ [x]) }
  | .mesh _ => s

/-- Every parcel that a queue or the mesh holds. -/
def State.queued (s : State) : List Parcel :=
  s.mesh ++ (FMap.vals s.cores).flatMap (·.outq) ++ (FMap.vals s.clusters).flatMap fun c => c.engOut.flatten

/-- The parcels on their way, each changed. -/
def mapParcels (g : Parcel → Parcel) (s : State) : State :=
  { s with
    mesh := s.mesh.map g
    cores := s.cores.map fun c => (c.1, { c.2 with outq := c.2.outq.map g })
    clusters := s.clusters.map fun c => (c.1, { c.2 with engOut := c.2.engOut.map fun q => q.map g }) }

/-- The places that chosen parcels on their way were sent from, moved with their threads (08 R190; 15 R349). -/
def moveSenders (sel : Parcel → Bool) (f : Place → Place) (s : State) : State :=
  mapParcels (fun x => if sel x then { x with src := x.src.map f } else x) s

/-- Whether a place's parcel may enter its queue: room, and no lower lane that still waits behind the
same word (03 R76). -/
def mayEnqueue (p : Place) (s : State) : Bool :=
  decide ((s.outq (outqOf p)).length < 8) &&
  (match p with
   | .lane cl e sl ln => !((s.lanes cl e sl).any fun q =>
       decide (q.laneNum < ln) && (s.thread q).pc == (s.thread p).pc && waitOf q s == some .sending)
   | .ctx _ _ _ => true
   | .lctx _ _ _ => true)

/-- Whether a header is a lend when a gang's thread sends it (19 R384). -/
def isLend (h : Word) : Bool := hAgent h == 1 && hChan h == 15

/-- The rank a message of the thread at p goes to: a user-mode sender names launch positions, a
supervisor physical ones (15 R352); a lend carries the sender's rank. -/
def destRank (p : Place) (h : Word) (s : State) : Option Nat :=
  if (s.thread p).mode then (if isLend h then some (s.thread p).rank else none)
  else match hDest h with
    | some (.scalar cl c) => (s.shareAt? (s.thread p).gang cl c).map (·.rank)
    | some (.landing _ _) => none
    | none => none

/-- A parcel of the thread at p put into its outbound queue, numbered among all that threads send. -/
def post (p : Place) (r : Option Nat) (c : Cargo) (reply : Bool) (s : State) : State :=
  enqueue p { gang := (s.thread p).gang, src := some p, rank := r, cargo := c, n := s.reqCtr, reply := reply }
    { s with reqCtr := s.reqCtr + 1 }

/-- Put a parcel into the sender's queue, or wait in *sending* (03 R76). -/
def sendParcel (p : Place) (r : Option Nat) (c : Cargo) (s : State) : Res :=
  if mayEnqueue p s then .ok (post p r c false s) else .wait s .sending

/-- The state with a parcel that the mesh itself carries: replies, triggers, the dispatcher's messages
(10 R244; 03 R80). -/
def meshSend (x : Parcel) (s : State) : State := { s with mesh := s.mesh ++ [x] }

/-- n registers from b of a thread, those that exist. -/
def regRun (p : Place) (b : Reg) (n : Nat) (s : State) : List Word :=
  (List.range n).map fun j => (s.thread p).getX (Fin.ofNat 32 (b.val + j))

end Sys2Proof.Machine
end

