-- ==== Sys2Proof/Machine/Stream.lean ====
section
/-!
DEFINITION. Stream registers: SBIND, SCLOSE, SSTAT, the arrival of elements and the performing of pushes
(10 R225-R235, R245, R246).
-/

namespace Sys2Proof.Machine

/-! ### The record's checks (10 R229) -/

/-- The first true check of a list: its offset. -/
def firstFail : List (Bool × Nat) → Option Nat
  | [] => none
  | (b, o) :: cs => if b then some o else firstFail cs

/-- A signed 48-bit stride stands sign-extended in its doubleword. -/
def strideOk (w : Word) : Bool := w == ofI (sext w.toNat 48)

/-- The product of the first k + 1 extents of a list. -/
def extProd (es : List Nat) (k : Nat) : Nat := (es.take (k + 1)).foldl (· * ·) 1

/-- Whether extent k is the one at which a vector that is too long first exceeds 2^48 elements (10 R229, R237). -/
def extOver (es : List Nat) (k : Nat) : Bool :=
  decide (2 ^ 48 < extProd es es.length) && decide (2 ^ 48 < extProd es k)

/-- The offset of the first failing field of a stream record used by gang g (10 R229). -/
def strmBad (g : Nat) (r : List Word) (s : State) : Option Nat :=
  let base := recWord r 0
  let fl := wbits (recWord r 1) 31 0
  let hv := wbit (recWord r 1) 4
  let dir := wbit (recWord r 1) 0
  let con := wbit (recWord r 1) 5
  let fmt := wbits (recWord r 1) 3 1
  let h := ofN (wbits (recWord r 1) 63 32)
  let nd := strmDims r
  let sz := if fmt < 6 then fmtSize fmt else 1
  let es := (List.range nd).map fun k => strmExt r k
  firstFail
    ([((!hv && !canonical base) || base.toNat % sz != 0, 0),
      (decide (6 ≤ fmt) || decide (256 ≤ fl) || (con && (!hv || dir)), 8),
      (if hv then handleRef g h s == .bad else h != 0, 12)] ++
     (List.range 4).map (fun k =>
       (if k < nd then strmExt r k == 0 || extOver es k else strmExt r k != 0,
        0x10 + 4 * k)) ++
     (List.range 4).map (fun k =>
       let w := recWord r (4 + k)
       (if k < nd then !strideOk w || sext w.toNat 64 % sz != 0 else w != 0, 0x20 + 8 * k)))

/-! ### SBIND, SCLOSE, SSTAT -/

/-- The stores of the thread at p that its stream must observe: performed at `.cl`, or at the home for
a landing core, whose streams the landing fetches there (10 R230). -/
def settleOwn (p : Place) (s : State) : State :=
  drain (fun e => e.place == p && (e.stage == .issued || e.direct))
    (fun e => if e.direct then 3 else 1) s

/-- The stores that a stream of the thread at p must observe when it is bound: its own, and those its cluster's
threads have made visible at `.cl`, go where the fetching unit reads them (10 R230; 09 R200). -/
def settleBind (p : Place) (s : State) : State :=
  drain (fun e => e.place == p || (some e.cl == p.cluster? && e.stage != .issued && !e.direct && e.merge == 0))
    (fun e => if e.merge = 0 then e.level .die else 3) s

/-! ### Waits for a seal (10 R245; 11 R261, R267) -/

/-- A thread that waits inside a word gets a unit's answer. -/
def answerWait (p : Place) (w : Wait) (s : State) : State :=
  s.modThread p fun t =>
    match t.run with
    | .wait i _ => { t with run := .wait i w }
    | .running => t
    | .idle => t
    | .retired => t
    | .fetchSleep => t

/-- The wait of a thread whose word has found its tile not sealed, in its place among such waits: stage 1. -/
def unsealed (s : State) : State × Wait := ({ s with reqCtr := s.reqCtr + 1 }, .waiting 1 s.reqCtr)

/-- What a thread waits to be sealed: its place among such waits, the handle, and whether it counts then. -/
def Thread.sealing (t : Thread) : Option (Nat × Word × Bool) :=
  match t.run with
  | .wait (.gtake _ a) (.waiting 1 n) => some (n, t.getX a, false)
  | .wait (.gdone a) (.waiting 1 n) => some (n, t.getX a, true)
  | .wait (.sbind i _) (.waiting 1 n) => ((t.strm[i.val]?).getD none).map fun m => (n, m.handle, false)
  | _ => none

/-- The threads that wait for the seal of a slot at a generation, in the order in which they came. -/
def sealWaiters (g r b n gen : Nat) (s : State) : List (Nat × Place × Word × Bool) :=
  sortBy (·.1) (s.places.filterMap fun p =>
    (s.thread p).sealing.bind fun w =>
      if handleRef (s.thread p).gang w.2.1 s = .ok g r b n gen then some (w.1, p, w.2.1, w.2.2) else none)

/-- One waiting thread told of a seal: its wait ends, and a GDONE is counted now; one that a count before it has
left with a stale handle takes over-read (11 R261, R267). -/
def tellSeal (g r b n gen : Nat) (s : State) (w : Nat × Place × Word × Bool) : State :=
  if ((s.slotAt g r b n).map (·.gen)) ≠ some gen then
    answerWait w.2.1 (.answered false (ofN Cause.overRead) w.2.2.1) s
  else answerWait w.2.1 (.waiting 3 0) (if w.2.2.2 then takeSlot g r b n 1 s else s)

/-- Slot n of a bay sealed, and those that wait for it told (11 R255, R261). -/
def sealNow (g r b n : Nat) (s : State) : State :=
  let gen := ((s.slotAt g r b n).map (·.gen)).getD 0
  let s := sealSlot g r b n s
  (sealWaiters g r b n gen s).foldl (tellSeal g r b n gen) s

/-- The end of a wait for a tile's seal, for SBIND, GTAKE and GDONE (10 R245; 11 R261, R267): over-read
fault when the handle is stale, gallery fault when the bay is gone, `told` once the seal has ended the wait, k when
the tile is found sealed. -/
def sealWait (p : Place) (h : Word) (s : State) (onFault : State → State) (told k : State → Res) : Res :=
  let stay := match waitOf p s with
    | some (.waiting 1 n) => (s, Wait.waiting 1 n)
    | _ => unsealed s
  match waitOf p s with
  | some (.waiting 3 _) => told s
  | some (.answered false c v) => .trap (onFault s) c.toNat v
  | _ =>
    if !handleLive (s.thread p).gang h s then .wait stay.1 stay.2
    else match handleSlot (s.thread p).gang h s with
    | none => .trap (onFault s) Cause.gallery 1
    | some (st, stale) =>
      if stale then .trap (onFault s) Cause.overRead h
      else if st = .sealed then k s
      else .wait stay.1 stay.2

/-- A read stream of a tile that has been bound waits for the seal, then acquires (10 R245). -/
def sbindWait (p : Place) (i : Fin 4) (h : Word) (s : State) : Res :=
  let k := fun (s : State) =>
    Res.ok (acquire p .die (modStrm p i.val (fun o => o.map fun m => { m with sealed := true }) s))
  sealWait p h s (modStrm p i.val fun _ => none) k k

/-- Whether a thread waits inside a word for a tile's seal, or has been told of it. -/
def sealStage (p : Place) (s : State) : Bool :=
  match waitOf p s with
  | some (.waiting n _) => n == 1 || n == 3
  | some (.answered _ _ _) => true
  | _ => false

/-- SBIND (R245). -/
def execSbind (i : Fin 4) (a : Reg) (s : State) : Host.Outcome State Fault Refusal :=
  issueWord (.sbind i a) (fun _ p s =>
    let t := s.thread p
    let bound := (t.strm[i.val]?).getD none
    if sealStage p s then
      match bound with
      | some m => sbindWait p i m.handle s
      | none => .ok s
    else if bound.isSome then .trap s Cause.stream 1
    else
      let va := getX p a s
      if !canonical va || va.toNat % 64 ≠ 0 then .trap s Cause.access va
      else loadWords p 8 va [] (forceAtoms p s) fun r s =>
        match strmBad t.gang r s with
        | some o => .trap s Cause.streamRecord (ofN o)
        | none =>
          let m : Strm := { record := r, pos := 0, ahead := [], push := [], base := 0, sealed := true,
                            failAt := none, stale := false }
          match (if m.hvalid then handleSlot t.gang m.handle s else none) with
          | some (_, true) => .trap s Cause.overRead m.handle
          | _ =>
            let s := settleBind p s
            if m.hvalid && !m.writes then
              sbindWait p i m.handle (modStrm p i.val (fun _ => some { m with sealed := false }) s)
            else .ok (modStrm p i.val (fun _ => some m) s)) s

/-- SCLOSE (R245). -/
def execSclose (i : Fin 4) (s : State) : Host.Outcome State Fault Refusal :=
  issueWord (.sclose i) (fun _ p s =>
    match ((s.thread p).strm[i.val]?).getD none with
    | none => .ok s
    | some _ =>
      let s := settleOwn p (pushMany p i.val 64 s)
      match ((s.thread p).strm[i.val]?).getD none with
      | none => .ok s
      | some m =>
        if !m.push.isEmpty || m.counting then .wait s (.waiting 1 0)
        else
          let s := dropMiss (.stream p i.val) (modStrm p i.val (fun _ => none) s)
          match m.failAt with
          | some f => .trap s f.1 f.2
          | none => if m.stale then .trap s Cause.overRead m.handle else .ok s) s

/-- SSTAT (R246). -/
def execSstat (d : Reg) (i : Fin 4) (s : State) : Host.Outcome State Fault Refusal :=
  issueWord (.sstat d i) (fun _ p s =>
    let v := match ((s.thread p).strm[i.val]?).getD none with
      | none => 0
      | some m => 1 + b2n m.writes * 2 + (strmLen m.record - m.pos) * 2 ^ 16
    .ok (setX p 0 d (ofN v) s)) s

/-! ### At the end of a thread (10 R235) -/

/-- Whether a thread's streams wait for a push or for a bay. -/
def Thread.streaming (t : Thread) : Bool :=
  t.strm.any fun o =>
    match o with
    | some m => !m.push.isEmpty || m.counting
    | none => false

/-- The bound streams of an ending thread closed, their faults recorded in the gang's summary with the
address of the word it ends at; pushed elements that cannot be performed yet, and consuming reads that have not been,
stay. -/
def closeStreams (p : Place) (s : State) : State :=
  let s := settleOwn p (pushAll p s)
  if (s.thread p).streaming then s
  else (List.range 4).foldl (fun s i =>
    let t := s.thread p
    match (t.strm[i]?).getD none with
    | none => s
    | some m =>
      let s := dropMiss (.stream p i) (modStrm p i (fun _ => none) s)
      match m.failAt with
      | some f => recordFault p t.pc f.2 f.1 s
      | none => if m.stale then recordFault p t.pc m.handle Cause.overRead s else s) s

/-! ### Events -/

/-- STREAM_ELEMENT_ARRIVAL: the next element of a read stream comes to hand (R230, R231). -/
def execStreamElementArrival (p : Place) (i : Fin 4) (s : State) : Host.Outcome State Fault Refusal :=
  .next <|
    let t := s.thread p
    match (t.strm[i.val]?).getD none with
    | none => s
    | some m =>
      let j := m.pos + m.ahead.length
      let blocked := match m.ahead.getLast? with
        | some (.bad _ _) => true
        | some (.val _) => false
        | none => false
      if m.writes || !m.sealed || blocked || decide (64 ≤ m.ahead.length) || decide (strmLen m.record ≤ j)
      then s
      else
        let a := m.addr t.gang j s
        let put := fun (e : Elem) (s : State) =>
          modStrm p i.val (fun o => o.map fun m => { m with ahead := m.ahead ++ [e] }) s
        match s.missOf (.stream p i.val) with
        | some x =>
          (match x.st with
           | .killed => put (.bad Cause.access a) (dropMiss (.stream p i.val) s)
           | .fresh => s
           | .token _ => s)
        | none =>
          match engineRead (s.agent p) a (fmtSize m.fmt) s with
          | (.val v, s) => put (.val (fmtPop m.fmt v)) s
          | (.bad c, s) => put (.bad c a) s
          | (.missed r l, s) => addMiss (s.agent p) (.stream p i.val) a .read r l s
          | (.held, s) => s

/-- STREAM_PUSH_PERFORM: the oldest pushed element becomes a store of the thread (R233). -/
def execStreamPushPerform (p : Place) (i : Fin 4) (s : State) : Host.Outcome State Fault Refusal :=
  .next (pushOne p i.val s).2

end Sys2Proof.Machine
end

