-- ==== Sys2Proof/Machine/Timeline.lean ====
section
/-!
DEFINITION. Timelines: references, registration, completion, failure and triggers; TLWAIT, TLREAD and
TLARM (10 R241-R244, R248).
-/

namespace Sys2Proof.Machine

/-! ### References (10 R241) -/

/-- The gang, rank and index a timeline reference of the thread at p names; none when it is invalid. -/
def tlRef (p : Place) (a : Word) (s : State) : Option (Nat × Nat × Nat) :=
  let t := s.thread p
  let r := wbit a 24
  let i := wbits a 5 0
  let k := wbits a 23 8
  if wbits a 63 25 ≠ 0 ∨ wbits a 7 6 ≠ 0 then none
  else if !r && (k != 0 || p.engine == .landing) then none
  else
    let rank := if r then k else t.rank
    match s.share? t.gang rank with
    | none => none
    | some sh => if i < sh.tls.length then some (t.gang, rank, i) else none

/-- A timeline. -/
def State.tl? (s : State) (g r i : Nat) : Option Timeline :=
  (s.share? g r).bind fun sh => sh.tls[i]?

/-- The state with a timeline changed. -/
def modTl (g r i : Nat) (f : Timeline → Timeline) (s : State) : State :=
  s.modShare g r fun sh => { sh with tls := sh.tls.modify i f }

/-! ### Advance (10 R242, R243) -/

/-- V advanced over the operations that completed early, at most n of them. -/
def Timeline.advance : Nat → Timeline → Timeline
  | 0, t => t
  | n + 1, t =>
    if t.early.contains (t.v + 1) then
      Timeline.advance n { t with v := t.v + 1, early := t.early.filter (· != t.v + 1) }
    else t

/-- The triggers of a timeline that fire, their slots freed, and their messages in the cluster's trigger
queue (10 R244). -/
def fireTriggers (g r i : Nat) (s : State) : State :=
  match s.share? g r, s.tl? g r i with
  | some sh, some t =>
    let fire := t.trigs.filter fun x => decide (x.thr ≤ t.v)
    if fire.isEmpty then s
    else
      let s := modTl g r i (fun t => { t with trigs := t.trigs.filter fun x => decide (t.v < x.thr) }) s
      s.modCluster sh.cl fun c => { c with trigQ := c.trigQ ++ fire.map fun x =>
        { gang := g, src := some x.src, rank := x.rank, cargo := .msg (mkMsg x.hdr x.srcId [x.pay]) } }
  | _, _ => s

/-- Operation n of a timeline has completed (10 R242). -/
def tlComplete (x : TlReg) (s : State) : State :=
  fireTriggers x.gang x.rank x.idx
    (modTl x.gang x.rank x.idx (fun t =>
      let t := { t with early := t.early ++ [x.n] }
      t.advance t.early.length) s)

/-- Operation n of a timeline has failed, to be reported with a cause: F holds the lowest that has failed
(10 R241, R243; 15 R336; log 12). -/
def tlFail (x : TlReg) (cause : Nat) (s : State) : State :=
  modTl x.gang x.rank x.idx (fun t =>
    if t.f = 0 then { t with f := x.n, fcause := cause }
    else if x.n < t.f then { t with f := x.n, fcause := cause, fails := t.fails ++ [(t.f, t.fcause)] }
    else { t with fails := t.fails ++ [(x.n, cause)] }) s

/-- The registration of an operation with a timeline (10 R242). -/
def tlRegister (g r i : Nat) (s : State) : TlReg × State :=
  match s.tl? g r i with
  | none => ({ gang := g, rank := r, idx := i, n := 0 }, s)
  | some t =>
    ({ gang := g, rank := r, idx := i, n := t.i + 1 }, modTl g r i (fun t => { t with i := t.i + 1 }) s)

/-- The lowest of the failed operations that F does not name. -/
def lowestFail : List (Nat × Nat) → Option (Nat × Nat)
  | [] => none
  | x :: xs =>
    match lowestFail xs with
    | some y => some (if y.1 < x.1 then y else x)
    | none => some x

/-- F cleared: V counts the failed operation as complete, the copies it halted resume, and the lowest
operation that has failed meanwhile, if any, is reported next (10 R243; log 12). -/
def tlClear (g r i : Nat) (s : State) : State :=
  match s.tl? g r i with
  | none => s
  | some t =>
    if t.f = 0 then s
    else
      let x : TlReg := { gang := g, rank := r, idx := i, n := t.f }
      let drop := fun (cs : List Copy) => cs.filter fun c => !(c.failed && c.reg == x)
      let s := { s with
        clusters := s.clusters.map fun e => (e.1, { e.2 with copies := drop e.2.copies })
        landings := s.landings.map fun e => (e.1, { e.2 with copies := drop e.2.copies })
        shares := s.shares.map fun e => (e.1, { e.2 with saved := e.2.saved.map fun v =>
          { v with copies := drop v.copies } }) }
      let s := modTl g r i (fun t =>
        match lowestFail t.fails with
        | some y => { t with f := y.1, fcause := y.2, fails := t.fails.filter (· != y) }
        | none => { t with f := 0, fcause := 0 }) s
      tlComplete x s

/-! ### Instructions (10 R248) -/

/-- The check of a timeline reference, a wait while its share is saved (10 R241), then k. -/
def withTl (p : Place) (a : Word) (s : State) (k : Nat → Nat → Nat → Timeline → State → Res) : Res :=
  match tlRef p a s with
  | none => .trap s Cause.timeline 1
  | some (g, r, i) =>
    if !s.shareLive g r then .wait s (.waiting 0 0)
    else match s.tl? g r i with
      | some t => k g r i t s
      | none => .trap s Cause.timeline 1

/-- TLWAIT (R248). -/
def execTlwait (sc : Scope) (a b : Reg) (s : State) : Host.Outcome State Fault Refusal :=
  issueWord (.tlwait sc a b) (fun _ p s =>
    withTl p (getX p a s) s fun _ _ _ t s =>
      let n := (getX p b s).toNat
      if t.f ≠ 0 ∧ t.f ≤ n then .trap s t.fcause (ofN t.f)
      else if n ≤ t.v then .ok (acquire p sc s)
      else .wait s (.waiting 0 0)) s

/-- TLREAD (R248). -/
def execTlread (k : TlSel) (d a : Reg) (s : State) : Host.Outcome State Fault Refusal :=
  issueWord (.tlread k d a) (fun _ p s =>
    withTl p (getX p a s) s fun g r i t s =>
      match k with
      | .v => .ok (setX p 0 d (ofN t.v) s)
      | .i => .ok (setX p 0 d (ofN t.i) s)
      | .f => .ok (setX p 0 d (ofN t.f) s)
      | .c => .ok (setX p 0 d (ofN t.f) (tlClear g r i s))) s

/-- TLARM (R248). -/
def execTlarm (a b : Reg) (s : State) : Host.Outcome State Fault Refusal :=
  issueWord (.tlarm a b) (fun _ p s =>
    withTl p (getX p a s) s fun g r i t s =>
      let last := p.engine.nregs
      let x1 := if b.val + 1 < last then getX p (Fin.ofNat 32 (b.val + 1)) s else 0
      if last ≤ b.val + 2 then .trap s Cause.messageFormat x1
      else
        let h := x1
        if badHeader h || hKind h != 0 || decide (1 < hCount h) then .trap s Cause.messageFormat h
        else match sendFault p h s with
          | some c => .trap s c h
          | none =>
            if 4 ≤ t.trigs.length then .trap s Cause.timeline 3
            else
              let x : Trig := { thr := (getX p b s).toNat, hdr := h,
                                pay := getX p (Fin.ofNat 32 (b.val + 2)) s, src := p,
                                srcId := srcOf p s, rank := destRank p h s }
              .ok (fireTriggers g r i (modTl g r i (fun t => { t with trigs := t.trigs ++ [x] }) s))) s

/-- TRIGGER_MESSAGE_SEND: the oldest trigger message of a cluster leaves (R244). -/
def execTriggerMessageSend (cl : Nat) (s : State) : Host.Outcome State Fault Refusal :=
  match (s.cluster cl).trigQ with
  | [] => .next s
  | x :: xs => .next (meshSend x (s.modCluster cl fun c => { c with trigQ := xs }))

end Sys2Proof.Machine
end

