-- ==== Sys2Proof/Machine/CopyOps.lean ====
section
/-!
DEFINITION. Copies: TCOPY, the sectors of a copy engine and the ends of copies (10 R236-R240, R247;
17 R377).
-/

namespace Sys2Proof.Machine

/-! ### The layout record (10 Table 10-3) -/

/-- CTRL. -/
def cpCtrl (r : List Word) : Nat := wbits (recWord r 2) 31 0
/-- NDIM. -/
def cpDims (r : List Word) : Nat := nbits (cpCtrl r) 3 0
/-- Source element size in bytes. -/
def cpSrcSize (r : List Word) : Nat := 2 ^ nbits (cpCtrl r) 5 4
/-- CONV. -/
def cpConv (r : List Word) : Nat := nbits (cpCtrl r) 9 6
/-- SRCH. -/
def cpSrch (r : List Word) : Bool := nbits (cpCtrl r) 10 10 == 1
/-- DSTH. -/
def cpDsth (r : List Word) : Bool := nbits (cpCtrl r) 11 11 == 1
/-- SEAL. -/
def cpSeal (r : List Word) : Bool := nbits (cpCtrl r) 12 12 == 1
/-- TL. -/
def cpTl (r : List Word) : Word := ofN (wbits (recWord r 2) 63 32)
/-- SRCHDL. -/
def cpSrcHdl (r : List Word) : Word := ofN (wbits (recWord r 3) 31 0)
/-- DSTHDL. -/
def cpDstHdl (r : List Word) : Word := ofN (wbits (recWord r 3) 63 32)
/-- EXT of dimension k. -/
def cpExt (r : List Word) (k : Nat) : Nat := wbits (recWord r (4 + 2 * k)) 31 0
/-- The 48 bits of SSTR of dimension k. -/
def cpSstr (r : List Word) (k : Nat) : Nat :=
  wbits (recWord r (4 + 2 * k)) 63 32 + wbits (recWord r (5 + 2 * k)) 15 0 * 2 ^ 32
/-- The 48 bits of DSTR of dimension k. -/
def cpDstr (r : List Word) (k : Nat) : Nat := wbits (recWord r (5 + 2 * k)) 63 16
/-- PROG. -/
def cpProg (r : List Word) : Word := recWord r 22

/-- The source size a conversion takes, 0 for any (10 Table 10-4). -/
def convSrc (c : Nat) : Nat :=
  match c with
  | 1 => 4
  | 2 => 2
  | 3 => 4
  | 4 => 2
  | 5 => 1
  | 6 => 2
  | 7 => 2
  | 8 => 1
  | _ => 0

/-- The destination element size. -/
def cpDstSize (r : List Word) : Nat :=
  match cpConv r with
  | 1 => 2
  | 2 => 4
  | 3 => 2
  | 4 => 1
  | 5 => 2
  | 6 => 4
  | 7 => 1
  | 8 => 2
  | _ => cpSrcSize r

/-- One element through a conversion (10 Table 10-4; 06 R138). -/
def convElem (t : List (BitVec 16)) (c v : Nat) : Nat :=
  match c with
  | 1 => bf16Rne v
  | 2 => widenBf16 v
  | 3 => lowBits (sat (sext v 32) 16) 16
  | 4 => lowBits (sat (sext v 16) 8) 8
  | 5 => lowBits (sext v 8) 16
  | 6 => lowBits (sext v 16) 32
  | 7 => encode8 t (sext v 16)
  | 8 => decode8 t v
  | _ => v

/-- The number of elements of a copy. -/
def cpCount (r : List Word) : Nat := (List.range (cpDims r)).foldl (fun n k => n * cpExt r k) 1

/-- Elements of a sector (10 R238). -/
def cpSector (r : List Word) : Nat := 4096 / cpDstSize r

/-- The sectors of a copy. -/
def cpTotal (r : List Word) : Nat := cdiv (cpCount r) (cpSector r)

/-- The offset of the first failing field of a layout record of the thread at p (10 R237). -/
def copyBad (p : Place) (r : List Word) (s : State) : Option Nat :=
  let g := (s.thread p).gang
  let n := cpDims r
  let nd := if n < 10 then n else 0
  let ss := cpSrcSize r
  let ds := cpDstSize r
  let es := (List.range nd).map fun k => cpExt r k
  let src := recWord r 0
  let dst := recWord r 1
  firstFail
    ([((!cpSrch r && !canonical src) || src.toNat % ss != 0, 0),
      ((!cpDsth r && !canonical dst) || dst.toNat % ds != 0, 8),
      (decide (2 ^ 13 ≤ cpCtrl r) || n == 0 || decide (9 < n) || decide (8 < cpConv r) ||
        (convSrc (cpConv r) != 0 && convSrc (cpConv r) != ss) || (cpSeal r && !cpDsth r), 0x10),
      ((tlRef p (cpTl r) s).isNone, 0x14),
      (if cpSrch r then handleRef g (cpSrcHdl r) s == .bad else cpSrcHdl r != 0, 0x18),
      (if cpDsth r then handleRef g (cpDstHdl r) s == .bad else cpDstHdl r != 0, 0x1C)] ++
     (List.range 9).flatMap (fun k =>
       [(if k < nd then cpExt r k == 0 || extOver es k else cpExt r k != 0, 0x20 + 16 * k),
        (if k < nd then sext (cpSstr r k) 48 % ss != 0 else cpSstr r k != 0, 0x24 + 16 * k),
        (if k < nd then sext (cpDstr r k) 48 % ds != 0 else cpDstr r k != 0, 0x2A + 16 * k)]) ++
     [((cpProg r).toNat % 64 != 0, 0xB0),
      ((List.range 9).any fun j => recWord r (23 + j) != 0, 0xB8)])

/-! ### TCOPY (10 R247) -/

/-- The copy engine a place's copies go to; a landing's unit takes those of all its cores (19 R385). -/
def copyUnitOf (p : Place) : CopyUnit :=
  match p with
  | .ctx cl _ _ => .cluster cl
  | .lane cl _ _ _ => .cluster cl
  | .lctx l _ _ => .landing l

/-- The copies in an engine's queue, in arrival order. -/
def State.copies (s : State) (u : CopyUnit) : List Copy :=
  match u with
  | .cluster cl => (s.cluster cl).copies
  | .landing l => (s.landing l).copies

/-- The state with an engine's queue changed. -/
def modCopies (u : CopyUnit) (f : List Copy → List Copy) (s : State) : State :=
  match u with
  | .cluster cl => s.modCluster cl fun c => { c with copies := f c.copies }
  | .landing l => s.modLanding l fun c => { c with copies := f c.copies }

/-- The copy an engine is at: the one in progress, or the first that no failure of its share halts
(10 R238, R243). -/
def currentCopy (cs : List Copy) : Option Copy :=
  match cs.find? fun c => c.started && !c.failed with
  | some c => some c
  | none => pick [] cs
where
  /-- The first copy that is not failed and has no failed copy of its share before it. -/
  pick (seen : List (Nat × Nat)) : List Copy → Option Copy
    | [] => none
    | c :: cs =>
      if c.failed then pick ((c.gang, c.rank) :: seen) cs
      else if seen.contains (c.gang, c.rank) then pick seen cs
      else some c

/-- Whether an engine's queue has room: 32 copies beside the one in progress, which may wait for its source's
seal (10 R247). -/
def copyRoom (u : CopyUnit) (s : State) : Bool :=
  let cs := s.copies u
  decide ((cs.filter fun c => !c.failed && currentCopy cs != some c).length < 32)

/-- The end of TCOPY: a wait for room, the registration, and the copy's entry into the queue. -/
def enterCopy (p : Place) (d : Reg) (r : List Word) (s : State) : Res :=
  let u := copyUnitOf p
  match tlRef p (cpTl r) s with
  | none => .trap s Cause.layoutRecord 0x14
  | some (g, k, i) =>
    if !copyRoom u s || !s.shareLive g k then .wait s (.queuing r)
    else
      let t := s.thread p
      let x := tlRegister g k i s
      let c : Copy := { record := r, place := p, gang := t.gang, rank := t.rank, user := !t.mode,
                        reg := x.1, done := 0, started := false, report := false, fin := none,
                        failed := false }
      .ok (setX p 0 d (ofN x.1.n) (modCopies u (· ++ [c]) x.2))

/-- Whether a record address of a cluster thread lies in the RAW view of its own-cluster or own-rank
window within SCRATCH (10 R247). -/
def ownRaw (p : Place) (va : Word) (s : State) : Bool :=
  let t := s.thread p
  inWindow va &&
  (match windowOf va with
   | .own o => o < 0x200000 && (match s.share? t.gang t.rank with
       | some sh => decide (o + 256 ≤ sh.spadSize)
       | none => false)
   | .rank k o => k == t.rank && decide (o < 0x200000) && (match s.share? t.gang t.rank with
       | some sh => decide (o + 256 ≤ sh.spadSize)
       | none => false)
   | .phys _ _ => false
   | .none => false)

/-- The release of a TCOPY, then the copy's entry; a wait in between keeps the record as it was read at issue, with
one doubleword more (10 R236, R239). -/
def enterReleased (p : Place) (d : Reg) (r : List Word) (s : State) : Res :=
  releaseOr (.queuing (r ++ [1])) p .die true s fun s => enterCopy p d r s

/-- TCOPY (R247). -/
def execTcopy (d a : Reg) (s : State) : Host.Outcome State Fault Refusal :=
  issueWord (.tcopy d a) (fun _ p s =>
    match waitOf p s with
    | some (.queuing r) =>
      if r.length = 33 then enterReleased p d (r.take 32) s else enterCopy p d r s
    | _ =>
      let va := getX p a s
      if !canonical va || va.toNat % 64 ≠ 0 then .trap s Cause.access va
      else if p.engine != .landing && !ownRaw p va s then .trap s Cause.access va
      else loadWords p 32 va [] (forceAtoms p s) fun r s =>
        match copyBad p r s with
        | some o => .trap s Cause.layoutRecord (ofN o)
        | none => enterReleased p d r s) s

/-! ### Sectors (10 R238-R240) -/

/-- The agent a copy is. -/
def copyAgent (u : CopyUnit) (c : Copy) (s : State) : Agent :=
  { gang := c.gang, rank := c.rank,
    cl := match u with
      | .cluster cl => some cl
      | .landing _ => none,
    die := match u with
      | .cluster cl => cl / 48
      | .landing l => l / 2,
    user := c.user,
    direct := match u with
      | .cluster _ => false
      | .landing _ => true,
    col := s.colOf c.place }

/-- The decode table a copy converts with (10 R236). -/
def copyTable (u : CopyUnit) (c : Copy) (s : State) : List (BitVec 16) :=
  match u with
  | .cluster _ => s.decodeOf c.gang c.rank
  | .landing _ => s.decodeOf c.reg.gang c.reg.rank

/-- The source address of element j. -/
def cpSrcAddr (c : Copy) (j : Nat) (s : State) : Word :=
  let ds := (List.range (cpDims c.record)).map fun k => (cpExt c.record k, sext (cpSstr c.record k) 48)
  let base := if cpSrch c.record then handleAddr c.gang (cpSrcHdl c.record) s + recWord c.record 0
              else recWord c.record 0
  base + ofI (affine ds j)

/-- The destination address of element j. -/
def cpDstAddr (c : Copy) (j : Nat) (s : State) : Word :=
  let ds := (List.range (cpDims c.record)).map fun k => (cpExt c.record k, sext (cpDstr c.record k) 48)
  let base := if cpDsth c.record then handleAddr c.gang (cpDstHdl c.record) s + recWord c.record 1
              else recWord c.record 1
  base + ofI (affine ds j)

/-- How a run of accesses of an engine ends: done; a failure with its cause and address; a walk that
failed, which waits for the pager; a share that is not there now. -/
inductive Ran (α : Type)
  | done (v : α) (s : State)
  | bad (cause : Nat) (a : Word) (s : State)
  | missed (a : Word) (need : Need) (reason level : Nat) (s : State)
  | held (s : State)

/-- The source elements of a sector, n from the j-th. -/
def readSector (g : Agent) (c : Copy) (tab : List (BitVec 16)) : Nat → Nat → List Nat → State → Ran (List Nat)
  | 0, _, acc, s => .done acc.reverse s
  | n + 1, j, acc, s =>
    let a := cpSrcAddr c j s
    match engineRead g a (cpSrcSize c.record) s with
    | (.val v, s) => readSector g c tab n (j + 1) (convElem tab (cpConv c.record) v :: acc) s
    | (.bad x, s) => .bad x a s
    | (.missed r l, s) => .missed a .read r l s
    | (.held, s) => .held s

/-- The Novilo frames made up, changed. -/
def modNovilo (f : List NvSent → List NvSent) (s : State) : State :=
  { s with pkg := { s.pkg with novilo := f s.pkg.novilo } }

/-- A new Novilo frame of a copy's data for a peer by a port, with the EtherType of the Eopra table (17 R376); it has its
number when it leaves. -/
def makeFrame (port peer : Nat) (body : NvBody) (reg : TlReg) (s : State) : State :=
  let f : NvFrame := { port := port, peer := peer, etherType := s.pkg.eopra.etherType, number := 0, body := body }
  modNovilo (fun xs => xs ++ [{ frame := f, reg := some reg, left := false, acked := false }]) s

/-- A frame of a copy's data with one more write, where it goes to that peer by that port and has room for it: it carries
4 KiB (17 R376). -/
def NvSent.add? (x : NvSent) (reg : TlReg) (port peer off : Nat) (bs : List Byte) : Option NvSent :=
  if x.left || x.reg != some reg || x.frame.port != port || x.frame.peer != peer then none
  else match x.frame.body with
    | .data ws =>
      if (NvBody.data ws).dataBytes + bs.length ≤ 4096 then
        some { x with frame := { x.frame with body := .data (ws ++ [(off, bs)]) } }
      else none
    | .messages _ => none
    | .ack => none

/-- A remote copy's write to a peer's window (17 R376, R377): it goes into a Novilo frame of its sector for the port that
NVROUTE names, failing with access reason where the feature or the peer is absent. -/
def remoteWrite (reg : TlReg) (peer off w v : Nat) (s : State) : Option State :=
  if !s.pkg.featAck.getLsbD 3 || !wbit s.pkg.eopra.nvPeers (peer / 4) then none
  else
    let port := (s.pkg.nvRoute[peer]?).getD 0
    let bs := leBytes w v
    match s.pkg.novilo.getLast?.bind fun x => x.add? reg port peer off bs with
    | some x => some (modNovilo (fun xs => xs.dropLast ++ [x]) s)
    | none => some (makeFrame port peer (.data [(off, bs)]) reg s)

/-- Frames with those of a copy that have not left gone out, each under the next number of its port and peer, and the
numbers after that. -/
def numberFrames (reg : TlReg) : List NvSent → FMap Nat → List NvSent × FMap Nat
  | [], m => ([], m)
  | x :: xs, m =>
    if x.reg == some reg && !x.left then
      let k := x.frame.port * 256 + x.frame.peer
      let n := FMap.getD m k 0
      let r := numberFrames reg xs (FMap.put m k (n + 1))
      ({ x with left := true, frame := { x.frame with number := n } } :: r.1, r.2)
    else
      let r := numberFrames reg xs m
      (x :: r.1, r.2)

/-- The frames of a copy's sector leave once it has all its writes. -/
def leaveFrames (reg : TlReg) (s : State) : State :=
  let r := numberFrames reg s.pkg.novilo s.pkg.nvOut
  { s with pkg := { s.pkg with novilo := r.1, nvOut := r.2 } }

/-- Frames of a copy that have not left are dropped, since its sector starts again. -/
def dropFrames (reg : TlReg) (s : State) : State :=
  modNovilo (fun xs => xs.filter fun x => x.left || x.reg != some reg) s

/-- A frame as it stands once a gang is gone: no copy waits for its acknowledgement. -/
def NvSent.strayOf (x : NvSent) (g : Nat) : NvSent := { x with reg := x.reg.filter fun r => r.gang != g }

/-- Whether the peers have acknowledged every write of a copy (17 R377). -/
def allAcked (reg : TlReg) (s : State) : Bool := s.pkg.novilo.all fun x => x.reg != some reg || x.acked

/-- Whether an address of a copy's destination leads to a remote window (17 R377). -/
def remoteTarget (g : Agent) (a : Word) (w : Nat) (s : State) : Option (Nat × Nat) × State :=
  if !canonical a || a.toNat % w ≠ 0 || inWindow a then (none, s)
  else match translate g a w .write s with
    | (.to (.remote peer off), s) => (some (peer, off), s)
    | (_, s) => (none, s)

/-- The destination elements of a sector written, from the j-th. -/
def writeSector (g : Agent) (c : Copy) : List Nat → Nat → State → Ran Unit
  | [], _, s => .done () s
  | v :: vs, j, s =>
    let a := cpDstAddr c j s
    let w := cpDstSize c.record
    match remoteTarget g a w s with
    | (some (peer, off), s) =>
      (match remoteWrite c.reg peer off w v s with
       | some s => writeSector g c vs (j + 1) s
       | none => .bad Cause.access a s)
    | (none, s) =>
      match engineWrite g c.place a w v 0 s with
      | (.val _, s) => writeSector g c vs (j + 1) s
      | (.bad x, s) => .bad x a s
      | (.missed r l, s) => .missed a .write r l s
      | (.held, s) => .held s

/-- The frames of a sector's writes leave, where the sector has ended, and are dropped where it starts again. -/
def Ran.leave (reg : TlReg) : Ran Unit → Ran Unit
  | .done v s => .done v (leaveFrames reg s)
  | .bad x a s => .bad x a (leaveFrames reg s)
  | .missed a need r l s => .missed a need r l (dropFrames reg s)
  | .held s => .held (dropFrames reg s)

/-- The progress record's eight doublewords (10 Table 10-5). -/
def progWords (c : Copy) (state cause : Nat) (a : Word) : List Word :=
  [ofN c.done, ofN (cpTotal c.record), ofN state, ofN cause, a, ofN c.reg.n, 0, 0]

/-- The progress record written, doubleword by doubleword from the i-th. -/
def writeProg (g : Agent) (p : Place) (a : Word) : List Word → State → Ran Unit
  | [], s => .done () s
  | v :: vs, s =>
    match engineWrite g p a 8 v.toNat 0 s with
    | (.val _, s) => writeProg g p (a + 8) vs s
    | (.bad x, s) => .bad x a s
    | (.missed r l, s) => .missed a .write r l s
    | (.held, s) => .held s

/-- The state with one copy of an engine changed. -/
def setCopy (u : CopyUnit) (c : Copy) (f : Copy → Copy) (s : State) : State :=
  modCopies u (fun cs => cs.map fun x => if x = c then f x else x) s

/-- What becomes of a copy after a run of accesses that did not end. -/
def copyStop (u : CopyUnit) (c : Copy) (g : Agent) : Ran α → (α → State → State) → State
  | .done v s, k => k v s
  | .bad x a s, _ => setCopy u c (fun c => { c with started := true, report := false, fin := some (x, a) }) s
  | .missed a need r l s, _ =>
    setCopy u c (fun c => { c with started := true }) (addMiss g (.copy u) a need r l s)
  | .held s, _ => setCopy u c (fun c => { c with started := true }) s

/-- Whether a copy may start: its source tile is sealed; a stale handle fails it (10 R239, R240). -/
inductive StartOk | go | wait | stale
  deriving DecidableEq, Repr

/-- The start condition of a copy. -/
def copyStart (c : Copy) (s : State) : StartOk :=
  if !cpSrch c.record then .go
  else if !handleLive c.gang (cpSrcHdl c.record) s then .wait
  else match handleSlot c.gang (cpSrcHdl c.record) s with
    | none => .stale
    | some (st, stale) => if stale then .stale else if st = .sealed then .go else .wait

/-- Whether a copy's source handle no longer leads to its tile (10 R239, R240; 11 R257). -/
def srcGone (c : Copy) (s : State) : Bool :=
  cpSrch c.record &&
  match handleSlot c.gang (cpSrcHdl c.record) s with
  | none => true
  | some (_, stale) => stale

/-- Whether a copy's destination handle no longer leads to its tile: it is stale, where the copy does not seal the
tile, or its bay is gone (10 R239, R240; log 86). -/
def dstGone (c : Copy) (s : State) : Bool :=
  cpDsth c.record &&
  match handleSlot c.gang (cpDstHdl c.record) s with
  | none => true
  | some (_, stale) => stale && !cpSeal c.record

/-- One sector of a copy, all reads before all writes, by the handles that lead to its tiles now (10 R238-R240). -/
def doSector (u : CopyUnit) (c : Copy) (s : State) : State :=
  if srcGone c s then
    setCopy u c (fun c => { c with started := true, fin := some (Cause.overRead, cpSrcHdl c.record) }) s
  else if dstGone c s then
    setCopy u c (fun c => { c with started := true, fin := some (Cause.overRead, cpDstHdl c.record) }) s
  else
  let g := copyAgent u c s
  let j := c.done * cpSector c.record
  let n := min (cpSector c.record) (cpCount c.record - j)
  copyStop u c g (readSector g c (copyTable u c s) n j [] s) fun vs s =>
    copyStop u c g ((writeSector g c vs j s).leave c.reg) fun _ s =>
      setCopy u c (fun c => { c with started := true, done := c.done + 1,
                                     report := cpProg c.record != 0 }) s

/-- The progress record after a sector (10 R240). -/
def reportSector (u : CopyUnit) (c : Copy) (s : State) : State :=
  let g := copyAgent u c s
  match writeProg g c.place (cpProg c.record) (progWords c 0 0 0) s with
  | .done _ s => setCopy u c (fun c => { c with report := false }) s
  | .bad _ _ s => setCopy u c (fun c => { c with
      report := false, norec := true, fin := some (Cause.access, cpProg c.record) }) s
  | .missed a need r l s => addMiss g (.copy u) a need r l s
  | .held s => s

/-- What a copy engine's failed walk lets it do: nothing while it is out; a kill fails the copy
(10 R240; 15 R345). -/
def withCopyMiss (u : CopyUnit) (c : Copy) (s : State) (k : State → State) : State :=
  match s.missOf (.copy u) with
  | none => k s
  | some m =>
    match m.st with
    | .killed =>
      let rec_ := c.report || c.fin.isSome
      setCopy u c (fun x => { x with
        report := false
        norec := x.norec || rec_
        fin := some (Cause.access, if rec_ then cpProg c.record else m.va) })
        (dropMiss (.copy u) s)
    | .fresh => s
    | .token _ => s

/-- COPY_SECTOR_COMPLETE: the engine's copy moves on by one sector, or writes the record of the last
(R238, R240). -/
def execCopySectorComplete (u : CopyUnit) (s : State) : Host.Outcome State Fault Refusal :=
  .next <|
    match currentCopy (s.copies u) with
    | none => s
    | some c =>
      if c.fin.isSome then s
      else withCopyMiss u c s fun s =>
        if c.report then reportSector u c s
        else if cpTotal c.record ≤ c.done then s
        else if c.started then doSector u c s
        else match copyStart c s with
          | .go => doSector u c s
          | .wait => s
          | .stale => setCopy u c (fun c => { c with started := true,
                                                     fin := some (Cause.overRead, cpSrcHdl c.record) }) s

/-! ### Ends (10 R239, R240, R243) -/

/-- The seal of a destination tile: 0, or the cause it fails with. -/
def sealTile (c : Copy) (s : State) : Nat × State :=
  if !cpSeal c.record then (0, s)
  else match handleRef c.gang (cpDstHdl c.record) s with
    | .bad => (Cause.overRead, s)
    | .ok g r b n gen =>
      match s.slotAt g r b n with
      | none => (Cause.overRead, s)
      | some x =>
        if x.gen ≠ gen then (Cause.overRead, s)
        else if x.st ≠ .filling then (Cause.gallery, s)
        else (0, sealNow g r b n s)

/-- Whether a copy's sectors are all done and reported, and its peers have acknowledged every write (17 R377). -/
def sectorsDone (c : Copy) (s : State) : Bool :=
  decide (cpTotal c.record ≤ c.done) && !c.report && allAcked c.reg s

/-- The handle at whose bay a copy whose sectors are done has still something performed: the seal of its
destination, then the consuming read of its source (10 R239). -/
def copyAsks (c : Copy) (s : State) : Option Word :=
  if !sectorsDone c s || c.fin.isSome then none
  else if cpSeal c.record && !c.sealedDst then some (cpDstHdl c.record)
  else if cpSrch c.record then some (cpSrcHdl c.record)
  else none

/-- What an engine's current copy has performed at a bay (10 R239; 11 R256, R258). -/
def copyAtBay (u : CopyUnit) (s : State) : State :=
  match currentCopy (s.copies u) with
  | none => s
  | some c =>
    if (copyAsks c s).isNone then s
    else if cpSeal c.record && !c.sealedDst then
      let r := sealTile c s
      setCopy u c (fun c => if r.1 = 0 then { c with sealedDst := true }
        else { c with fin := some (r.1, cpDstHdl c.record) }) r.2
    else
      let r := consume c.gang (cpSrcHdl c.record) s
      setCopy u c (fun c => { c with
        fin := some (if r.1 then (0, 0) else (Cause.overRead, cpSrcHdl c.record)) }) r.2

/-- A copy's end reported on its timeline: it leaves the queue, or stays as a failed one behind which
its share's copies halt (10 R243). -/
def copyReport (u : CopyUnit) (c : Copy) (cause : Nat) (s : State) : State :=
  if cause = 0 then tlComplete c.reg (modCopies u (fun cs => cs.filter (· != c)) s)
  else tlFail c.reg Cause.copy (setCopy u c (fun c => { c with failed := true, started := false }) s)

/-- The last write of the progress record, then the report (10 R240). -/
def copyFinish (u : CopyUnit) (c : Copy) (fin : Nat × Word) (s : State) : State :=
  let g := copyAgent u c s
  if cpProg c.record = 0 || c.norec then copyReport u c fin.1 s
  else match writeProg g c.place (cpProg c.record)
      (progWords c (if fin.1 = 0 then 1 else 2) fin.1 fin.2) s with
    | .done _ s => copyReport u c fin.1 s
    | .bad _ _ s => copyReport u c Cause.access s
    | .missed a need r l s => addMiss g (.copy u) a need r l s
    | .held s => s

/-- COPY_COMPLETE: the engine's copy ends, once what it asks of bays has been performed (R239, R240, R243;
13 R313). -/
def execCopyComplete (u : CopyUnit) (s : State) : Host.Outcome State Fault Refusal :=
  .next <|
    match currentCopy (s.copies u) with
    | none => s
    | some c =>
      match c.fin with
      | some f => withCopyMiss u c s fun s => copyFinish u c f s
      | none =>
        if !sectorsDone c s || (copyAsks c s).isSome then s
        else
          let c' := { c with fin := some (0, 0) }
          copyFinish u c' (0, 0) (setCopy u c (fun _ => c') s)

end Sys2Proof.Machine
end

