-- ==== Sys2Proof/Machine/Gallery.lean ====
section
/-!
DEFINITION. Galleries: GALLOC, GTRY, GSEAL, GTAKE, GDONE, GDROP, GSTAT and GBAY, the gallery unit that
performs their requests, its hand-outs and the bay watchdog (11 R249-R270).
-/

namespace Sys2Proof.Machine

/-! ### At the unit -/

/-- What performing a gallery operation at its bay comes to: a value; a fault with its EVAL; a GALLOC in
the bay's FIFO; a tile that is not sealed; a share that is not there now (11 R251). -/
inductive GalAns
  | done (v : Word)
  | fault (cause : Nat) (v : Word)
  | queued
  | unsealed
  | again
  deriving DecidableEq, Repr

/-- Whether a waiter of a FIFO stands at its GALLOC (11 R261: a saved one keeps its position). -/
def waiterHere (w : Waiter) (s : State) : Bool :=
  match waitOf w.place s with
  | some (.allocating h) => h == 0
  | _ => false

/-- One hand-out at bay b of a share: the lowest available slot to the FIFO's head (11 R259). -/
def handOne (g r b : Nat) (s : State) : State :=
  match s.share? g r, s.bayAt g r b with
  | some sh, some y =>
    match y.fifo, y.freeSlot? s.clk with
    | w :: ws, some n =>
      if waiterHere w s then
        let gen := match y.slots[n]? with
          | some x => x.gen
          | none => 0
        let s := modBay g r b (fun y => { y with fifo := ws }) s
        answerWait w.place (.allocating (handleOf sh b n gen).toNat) (fillSlot g r b n w.cnt s)
      else s
    | _, _ => s
  | _, _ => s

/-- Whether a bay of a share has a hand-out to make (11 R259). -/
def handsOut (g r b : Nat) (s : State) : Bool :=
  match s.bayAt g r b with
  | none => false
  | some y =>
    match y.fifo with
    | [] => false
    | w :: _ => (y.freeSlot? s.clk).isSome && waiterHere w s

/-- The hand-outs of a bay in one clk, at most n. -/
def handOuts (g r b : Nat) : Nat → State → State
  | 0, s => s
  | n + 1, s => handOuts g r b n (handOne g r b s)

/-- The hand-outs of every bay that lies on a cluster (11 R259). -/
def clusterHandOuts (cl : Nat) (s : State) : State :=
  ((FMap.vals s.shares).filter fun sh => sh.cl == cl && s.live sh).foldl (fun s sh =>
    (List.range 8).foldl (fun s b => handOuts sh.gang sh.rank b 256 s) s) s

/-- GALLOC and GTRY at the bay (11 R259, R265). -/
def allocAt (try_ : Bool) (p : Place) (ref : Word) (c : Nat) (s : State) : GalAns × State :=
  match bayRef p ref s with
  | .bad => (.fault Cause.gallery 1, s)
  | .ok g r b _ _ =>
    match s.share? g r, s.bayAt g r b with
    | some sh, some y =>
      if !s.live sh then (.again, s)
      else
        match (if y.fifo.isEmpty then y.freeSlot? s.clk else none) with
        | some n =>
          let gen := match y.slots[n]? with
            | some x => x.gen
            | none => 0
          (.done (handleOf sh b n gen), fillSlot g r b n c s)
        | none =>
          if try_ then (.done 0, s)
          else
            let w : Waiter := { place := p, ref := ref, cnt := c, pc := (s.thread p).pc }
            (.queued, modBay g r b (fun y => { y with fifo := y.fifo ++ [w] }.watch s.clk false) s)
    | _, _ => (.fault Cause.gallery 1, s)

/-- An operation on a handle at its bay: a fault when the handle is invalid, a wait when its share is
saved, or k with the slot, told whether the handle is stale (11 R251, R253). -/
def atSlot (p : Place) (h : Word) (s : State)
    (k : Nat → Nat → Nat → Nat → Slot → Bool → State → GalAns × State) : GalAns × State :=
  match handleRef (s.thread p).gang h s with
  | .bad => (.fault Cause.gallery 4, s)
  | .ok g r b n gen =>
    if !s.shareLive g r then (.again, s)
    else match s.slotAt g r b n with
      | none => (.fault Cause.gallery 4, s)
      | some x => k g r b n x (x.gen != gen) s

/-- GSEAL at the bay (11 R266). -/
def sealAt (p : Place) (h : Word) (s : State) : GalAns × State :=
  atSlot p h s fun g r b n x stale s =>
    if stale || x.st != .filling then (.fault Cause.gallery 5, s) else (.done 0, sealNow g r b n s)

/-- GTAKE and GDONE at the bay (11 R267). -/
def takeAt (counts : Bool) (p : Place) (h : Word) (s : State) : GalAns × State :=
  atSlot p h s fun g r b n x stale s =>
    if stale then (.fault Cause.overRead h, s)
    else if x.st != .sealed then (.unsealed, s)
    else (.done (handleAddr g h s), if counts then takeSlot g r b n 1 s else s)

/-- GDROP at the bay (11 R268). -/
def dropAt (p : Place) (h : Word) (k : Nat) (s : State) : GalAns × State :=
  atSlot p h s fun g r b n x stale s =>
    if stale || decide (x.cnt < k) then (.fault Cause.overRead h, s) else (.done 0, takeSlot g r b n k s)

/-- GSTAT.BAY's value (11 Table 11-6). -/
def Bay.stat (y : Bay) (clk : Nat) : Word :=
  ofN (y.cntm1 * 2 ^ 36 + y.lsz * 2 ^ 32 + min y.fifo.length 65535 * 2 ^ 16 +
    (y.slots.filter (·.ready clk)).length)

/-- GSTAT.BAY at the bay (11 R269). -/
def statBayAt (p : Place) (ref : Word) (s : State) : GalAns × State :=
  match bayRef p ref s with
  | .bad => (.fault Cause.gallery 1, s)
  | .ok g r b _ _ =>
    if !s.shareLive g r then (.again, s)
    else match s.bayAt g r b with
      | some y => (.done (y.stat s.clk), s)
      | none => (.fault Cause.gallery 1, s)

/-- GSTAT.TILE's value for a current handle (11 Table 11-7). -/
def Slot.stat (x : Slot) : Word :=
  match x.st with
  | .free => 3
  | .filling => ofN (x.cnt * 256 + 1)
  | .sealed => ofN (x.cnt * 256 + 2)

/-- GSTAT.TILE at the bay (11 R269). -/
def statTileAt (p : Place) (h : Word) (s : State) : GalAns × State :=
  atSlot p h s fun _ _ _ _ x stale s => (.done (if stale then 0 else x.stat), s)

/-- The physical bays of a cluster that its resident shares hold (11 R249). -/
def heldBays (cl : Nat) (s : State) : List Nat :=
  ((FMap.vals s.shares).filter fun sh => sh.cl == cl && s.holds sh).flatMap fun sh =>
    sh.bays.filterMap fun o => o.map (·.phys)

/-- The lowest free physical bay of a cluster. -/
def freeBay? (cl : Nat) (s : State) : Option Nat :=
  (List.range 8).find? fun n => !(heldBays cl s).contains n

/-- Whether an entry's slots leave the share's scratchpad or meet another of its bays (11 R250). -/
def bayRangeBad (sh : Share) (b : Nat) (e : Word) : Bool :=
  let base := wbits e 31 0
  let size := (wbits e 43 36 + 1) * 2 ^ wbits e 35 32
  decide (sh.spadSize < base + size) ||
  (List.range 8).any fun j => j != b &&
    match sh.bay? j with
    | some y => decide (base < y.base + (y.cntm1 + 1) * 2 ^ y.lsz) && decide (y.base < base + size)
    | none => false

/-- Whether an entry's own fields are bad (11 R270). The 4 bits of LSZ hold no 16, which their range names: they are
read as they stand, so no bay has slots of 64 KiB (log 94). -/
def bayEntryBad (e : Word) : Bool :=
  wbits e 63 45 != 0 ||
  (wbit e 44 && (decide (wbits e 35 32 < 8) || decide (16 < wbits e 35 32) ||
    wbits e 31 0 % 2 ^ wbits e 35 32 != 0))

/-- Whether what a thread of gang g waits to be sealed is a tile of bay b of share (g, r). -/
def waitsOnBay (g r b : Nat) (t : Thread) (s : State) : Bool :=
  match t.sealing with
  | some w =>
    t.gang == g &&
    (match handleRef g w.2.1 s with
     | .ok _ k j _ _ => k == r && j == b
     | .bad => false)
  | none => false

/-- A waiting thread with the answer that ends its wait. -/
def Thread.answer (a : Wait) (t : Thread) : Thread :=
  match t.run with
  | .wait i _ => { t with run := .wait i a }
  | .running => t
  | .idle => t
  | .retired => t
  | .fetchSleep => t

/-- The waits for a seal at bay b of share (g, r) end, those of saved threads too: with gallery fault when the bay is
removed, and with over-read when it is redefined, which makes their handles stale (11 R261, R270). -/
def endSealWaits (g r b : Nat) (removed : Bool) (s : State) : State :=
  let f := fun (t : Thread) =>
    if waitsOnBay g r b t s then
      t.answer (if removed then .answered false (ofN Cause.gallery) 1
        else .answered false (ofN Cause.overRead) ((t.sealing.map fun w => w.2.1).getD 0))
    else t
  { s with
    threads := s.threads.map fun e => (e.1, f e.2)
    shares := s.shares.map fun e => (e.1, { e.2 with saved := e.2.saved.map fun v =>
      { v with threads := v.threads.map fun pt => (pt.1, f pt.2) } }) }

/-- GBAY at the bay (11 R270). -/
def gbayAt (sel e : Word) (s : State) : GalAns × State :=
  let b := wbits sel 2 0
  let cl := wbits sel 15 8
  match (if wbits sel 63 48 ≠ 0 ∨ wbits sel 7 3 ≠ 0 then none
         else (s.sharesOf (wbits sel 47 16)).find? fun sh => sh.cl == cl && sh.saved.isNone) with
  | none => (.fault Cause.gallery 1, s)
  | some sh =>
    let old := sh.bay? b
    let valid := wbit e 44
    let held := match old with
      | some y => y.slots.any (fun x => x.st != SlotSt.free) || !y.fifo.isEmpty
      | none => false
    let phys := match old with
      | some y => some y.phys
      | none => freeBay? cl s
    if bayEntryBad e then (.fault Cause.gallery 8, s)
    else if held then (.fault Cause.gallery 6, s)
    else if valid && bayRangeBad sh b e then (.fault Cause.gallery 7, s)
    else match (if valid then phys else some 0) with
      | none => (.fault Cause.gallery 8, s)
      | some n =>
        let new := if valid then some (bayOf n e) else none
        let s := if old.isSome then endSealWaits sh.gang sh.rank b (!valid) s else s
        (.done ((old.map Bay.entry).getD 0),
         s.modShare sh.gang sh.rank fun sh => { sh with bays := sh.bays.set b new })

/-- A request performed at the unit (11 R258). -/
def galPerform (q : GReq) (s : State) : GalAns × State :=
  match q.op with
  | .galloc _ _ _ => allocAt false q.place q.a q.b.toNat s
  | .gtry _ _ _ => allocAt true q.place q.a q.b.toNat s
  | .gseal _ => sealAt q.place q.a s
  | .gtake _ _ => takeAt false q.place q.a s
  | .gdone _ => takeAt true q.place q.a s
  | .gdrop _ _ => dropAt q.place q.a q.b.toNat s
  | .gstatBay _ _ => statBayAt q.place q.a s
  | .gstatTile _ _ => statTileAt q.place q.a s
  | .gbay _ _ _ => gbayAt q.a q.b s
  | _ => (.again, s)

/-! ### At the thread -/

/-- The cluster that now holds what an operation names, its own where it names nothing. -/
def refCluster (r : TileRef) (p : Place) (s : State) : Nat :=
  match r with
  | .ok g k _ _ _ => ((s.share? g k).map (·.cl)).getD 0
  | .bad => p.cluster?.getD 0

/-- The port of a unit a place's requests come by (11 R258). -/
def galPort (p : Place) (cl : Nat) : Nat :=
  match p with
  | .ctx c k _ => if c = cl then k else 34
  | .lane c e _ _ => if c = cl then 32 + e else 34
  | .lctx _ _ _ => 34

/-- A gallery operation of the thread at p sent to the unit of cluster cl, which it reaches in a later clk
(11 R258; log 83). -/
def galSend (p : Place) (op : Instr) (a b : Word) (cl : Nat) (s : State) : Res :=
  let q : GReq := { place := p, port := galPort p cl, op := op, a := a, b := b, clk := s.clk }
  .wait (s.modCluster cl fun c => { c with gal := c.gal ++ [q] }) (.waiting 2 0)

/-- A thread that has sent its request: still out, or answered; otherwise `first` (11 R258, R261). -/
def galWord (p : Place) (s : State) (fin : Word → State → Res) (first : Res) : Res :=
  match waitOf p s with
  | some (.answered true v _) => fin v s
  | some (.answered false c v) => .trap s c.toNat v
  | some (.allocating h) => if h = 0 then .wait s (.allocating 0) else fin (ofN h) s
  | some (.waiting 2 n) => .wait s (.waiting 2 n)
  | _ => first

/-- The end of an allocation: an acquire, the handle and the address (11 R265). -/
def allocFin (p : Place) (d : Reg) (h : Word) (s : State) : Res :=
  let s := if h = 0 then s else acquire p .die s
  .ok (setXNext p 0 d (if h = 0 then 0 else handleAddr (s.thread p).gang h s) (setX p 0 d h s))

/-- GALLOC and GTRY of one thread (11 R265). -/
def allocBody (op : Instr) (d a b : Reg) (p : Place) (s : State) : Res :=
  galWord p s (allocFin p d) <|
    let r := getX p a s
    let c := getX p b s
    let ref := bayRef p r s
    if ref = .bad then .trap s Cause.gallery 1
    else if c = 0 ∨ 255 < c.toNat then .trap s Cause.gallery 3
    else galSend p op r c (refCluster ref p s) s

/-- GALLOC (R265). -/
def execGalloc (d a b : Reg) (s : State) : Host.Outcome State Fault Refusal :=
  issueWord (.galloc d a b) (fun _ p s => allocBody (.galloc d a b) d a b p s) s

/-- GTRY (R265). -/
def execGtry (d a b : Reg) (s : State) : Host.Outcome State Fault Refusal :=
  issueWord (.gtry d a b) (fun _ p s => allocBody (.gtry d a b) d a b p s) s

/-- The check of a handle, then k with the cluster that holds its bay (11 R253). -/
def withHandle (p : Place) (h : Word) (s : State) (k : Nat → State → Res) : Res :=
  let ref := handleRef (s.thread p).gang h s
  if ref = .bad then .trap s Cause.gallery 4 else k (refCluster ref p s) s

/-- GSEAL (R266): the release, then the seal at the bay. -/
def execGseal (a : Reg) (s : State) : Host.Outcome State Fault Refusal :=
  issueWord (.gseal a) (fun _ p s =>
    galWord p s (fun _ s => .ok s) <|
      let h := getX p a s
      withHandle p h s fun cl s => releaseThen p (galScope p cl) true s fun s =>
        galSend p (.gseal a) h 0 cl s) s

/-- GTAKE (R267). -/
def execGtake (d a : Reg) (s : State) : Host.Outcome State Fault Refusal :=
  issueWord (.gtake d a) (fun _ p s =>
    let h := getX p a s
    let fin := fun (v : Word) (s : State) => Res.ok (setX p 0 d v (acquire p .die s))
    let k := fun (s : State) => fin (handleAddr (s.thread p).gang h s) s
    if stageOf p s = 1 || stageOf p s = 3 then sealWait p h s id k k
    else galWord p s fin <| withHandle p h s fun cl s => galSend p (.gtake d a) h 0 cl s) s

/-- GDONE (R267): a release; the count, which a wait for the seal ends with, and then an acquire. One whose tile was
sealed while its thread was saved asks the bay again (11 R258, R261). -/
def execGdone (a : Reg) (s : State) : Host.Outcome State Fault Refusal :=
  issueWord (.gdone a) (fun _ p s =>
    let h := getX p a s
    if stageOf p s = 1 || stageOf p s = 3 then
      sealWait p h s id (fun s => .ok (acquire p .die s)) fun s =>
        galSend p (.gdone a) h 0 (refCluster (handleRef (s.thread p).gang h s) p s) (acquire p .die s)
    else galWord p s (fun _ s => .ok s) <| withHandle p h s fun cl s =>
      releaseThen p (galScope p cl) true s fun s =>
        galSend p (.gdone a) h 0 cl s) s

/-- GDROP (R268). -/
def execGdrop (a b : Reg) (s : State) : Host.Outcome State Fault Refusal :=
  issueWord (.gdrop a b) (fun _ p s =>
    galWord p s (fun _ s => .ok s) <|
      let h := getX p a s
      let k := getX p b s
      withHandle p h s fun cl s =>
        if k = 0 ∨ 255 < k.toNat then .trap s Cause.gallery 3
        else releaseThen p (galScope p cl) true s fun s =>
          galSend p (.gdrop a b) h k cl s) s

/-- GSTAT.BAY (R269). -/
def execGstatBay (d a : Reg) (s : State) : Host.Outcome State Fault Refusal :=
  issueWord (.gstatBay d a) (fun _ p s =>
    let fin := fun (v : Word) (s : State) => Res.ok (setX p 0 d v s)
    galWord p s fin <|
      let r := getX p a s
      let ref := bayRef p r s
      if ref = .bad then .trap s Cause.gallery 1
      else galSend p (.gstatBay d a) r 0 (refCluster ref p s) s) s

/-- GSTAT.TILE (R269). -/
def execGstatTile (d a : Reg) (s : State) : Host.Outcome State Fault Refusal :=
  issueWord (.gstatTile d a) (fun _ p s =>
    let fin := fun (v : Word) (s : State) => Res.ok (setX p 0 d v s)
    galWord p s fin <|
      let h := getX p a s
      withHandle p h s fun cl s => galSend p (.gstatTile d a) h 0 cl s) s

/-- GBAY (R270). On a cluster number that no cluster has lies no share. -/
def execGbay (d a b : Reg) (s : State) : Host.Outcome State Fault Refusal :=
  issueWord (.gbay d a b) (fun _ p s =>
    let fin := fun (v : Word) (s : State) => Res.ok (setX p 0 d v s)
    galWord p s fin <|
      let sel := getX p a s
      if 192 ≤ wbits sel 15 8 then .trap s Cause.gallery 1
      else galSend p (.gbay d a b) sel (getX p b s) (wbits sel 15 8) s) s

/-! ### Events -/

/-- The answer of a request given to the thread that waits for it. -/
def galAnswer (p : Place) : GalAns → State → State
  | .done v, s => answerWait p (.answered true v 0) s
  | .fault c v, s => answerWait p (.answered false (ofN c) v) s
  | .queued, s => answerWait p (.allocating 0) s
  | .unsealed, s => answerWait p (unsealed s).2 (unsealed s).1
  | .again, s => answerWait p (.waiting 0 0) s

/-- The bays' watchdogs as a clk begins: a count stops where a slot has become available (11 R262). -/
def watchBays (s : State) : State :=
  let f := fun (y : Bay) => if y.wd.isSome then y.watch s.clk false else y
  { s with shares := s.shares.map fun e => (e.1, { e.2 with bays := e.2.bays.map fun o => o.map f }) }

/-- GALLERY_HANDOUT: available slots go to the waiters of a cluster's bays (R259). -/
def execGalleryHandout (cl : Nat) (s : State) : Host.Outcome State Fault Refusal :=
  .next (clusterHandOuts cl s)

/-- The waiters of a bay that have waited too long (11 R262). -/
def stalled (g r b : Nat) (s : State) : List Waiter :=
  match s.bayAt g r b with
  | none => []
  | some y =>
    match y.wd with
    | none => []
    | some c =>
      if s.clk < c + 65536 || !s.shareLive g r || (y.freeSlot? s.clk).isSome then []
      else y.fifo.filter (fun w => waiterHere w s)

/-- BAY_WATCHDOG_EXPIRY: every waiter present in a bay's FIFO takes bay-stall fault, recorded once with
the first one's fields, and the count restarts (R262). -/
def execBayWatchdogExpiry (g r : Nat) (b : Fin 8) (s : State) : Host.Outcome State Fault Refusal :=
  .next <|
    let s := if s.shareLive g r then handOuts g r b.val 256 s else s
    match stalled g r b.val s with
    | [] => s
    | w :: ws =>
      let s := recordFault w.place w.pc w.ref Cause.bayStall s
      let s := (w :: ws).foldl (fun s x =>
        answerWait x.place (.answered false (ofN Cause.bayStall) x.ref) s) s
      modBay g r b.val (fun y =>
        ({ y with fifo := y.fifo.filter fun x => !(w :: ws).contains x }).watch s.clk true) s

end Sys2Proof.Machine
end

