-- ==== Sys2Proof/Machine/BankMath.lean ====
section
/-!
DEFINITION. The bank's arithmetic: guard plans, segments, packing, products, extraction, keep lists and
accumulation (12 R272-R281, R292-R299).
-/

namespace Sys2Proof.Machine

/-! ### The guard plan (12 Table 12-2) -/

/-- A guard plan. -/
structure Plan where
  wa : Nat
  sa : Bool
  wb : Nat
  sb : Bool
  s : Nat
  k : Nat
  blk : Nat
  lean : Bool
  scaled : Bool
  pair : Nat
  sat : Bool
  deriving DecidableEq, Repr

/-- The plan a WGP value holds. -/
def planOf (w : Word) : Plan where
  wa := wbits w 3 0 + 1
  sa := wbit w 4
  wb := wbits w 8 5 + 1
  sb := wbit w 9
  s := wbits w 15 10
  k := wbits w 27 16 + 1
  blk := 2 ^ (wbits w 30 28 + 3)
  lean := wbit w 31
  scaled := wbit w 32
  pair := wbits w 34 33
  sat := wbit w 35

/-- L = ⌈log₂ K⌉ (12 R274). -/
def Plan.l (p : Plan) : Nat := clog2 p.k
/-- sg: 1 when a side is signed. -/
def Plan.sg (p : Plan) : Nat := b2n (p.sa || p.sb)
/-- K·S, the width of a segment. -/
def Plan.ks (p : Plan) : Nat := p.k * p.s
/-- G, the segments of a register (12 R273). -/
def Plan.g (p : Plan) : Nat := 65536 / p.ks
/-- Whether a side is signed. -/
def Plan.signed (p : Plan) : Side → Bool
  | .a => p.sa
  | .b => p.sb
/-- The element width of a side. -/
def Plan.width (p : Plan) : Side → Nat
  | .a => p.wa
  | .b => p.wb

/-- The EVAL code of a value no WGP may hold (12 Table 12-3). -/
def wgpBad (w : Word) : Option Nat :=
  let p := planOf w
  firstFail
    [(wbits w 63 36 != 0 || p.pair == 3 || decide (5 < wbits w 30 28), 1),
     ((p.sa && p.wa == 1) || (p.sb && p.wb == 1), 2),
     (decide (p.s < max p.wa p.wb + 1), 3),
     (decide (65536 < p.ks), 4),
     (!p.lean && decide (p.s < p.wa + p.wb + p.l + p.sg), 5),
     (p.scaled && (p.k != 2 ^ p.l || decide (p.blk < p.k)), 6)]

/-! ### Keep runs (12 R280) -/

/-- The indices of a keep run. -/
def keepRun (w : Word) : List Nat :=
  (List.range (wbits w 44 32)).map fun t => wbits w 12 0 + t * wbits w 28 16

/-- Whether a keep run's own bits are bad. -/
def keepReserved (w : Word) : Bool :=
  wbits w 63 45 != 0 || wbits w 31 29 != 0 || wbits w 15 13 != 0

/-- The keep list of a captured configuration. -/
def keepList (cfg : List Word) : List Nat :=
  (List.range 4).flatMap fun k => keepRun (recWord cfg (k + 1))

/-! ### Segments (12 R272, R273) -/

/-- TAG of a segment. -/
def ZVal.tagOf (z : ZVal) (g : Nat) : Nat := FMap.getD z.tag g 0
/-- EXP of a segment. -/
def ZVal.expOf (z : ZVal) (g : Nat) : Nat := FMap.getD z.exp g 0

/-- Side state with entry g; a 0 is not listed. -/
def putSide (m : FMap Nat) (g v : Nat) : FMap Nat := if v = 0 then FMap.del m g else FMap.put m g v

/-- Bits [lo + w − 1 : lo] as an integer of a side. -/
def fieldInt (v lo w : Nat) (signed : Bool) : Int :=
  let f := v / 2 ^ lo % 2 ^ w
  if signed then sext f w else f

/-- Segment g as an integer: 0 at or above NSEG (12 R272, R273). -/
def ZVal.seg (z : ZVal) (p : Plan) (signed : Bool) (g : Nat) : Int :=
  if g < z.nseg then fieldInt z.bits.toNat (g * p.ks) p.ks signed else 0

/-- Coefficient m of an integer under the plan (12 R279); `signed` stands for sg. -/
def extract (p : Plan) (signed : Bool) (v : Int) (m : Nat) : Int :=
  if 2 * p.k - 1 ≤ m then 0
  else
    let f := v / 2 ^ (m * p.s) % 2 ^ p.s
    if signed then
      let c := sext f p.s
      if 1 ≤ m then c + v / 2 ^ (m * p.s - 1) % 2 else c
    else f

/-- Σ e_k·2^(kS) of a list of slots. -/
def slotSum (s : Nat) : List Int → Int
  | [] => 0
  | e :: es => e + 2 ^ s * slotSum s es

/-- The bit length of the largest magnitude of a list (12 R276). -/
def tagOfSlots (es : List Int) : Nat := bitLen (es.foldl (fun m e => max m e.natAbs) 0)

/-- A register with segment g written from its slots, with its tag and exponent; the bits were 0. -/
def ZVal.putSeg (z : ZVal) (p : Plan) (g : Nat) (slots : List Int) (e : Nat) : ZVal :=
  { bits := BitVec.ofNat 65536 (z.bits.toNat + lowBits (slotSum p.s slots) p.ks * 2 ^ (g * p.ks))
    nseg := g + 1
    tag := putSide z.tag g (tagOfSlots slots)
    exp := putSide z.exp g e }

/-- A packed element after the range check: none when it is out of range and SAT is 0 (12 R277). -/
def rangeCheck (p : Plan) (sd : Side) (e : Int) : Option Int :=
  let w := p.width sd
  let v := if p.signed sd then sat e w else satu e w
  if v = e ∨ p.sat then some v else none

/-! ### Pairs (12 R278) -/

/-- A segment window's NA or NB: 0 stands for all loaded segments from the first. -/
def windowCount (n first nseg : Nat) : Nat := if n = 0 then nseg - first else n

/-- Whether a pair lies within the registers (12 R278). -/
def Plan.holds (p : Plan) (x : Nat × Nat) : Bool := decide (x.1 < p.g) && decide (x.2 < p.g)

/-- The number of pairs of a WMUL (12 R293). -/
def mulCount (p : Plan) (win : Word) (za zb : ZVal) : Nat :=
  if p.pair = 2 then 1
  else min (windowCount (wbits win 31 16) (wbits win 15 0) za.nseg)
    (windowCount (wbits win 63 48) (wbits win 47 32) zb.nseg)

/-- Pair g of a WMUL (12 R293). -/
def mulAt (p : Plan) (win : Word) (g : Nat) : Nat × Nat :=
  if p.pair = 2 then (0, 0) else (wbits win 15 0 + g, wbits win 47 32 + g)

/-- The pairs a WMUL multiplies: those that lie within the registers (12 R278). -/
def mulPairs (p : Plan) (win : Word) (za zb : ZVal) : List (Nat × Nat) :=
  ((List.range (mulCount p win za zb)).map (mulAt p win)).filter p.holds

/-- The pairs of a window that lie within the registers, in order. -/
def pairsOf (p : Plan) (win : Word) (za zb : ZVal) : List (Nat × Nat) :=
  let ia := wbits win 15 0
  let jb := wbits win 47 32
  let na := windowCount (wbits win 31 16) ia za.nseg
  let nb := windowCount (wbits win 63 48) jb zb.nseg
  let all := match p.pair with
    | 0 => (List.range na).flatMap fun i => (List.range nb).map fun j => (ia + i, jb + j)
    | 1 => (List.range (min na nb)).map fun g => (ia + g, jb + g)
    | _ => [(0, 0)]
  all.filter p.holds

/-! ### Accumulation (12 R281) -/

/-- The accumulators with ACCOVF. -/
structure Accs where
  acc : FMap Word
  ovf : Bool
  deriving DecidableEq, Repr

/-- The accumulators with one written; an accumulator of 0 is not listed. -/
def accPut (m : FMap Word) (i : Nat) (v : Word) : FMap Word := if v = 0 then FMap.del m i else FMap.put m i v

/-- An accumulator as an integer. -/
def accGet (m : FMap Word) (i : Nat) : Int := sext (FMap.getD m i 0).toNat 64

/-- One addition to accumulator i. -/
def Accs.add (x : Accs) (i : Nat) (v : Int) : Accs :=
  let t := accGet x.acc i + v
  { acc := accPut x.acc i (ofI t)
    ovf := x.ovf || decide (t < -2 ^ 63) || decide (2 ^ 63 - 1 < t) }

/-- A coefficient scaled by a block exponent that stands `d` above EBASE. -/
def scaleBy (c d : Int) : Int := if 0 ≤ d then c * 2 ^ d.toNat else shiftRne c (-d).toNat

/-- The kept coefficients of one product added from an accumulator on. -/
def accKeep (p : Plan) (v : Int) (scale : Int → Int) : List Nat → Nat → Accs → Accs
  | [], _, x => x
  | m :: ms, i, x =>
    accKeep p v scale ms (i + 1) (x.add (i % 65536) (scale (extract p (p.sg == 1) v m)))

/-- What a run of multiply-accumulates has done: pairs performed, the first pair skipped under LEAN and
how many were (12 R276). -/
structure MacRun where
  accs : Accs
  done : Nat
  first : Option (Nat × Nat)
  skipped : Nat
  deriving DecidableEq, Repr

/-- A pair skipped. -/
def MacRun.skip (r : MacRun) (i j : Nat) : MacRun :=
  { r with first := some (r.first.getD (i, j)), skipped := r.skipped + 1 }

/-- How a coefficient is scaled for a pair: EBASE and the exponents (12 R281). -/
def pairScale (p : Plan) (wacb : Word) (ea eb : Nat) (c : Int) : Int :=
  if !p.scaled then c
  else if ea = 0 ∨ eb = 0 then 0
  else scaleBy c ((ea : Int) + eb - wbits wacb 56 48)

/-- WMAC's work (12 R294). -/
def macAll (p : Plan) (cfg : List Word) (off : Nat) (za zb : ZVal) (ps : List (Nat × Nat)) (x : Accs) :
    MacRun :=
  let wacb := recWord cfg 5
  let keep := keepList cfg
  ps.foldl (fun r q =>
    if p.lean && decide (p.s ≤ za.tagOf q.1 + zb.tagOf q.2 + p.l + p.sg) then r.skip q.1 q.2
    else
      let v := za.seg p p.sa q.1 * zb.seg p p.sb q.2
      let i := wbits wacb 15 0 + off + q.1 * wbits wacb 31 16 + q.2 * wbits wacb 47 32
      { r with
        accs := accKeep p v (pairScale p wacb (za.expOf q.1) (zb.expOf q.2)) keep i r.accs
        done := r.done + 1 }) { accs := x, done := 0, first := none, skipped := 0 }

/-- The products of a WEXT window (12 R295). -/
def extWindow (win : Word) (zd : ZVal) : List Nat :=
  let f := wbits win 15 0
  ((List.range (windowCount (wbits win 31 16) f zd.nseg)).map (f + ·)).filter fun g => decide (g < zd.nseg)

/-- WEXT's work on the register pair lo, hi. -/
def extAll (p : Plan) (cfg : List Word) (off : Nat) (lo hi : ZVal) (gs : List Nat) (x : Accs) : MacRun :=
  let wacb := recWord cfg 5
  let keep := keepList cfg
  let bits := lo.bits.toNat + hi.bits.toNat * 2 ^ 65536
  gs.foldl (fun r g =>
    if p.lean && decide (p.s ≤ lo.tagOf g + p.l + p.sg) then r.skip g g
    else
      let v := fieldInt bits (g * (2 * p.ks)) (2 * p.ks) true
      let i := wbits wacb 15 0 + off + g * wbits wacb 31 16
      let scale := fun (c : Int) =>
        if !p.scaled then c
        else if lo.expOf g = 0 then 0
        else scaleBy c ((lo.expOf g : Int) - wbits wacb 56 48)
      { r with accs := accKeep p v scale keep i r.accs, done := r.done + 1 })
    { accs := x, done := 0, first := none, skipped := 0 }

/-- BFDETAIL of a guard overflow (12 R276). -/
def MacRun.detail (r : MacRun) : Word :=
  let f := r.first.getD (0, 0)
  ofN (f.1 % 65536 + f.2 % 65536 * 2 ^ 16 + min r.skipped 65535 * 2 ^ 32)

/-! ### Products (12 R293) -/

/-- WMUL's register pair. -/
def mulPair (p : Plan) (win : Word) (za zb : ZVal) : ZVal × ZVal :=
  let n := mulCount p win za zb
  let at_ := mulAt p win
  let gs := List.range n
  let bits := gs.foldl (fun acc g =>
    let q := at_ g
    if p.holds q then
      acc + lowBits (za.seg p p.sa q.1 * zb.seg p p.sb q.2) (2 * p.ks) * 2 ^ (g * (2 * p.ks))
    else acc) 0
  let tag := gs.foldl (fun m g => putSide m g (za.tagOf (at_ g).1 + zb.tagOf (at_ g).2)) []
  let exp := gs.foldl (fun m g =>
    let ea := za.expOf (at_ g).1
    let eb := zb.expOf (at_ g).2
    putSide m g (if ea = 0 ∨ eb = 0 then 0 else ea + eb)) []
  ({ bits := BitVec.ofNat 65536 bits, nseg := n, tag := tag, exp := exp },
   { ZVal.blank with bits := BitVec.ofNat 65536 (bits / 2 ^ 65536) })

/-! ### Shifts (12 R299) -/

/-- The elements of a segment read and extracted for a side. -/
def ZVal.elems (z : ZVal) (p : Plan) (sd : Side) (g : Nat) : List Int :=
  let v := z.seg p (p.signed sd) g
  (List.range p.k).map fun k => extract p (p.signed sd) v k

/-- WSHFT's register. -/
def shiftSegs (p : Plan) (sd : Side) (n : Int) (z : ZVal) : ZVal :=
  (List.range z.nseg).foldl (fun r g =>
    let es := z.elems p sd g
    let moved := (List.range p.k).map fun (k : Nat) =>
      let j := (k : Int) - n
      if 0 ≤ j ∧ j < p.k then (es[j.toNat]?).getD 0 else 0
    r.putSeg p g moved (z.expOf g)) ZVal.blank

/-! ### Occupancy (12 R283) -/

/-- Four times the cost of an element product. -/
def Plan.cost4 (p : Plan) : Nat :=
  if p.wa ≤ 2 ∧ p.wb ≤ 2 then 1 else 4 * (cdiv p.wa 4 * cdiv p.wb 4)

/-- Numbers of a list without repeats. -/
def distinct (l : List Nat) : List Nat := l.foldl (fun a m => if a.contains m then a else m :: a) []

/-- The occupancy of a multiply-accumulate over n pairs. -/
def macClk (p : Plan) (keep : List Nat) (n : Nat) : Nat :=
  let cells := (distinct keep).foldl (fun c m =>
    if m < 2 * p.k - 1 then c + (min m (2 * p.k - 2 - m) + 1) else c) 0
  max 1 (cdiv (n * cells * p.cost4) (4 * 196608))

/-- The occupancy of n bytes of memory traffic. -/
def memClk (n : Nat) : Nat := max 1 (cdiv n 256)

/-- The clk a register takes across a link (12 R289). -/
def linkClk (z : ZVal) : Nat := max 4 (cdiv (8 + 3 * z.nseg) 2048)

end Sys2Proof.Machine
end

