-- ==== Sys2Proof/Machine/BankOps.lean ====
section
/-!
DEFINITION. The BANK words: their single execution in a wave, the checks made at issue, the immediate
operations, and the entry of the queued ones (02 R53; 12 R271, R274, R282, R286, R291-R301).
-/

namespace Sys2Proof.Machine

/-! ### The single execution of a word in a wave (02 R53) -/

/-- An end of a word with another state. -/
def Res.at : Res → State → Res
  | .ok _, s => .ok s
  | .jump _ t, s => .jump s t
  | .eret _ t, s => .eret s t
  | .trap _ c v, s => .trap s c v
  | .trapNext _ c v, s => .trapNext s c v
  | .wait _ w, s => .wait s w
  | .left _, s => .left s

/-- The state an end of a word leaves. -/
def Res.state : Res → State
  | .ok s => s
  | .jump s _ => s
  | .eret s _ => s
  | .trap s _ _ => s
  | .trapNext s _ _ => s
  | .wait s _ => s
  | .left s => s

/-- An end with its *waiting* at the first stage marked by the lane that executes for the others, so
that two groups of lanes that wait at one word stay apart. -/
def Res.mark (ln : Nat) : Res → Res
  | .wait s (.waiting 0 _) => .wait s (.waiting 0 ln)
  | r => r

/-- One end shared by lanes: each finishes its word with it. -/
def shareEnd (i : Instr) (r : Res) (ls : List Place) : State :=
  ls.foldl (fun s p =>
    let t := s.thread p
    finishAt p i t.pc t.grem (r.at s)) r.state

/-- A BANK word for the lanes at the issuing pc: once, with the lowest active lane's operands; decode
faults and pacing traps lane by lane. -/
def runBank (i : Instr) (body : Body) (c : Ctx) (ls : List Place) (s : State) : State :=
  match c.act with
  | [] => runLanes i body c ls s
  | p :: _ =>
    if (decodeFault i p (s.thread p)).isSome || (earlyRead i c.act p c.pre).isSome then runLanes i body c ls s
    else
      let off := ls.filter fun q => !c.act.contains q
      shareEnd i ((body c p (shareEnd i (.ok s) off)).mark p.laneNum) c.act

/-- The lanes blocked together with the one at p in a BANK word. -/
def blockedWith (p : Place) (s : State) : List Place :=
  match p with
  | .lane cl e sl _ => (s.lanes cl e sl).filter fun q =>
      (s.thread q).pc == (s.thread p).pc && (s.thread q).run == (s.thread p).run
  | .ctx _ _ _ => [p]
  | .lctx _ _ _ => [p]

/-- A waiting BANK word looked at again for all the lanes that wait in it together. -/
def resumeBank (i : Instr) (body : Body) (p : Place) (s : State) : State :=
  match (s.thread p).run with
  | .wait j _ =>
    if j = i then
      let ls := blockedWith p s
      let q := ls.headD p
      shareEnd i ((body { act := ls, pre := s } q s).mark q.laneNum) ls
    else s
  | .running => s
  | .idle => s
  | .retired => s
  | .fetchSleep => s

/-- The execution of a BANK word at the present turn. -/
def issueBank (i : Instr) (body : Body) (s : State) : Host.Outcome State Fault Refusal :=
  match s.turn with
  | .issue (.wave cl e sl) _ =>
    if (s.standing (.wave cl e sl)).isEmpty then .fault .noThread
    else .next (issueWave i (runBank i body) cl e sl s)
  | .resume (.lane cl e sl ln) =>
    if (s.thread? (.lane cl e sl ln)).isSome then .next (resumeBank i body (.lane cl e sl ln) s)
    else .fault .noThread
  | _ => issueWord i body s

/-! ### The bank of a share (12 R271) -/

/-- The share that holds a cluster's bank, if one does. -/
def State.bankShare? (s : State) (cl : Nat) : Option Share :=
  (FMap.vals s.shares).find? fun sh => sh.cl == cl && sh.bank && sh.saved.isNone

/-- The bank of a cluster. -/
def State.bankOf (s : State) (cl : Nat) : Bank := (s.cluster cl).bank

/-- The state with a cluster's bank changed. -/
def modBank (cl : Nat) (f : Bank → Bank) (s : State) : State :=
  s.modCluster cl fun c => { c with bank := f c.bank }

/-- A BANK word of the thread at p: bank-reservation fault, or k with the cluster (12 R271). -/
def withBank (p : Place) (s : State) (k : Nat → State → Res) : Res :=
  match s.shareOf? p, p.cluster? with
  | some sh, some cl => if sh.bank && sh.cl == cl then k cl s else .trap s Cause.bankResv 0
  | _, _ => .trap s Cause.bankResv 0

/-- The row and column of a share within its gang unit, by the launch clusters: a restore keeps the unit's
shape (12 R288; 15 R351). -/
def unitPos (sh : Share) (s : State) : Nat × Nat :=
  let us := (s.sharesOf sh.gang).filter (·.unit == sh.unit)
  let row := us.foldl (fun m x => min m (x.launch % 48 / 8)) (sh.launch % 48 / 8)
  let col := us.foldl (fun m x => min m (x.launch % 8)) (sh.launch % 8)
  (sh.launch % 48 / 8 - row, sh.launch % 8 - col)

/-- ROWS and COLS of a gang. -/
def unitShape (g : Nat) (s : State) : Nat × Nat :=
  match s.gang? g with
  | some x => (x.desc.rows, x.desc.cols)
  | none => (1, 1)

/-! ### Configuration values (12 Table 12-3, R291) -/

/-- A configuration register's number. -/
def cfgNum : Cfg → Nat
  | .wgp => 0
  | .wkp0 => 1
  | .wkp1 => 2
  | .wkp2 => 3
  | .wkp3 => 4
  | .wacb => 5
  | .wrotc => 6
  | .wtl => 7

/-- The check of a keep run against the three others as they stand. -/
def wkpBad (b : Bank) (k : Nat) (v : Word) : Option (Nat × Nat) :=
  let others := (List.range 4).foldl (fun n j =>
    if j + 1 = k then n else n + wbits ((b.cfg.toList[j + 1]?).getD 0) 44 32) 0
  if keepReserved v || decide (1024 < others + wbits v 44 32) then some (Cause.guardPlan, 7) else none

/-- The check of a rotation rectangle for a share. -/
def wrotcBad (sh : Share) (v : Word) (s : State) : Option (Nat × Nat) :=
  let top := wbits v 2 0
  let left := wbits v 10 8
  let bot := top + wbits v 6 4
  let right := left + wbits v 14 12
  let shape := unitShape sh.gang s
  let pos := unitPos sh s
  if wbits v 63 15 ≠ 0 ∨ wbit v 11 ∨ wbit v 7 ∨ wbit v 3 ∨ shape.1 ≤ bot ∨ shape.2 ≤ right then
    some (Cause.bankConfig, 2)
  else if pos.1 < top ∨ bot < pos.1 ∨ pos.2 < left ∨ right < pos.2 then some (Cause.bankConfig, 3)
  else none

/-- The fault and EVAL of a value that a configuration register may not hold. -/
def cfgBad (g : Cfg) (p : Place) (cl : Nat) (v : Word) (s : State) : Option (Nat × Nat) :=
  match g with
  | .wgp => (wgpBad v).map fun e => (Cause.guardPlan, e)
  | .wkp0 => wkpBad (s.bankOf cl) 1 v
  | .wkp1 => wkpBad (s.bankOf cl) 2 v
  | .wkp2 => wkpBad (s.bankOf cl) 3 v
  | .wkp3 => wkpBad (s.bankOf cl) 4 v
  | .wacb => if wbits v 63 57 ≠ 0 then some (Cause.bankConfig, 1) else none
  | .wrotc =>
    (match s.shareOf? p with
     | some sh => wrotcBad sh v s
     | none => none)
  | .wtl =>
    if wbits v 63 33 ≠ 0 ∨ (wbit v 32 ∧ (tlRef p (ofN (wbits v 31 0)) s).isNone) then
      some (Cause.bankConfig, 4)
    else none

/-- WCFG (R291). -/
def execWcfg (g : Cfg) (a : Reg) (s : State) : Host.Outcome State Fault Refusal :=
  issueBank (.wcfg g a) (fun _ p s => withBank p s fun cl s =>
    let v := getX p a s
    match cfgBad g p cl v s with
    | some (c, e) => .trap s c (ofN e)
    | none => .ok (modBank cl (fun b => { b with cfg := b.cfg.set! (cfgNum g) v }) s)) s

/-- A result of a BANK word in every active lane (02 R53). -/
def setAll (ps : List Place) (d : Reg) (v : Word) (s : State) : State :=
  ps.foldl (fun s q => setX q 0 d v s) s

/-- WRCF (R291). -/
def execWrcf (a : Reg) (g : Cfg) (s : State) : Host.Outcome State Fault Refusal :=
  issueBank (.wrcf a g) (fun c p s => withBank p s fun cl s =>
    .ok (setAll c.act a (((s.bankOf cl).cfg.toList[(cfgNum g)]?).getD 0) s)) s

/-! ### Entry (12 R282) -/

/-- The captured configuration. -/
def Bank.captured (b : Bank) : List Word := b.cfg.toList

/-- Whether a bank has work: the watchdog counts while it has (15 R354). -/
def Bank.busy (b : Bank) : Bool := !b.queue.isEmpty || b.run.isSome || !b.tail.isEmpty

/-- The end of a queued word: a wait for room, then the sequence number, the captured configuration and
the registration (12 R282). -/
def enterBank (op : Instr) (p : Place) (cl : Nat) (xa xb : Word) (s : State) : Res :=
  let b := s.bankOf cl
  let wtl := recWord b.captured 7
  let ref := if wbit wtl 32 then tlRef p (ofN (wbits wtl 31 0)) s else none
  let held := match ref with
    | some (g, r, _) => !s.shareLive g r
    | none => false
  if 64 ≤ b.queue.length || held then .wait s (.queuing [xa, xb, ofN p.laneNum])
  else
    let x : Option TlReg × State := match ref with
      | some (g, r, i) => let y := tlRegister g r i s; (some y.1, y.2)
      | none => (none, s)
    let o : BankOp := { seq := b.bseq + 1, op := op, xa := xa, xb := xb, cfg := b.captured, reg := x.1,
                        place := p, user := !(s.thread p).mode }
    .ok (modBank cl (fun b => { b with
      bseq := b.bseq + 1
      queue := b.queue ++ [o]
      wd := if b.busy || b.halt then b.wd else some s.clk }) x.2)

/-- A queued BANK word: its checks at issue, the release at `.die`, the entry (12 R282, R284). -/
def queuedBody (op : Instr) (a b : Option Reg)
    (check : Place → Word → Word → State → Option (Nat × Word)) : Body := fun _ p s =>
  withBank p s fun cl s =>
    match waitOf p s with
    | some (.queuing r) => enterBank op p cl (recWord r 0) (recWord r 1) s
    | _ =>
      let xa := match a with
        | some a => getX p a s
        | none => 0
      let xb := match b with
        | some b => getX p b s
        | none => 0
      match check p xa xb s with
      | some (c, e) => .trap s c e
      | none => releaseThen p .die true s fun s => enterBank op p cl xa xb s

/-- No check at issue. -/
def noCheck (_ : Place) (_ _ : Word) (_ : State) : Option (Nat × Word) := none

/-- Whether a WLDP or WLDT control word is bad (12 Table 12-16). -/
def packCtlBad (w : Word) : Bool := wbits w 31 20 != 0 || decide (3 < wbits w 19 16)

/-- WLDP's checks (12 R292). -/
def wldpCheck (_ : Place) (xa xb : Word) (_ : State) : Option (Nat × Word) :=
  if !canonical xa || xa.toNat % 8 ≠ 0 then some (Cause.access, xa)
  else if packCtlBad xb then some (Cause.bankConfig, 5)
  else none

/-- WLDT's checks (12 R292). -/
def wldtCheck (p : Place) (xa xb : Word) (s : State) : Option (Nat × Word) :=
  if handleRef (s.thread p).gang xa s = .bad then some (Cause.gallery, 4)
  else if packCtlBad xb then some (Cause.bankConfig, 5)
  else none

/-- The bytes of a WSTA format (12 Table 12-17). -/
def staSize (f : Nat) : Nat :=
  match f with
  | 0 => 8
  | 1 => 4
  | 2 => 2
  | 3 => 4
  | 4 => 2
  | 5 => 8
  | _ => 1

/-- WSTA's checks (12 R297). -/
def wstaCheck (_ : Place) (xa xb : Word) (_ : State) : Option (Nat × Word) :=
  if !canonical xa || xa.toNat % staSize (wbits xb 35 33) ≠ 0 then some (Cause.access, xa)
  else if wbits xb 63 46 ≠ 0 ∨ 5 < wbits xb 35 33 ∨ wbits xb 32 16 = 0 ∨ 65536 < wbits xb 32 16 then
    some (Cause.bankConfig, 6)
  else none

/-- WZERO's check (12 R298). -/
def wzeroCheck (_ : Place) (_ xb : Word) (_ : State) : Option (Nat × Word) :=
  if xb = 0 ∨ 65536 < xb.toNat then some (Cause.bankConfig, 7) else none

/-- WUNPK's check (12 R299). -/
def wunpkCheck (_ : Place) (xa _ : Word) (_ : State) : Option (Nat × Word) :=
  if !canonical xa || xa.toNat % 4 ≠ 0 then some (Cause.access, xa) else none

/-- WLDP (R292). -/
def execWldp (sd : Side) (rev : Bool) (i : ZReg) (a b : Reg) (s : State) :
    Host.Outcome State Fault Refusal :=
  issueBank (.wldp sd rev i a b) (queuedBody (.wldp sd rev i a b) (some a) (some b) wldpCheck) s

/-- WLDT (R292). -/
def execWldt (sd : Side) (rev : Bool) (i : ZReg) (a b : Reg) (s : State) :
    Host.Outcome State Fault Refusal :=
  issueBank (.wldt sd rev i a b) (queuedBody (.wldt sd rev i a b) (some a) (some b) wldtCheck) s

/-- WMUL (R293). -/
def execWmul (q : Fin 8) (zb za : ZReg) (a : Reg) (s : State) : Host.Outcome State Fault Refusal :=
  issueBank (.wmul q zb za a) (queuedBody (.wmul q zb za a) (some a) none noCheck) s

/-- WMAC (R294). -/
def execWmac (zb za : ZReg) (a b : Reg) (s : State) : Host.Outcome State Fault Refusal :=
  issueBank (.wmac zb za a b) (queuedBody (.wmac zb za a b) (some a) (some b) noCheck) s

/-- WEXT (R295). -/
def execWext (q : Fin 8) (a b : Reg) (s : State) : Host.Outcome State Fault Refusal :=
  issueBank (.wext q a b) (queuedBody (.wext q a b) (some a) (some b) noCheck) s

/-- WROT (R296). -/
def execWrot (t : Dir) (zb za : ZReg) (s : State) : Host.Outcome State Fault Refusal :=
  issueBank (.wrot t zb za) (queuedBody (.wrot t zb za) none none noCheck) s

/-- WMACR (R294). -/
def execWmacr (t : Dir) (zb za : ZReg) (a b : Reg) (s : State) : Host.Outcome State Fault Refusal :=
  issueBank (.wmacr t zb za a b) (queuedBody (.wmacr t zb za a b) (some a) (some b) noCheck) s

/-- WSTA (R297). -/
def execWsta (a b : Reg) (s : State) : Host.Outcome State Fault Refusal :=
  issueBank (.wsta a b) (queuedBody (.wsta a b) (some a) (some b) wstaCheck) s

/-- WZERO (R298). -/
def execWzero (a b : Reg) (s : State) : Host.Outcome State Fault Refusal :=
  issueBank (.wzero a b) (queuedBody (.wzero a b) (some a) (some b) wzeroCheck) s

/-- WZERO.Z (R298). -/
def execWzeroZ (i : ZReg) (s : State) : Host.Outcome State Fault Refusal :=
  issueBank (.wzeroZ i) (queuedBody (.wzeroZ i) none none noCheck) s

/-- WMOV (R298). -/
def execWmov (d a : ZReg) (s : State) : Host.Outcome State Fault Refusal :=
  issueBank (.wmov d a) (queuedBody (.wmov d a) none none noCheck) s

/-- WUNPK (R299). -/
def execWunpk (sd : Side) (a : Reg) (i : ZReg) (s : State) : Host.Outcome State Fault Refusal :=
  issueBank (.wunpk sd a i) (queuedBody (.wunpk sd a i) (some a) none wunpkCheck) s

/-- WSHFT (R299). -/
def execWshft (sd : Side) (d a : ZReg) (b : Reg) (s : State) : Host.Outcome State Fault Refusal :=
  issueBank (.wshft sd d a b) (queuedBody (.wshft sd d a b) none (some b) noCheck) s

/-! ### WWAIT and WSTAT (12 R286, R300, R301) -/

/-- The end of WWAIT's wait for sequence number n. -/
def wwaitFor (cl n : Nat) (act : List Place) (s : State) : Res :=
  let b := s.bankOf cl
  if b.halt ∧ b.bfseq ≤ n then .trap s b.bfcause (ofN b.bfseq)
  else if n ≤ b.bdone then .ok (act.foldl (fun s q => acquire q .die s) s)
  else .wait s (.waiting 1 n)

/-- WWAIT (R300). -/
def execWwait (a : Reg) (s : State) : Host.Outcome State Fault Refusal :=
  issueBank (.wwait a) (fun c p s => withBank p s fun cl s =>
    match waitOf p s with
    | some (.waiting 1 n) => wwaitFor cl n c.act s
    | _ =>
      let n := (getX p a s).toNat
      let q := (s.bankOf cl).bseq
      wwaitFor cl (if n = 0 ∨ q < n then q else n) c.act s) s

/-- BSTATUS (12 Table 12-13). -/
def Bank.status (b : Bank) : Word :=
  ofN (b2n (decide (b.bdone < b.bseq)) + b2n b.halt * 2 + b2n b.accOvf * 4)

/-- What a WSTAT selector reads (12 Table 12-12). -/
def Bank.stat (b : Bank) (sel : Fin 7) : Word :=
  match sel with
  | 0 => b.status
  | 1 => ofN b.bseq
  | 2 => ofN b.bdone
  | 3 => ofN b.bfcause
  | 4 => ofN b.bfseq
  | 5 => b.bfdetail
  | 6 => ofN b.bprog

/-- The clearing of WSTAT.C: ACCOVF, or the fault, after which the failed operation counts as complete
and the watchdog counts from 0 (12 R286; 15 R354). -/
def Bank.clear (b : Bank) (sel : Fin 7) (clk : Nat) : Bank :=
  match sel with
  | 0 => { b with accOvf := false }
  | 3 =>
    if b.halt then
      { b with halt := false, bfcause := 0, bfseq := 0, bfdetail := 0, bprog := 0,
               bdone := max b.bdone b.bfseq, wd := if b.busy then some clk else none }
    else b
  | 1 => b
  | 2 => b
  | 4 => b
  | 5 => b
  | 6 => b

/-- WSTAT (R301). -/
def execWstat (clr : Bool) (a : Reg) (sel : Fin 7) (s : State) : Host.Outcome State Fault Refusal :=
  issueBank (.wstat clr a sel) (fun c p s => withBank p s fun cl s =>
    let s' := setAll c.act a ((s.bankOf cl).stat sel) s
    .ok (if clr then modBank cl (fun b => b.clear sel s.clk) s' else s')) s

end Sys2Proof.Machine
end

