-- ==== Sys2Proof/Machine/BankEv.lean ====
section
/-!
DEFINITION. The bank at work: the execution of queued operations, rotation steps, completion, failure and
the watchdog (12 R283-R285, R289, R290, R292-R299; 15 R354).
-/

namespace Sys2Proof.Machine

/-! ### What the running operation comes to -/

/-- What the work of a started operation comes to: its effects are done, after an occupancy, perhaps
with a failure; or it waits and goes on later. -/
inductive Work
  | fin (occ : Nat) (fail : Option (Nat × Word)) (s : State)
  | stay (s : State)

/-- The running operation changed. -/
def modRun (cl : Nat) (f : BankRun → BankRun) (s : State) : State :=
  modBank cl (fun b => { b with run := b.run.map f }) s

/-- A polynomial register written. -/
def setZ (cl : Nat) (i : ZReg) (z : ZVal) (s : State) : State :=
  modBank cl (fun b => { b with z := b.z.set i z }) s

/-- A polynomial register. -/
def getZ (cl : Nat) (i : ZReg) (s : State) : ZVal := (s.bankOf cl).z[i]

/-- The agent a bank operation is (13 position of an engine). -/
def bankAgent (cl : Nat) (sh : Share) (o : BankOp) (s : State) : Agent :=
  { gang := sh.gang, rank := sh.rank, cl := some cl, die := cl / 48, user := o.user, direct := false,
    col := s.colOf o.place }

/-- What a run of accesses of the bank leads to; one that fails leaves the occupancy of the bytes it has read before
(12 R283; log 85). -/
def bankRan {α : Type} (cl : Nat) (g : Agent) (read : Nat → Word → Nat) : Ran α → (α → State → Work) → Work
  | .done v s, k => k v s
  | .bad c a s, _ => .fin (memClk (read c a)) (some (c, a)) s
  | .missed a need r l s, _ => .stay (addMiss g (.bank cl) a need r l s)
  | .held s, _ => .stay s

/-! ### Packing (12 R292) -/

/-- n bits at a bit offset from a base, a little-endian bit string (06 R133), by 8-byte reads. -/
def readBits (g : Agent) (base : Word) (off n : Nat) (s : State) : Ran Nat :=
  let a := base + ofN (8 * (off / 64))
  let lo := off % 64
  match engineRead g a 8 s with
  | (.bad c, s) => .bad c a s
  | (.missed r l, s) => .missed a .read r l s
  | (.held, s) => .held s
  | (.val v, s) =>
    if lo + n ≤ 64 then .done (v / 2 ^ lo % 2 ^ n) s
    else match engineRead g (a + 8) 8 s with
      | (.bad c, s) => .bad c (a + 8) s
      | (.missed r l, s) => .missed (a + 8) .read r l s
      | (.held, s) => .held s
      | (.val u, s) => .done ((v + u * 2 ^ 64) / 2 ^ lo % 2 ^ n) s

/-- Storage bits of an element of SFMT f and width w. -/
def sfmtBits (f w : Nat) : Nat :=
  match f with
  | 0 => w
  | 1 => 8
  | 2 => 16
  | _ => 8

/-- An element's value from its storage bits. -/
def sfmtVal (f w : Nat) (signed : Bool) (tab : List (BitVec 16)) (v : Nat) : Int :=
  if f = 3 then sext (decode8 tab v) 16
  else if signed then sext v (sfmtBits f w) else v

/-- Elements j, j + 1, … , n of them, checked as they are read (12 R277, R292). -/
def packElems (g : Agent) (p : Plan) (sd : Side) (f : Nat) (tab : List (BitVec 16)) (base : Word) :
    Nat → Nat → List Int → State → Ran (List Int)
  | 0, _, acc, s => .done acc.reverse s
  | n + 1, j, acc, s =>
    let bits := sfmtBits f (p.width sd)
    match readBits g base (j * bits) bits s with
    | .bad c a s => .bad c a s
    | .missed a need r l s => .missed a need r l s
    | .held s => .held s
    | .done v s =>
      match rangeCheck p sd (sfmtVal f (p.width sd) (p.signed sd) tab v) with
      | some e => packElems g p sd f tab base n (j + 1) (e :: acc) s
      | none => .bad Cause.packRange (ofN j) s

/-- A segment's elements and its exponent. -/
def packSeg (g : Agent) (p : Plan) (sd : Side) (ctl : Word) (tab : List (BitVec 16)) (base : Word)
    (gi : Nat) (s : State) : Ran (List Int × Nat) :=
  match packElems g p sd (wbits ctl 19 16) tab base p.k (gi * p.k) [] s with
  | .bad c a s => .bad c a s
  | .missed a need r l s => .missed a need r l s
  | .held s => .held s
  | .done es s =>
    if !p.scaled then .done (es, 0) s
    else
      let a := base + ofI (sext (wbits ctl 63 32) 32) + ofN (gi * p.k / p.blk)
      match readBits g (a - ofN (a.toNat % 8)) (8 * (a.toNat % 8)) 8 s with
      | .bad c x s => .bad c x s
      | .missed x need r l s => .missed x need r l s
      | .held s => .held s
      | .done v s => .done (es, v) s

/-- The bytes that n packed segments read: their elements and, where the plan is scaled, their exponents
(12 R283, R292; log 85). -/
def packBytes (p : Plan) (sd : Side) (ctl : Word) (n : Nat) : Nat :=
  cdiv (n * p.k * sfmtBits (wbits ctl 19 16) (p.width sd)) 8 +
    (if p.scaled && n != 0 then (n - 1) * p.k / p.blk + 1 else 0)

/-- The bytes read when segment gi fails with a cause: with pack-range its detail is the number of the element in
the tile, and otherwise the address that failed (12 R277, R283, R285; log 85). -/
def failedAt (p : Plan) (sd : Side) (ctl base : Word) (gi c : Nat) (a : Word) : Nat :=
  let bits := sfmtBits (wbits ctl 19 16) (p.width sd)
  let exps := packBytes p sd ctl gi - cdiv (gi * p.k * bits) 8
  let all := cdiv ((gi + 1) * p.k * bits) 8
  exps + min all (if c = Cause.packRange then cdiv ((a.toNat + 1) * bits) 8 else (a - base).toNat)

/-- Segments gi, gi + 1, … , n of them, packed into register i. -/
def packLoop (cl : Nat) (g : Agent) (p : Plan) (sd : Side) (rev : Bool) (i : ZReg) (ctl : Word)
    (tab : List (BitVec 16)) (base : Word) : Nat → Nat → State → Work
  | 0, gi, s => .fin (memClk (packBytes p sd ctl gi)) none s
  | n + 1, gi, s =>
    bankRan cl g (failedAt p sd ctl base gi) (packSeg g p sd ctl tab base gi s) fun x s =>
      let slots := if rev then x.1.reverse else x.1
      packLoop cl g p sd rev i ctl tab base n (gi + 1)
        (modRun cl (fun r => { r with prog := gi + 1 })
          (setZ cl i ((getZ cl i s).putSeg p gi slots x.2) s))

/-- WLDP and WLDT from a base address (12 R292). -/
def packFrom (cl : Nat) (g : Agent) (cfg : List Word) (sd : Side) (rev : Bool) (i : ZReg) (ctl base : Word)
    (prog : Nat) (s : State) : Work :=
  let p := planOf (recWord cfg 0)
  let n := if wbits ctl 15 0 = 0 ∨ p.g < wbits ctl 15 0 then p.g else wbits ctl 15 0
  packLoop cl g p sd rev i ctl (s.decodeOf g.gang g.rank) base (n - prog) prog
    (if prog = 0 then setZ cl i ZVal.blank s else s)

/-- WLDT: the wait for the seal, the acquire, then the packing from the tile's address, which goes on where it
has begun (12 R292). -/
def packTile (cl : Nat) (g : Agent) (cfg : List Word) (sd : Side) (rev : Bool) (i : ZReg) (h ctl : Word)
    (r : BankRun) (s : State) : Work :=
  match r.tile with
  | some base => packFrom cl g cfg sd rev i ctl base r.prog s
  | none =>
  if !handleLive g.gang h s then .stay s
  else match handleSlot g.gang h s with
    | none => .fin 1 (some (Cause.overRead, h)) s
    | some (st, stale) =>
      if stale then .fin 1 (some (Cause.overRead, h)) s
      else if st != .sealed then .stay s
      else
        let base := handleAddr g.gang h s
        packFrom cl g cfg sd rev i ctl base 0
          (modRun cl (fun r => { r with tile := some base }) (acquireAt g .die s))

/-! ### Multiplying (12 R293-R295) -/

/-- A multiply-accumulate's result put into the bank, sums modulo 2^64 with ACCOVF (06 R130); guard-overflow where
pairs were skipped. -/
def macEnd (cl : Nat) (r : MacRun) (occ : Nat) (s : State) : Work :=
  let s := modRun cl (fun x => { x with prog := r.done })
    (modBank cl (fun b => { b with acc := r.accs.acc, accOvf := r.accs.ovf }) s)
  .fin occ (if r.skipped = 0 then none else some (Cause.guardOverflow, r.detail)) s

/-- WMAC (12 R294). -/
def macWork (cl : Nat) (cfg : List Word) (m n : ZReg) (win off : Word) (s : State) : Work :=
  let p := planOf (recWord cfg 0)
  let b := s.bankOf cl
  let za := getZ cl m s
  let zb := getZ cl n s
  let r := macAll p cfg (wbits off 15 0) za zb (pairsOf p win za zb) { acc := b.acc, ovf := b.accOvf }
  macEnd cl r (macClk p (keepList cfg) r.done) s

/-- The register numbers of a pair (12 Table 12-15). -/
def pairLo (q : Fin 8) : ZReg := Fin.ofNat 16 (2 * q.val)
/-- Its second register. -/
def pairHi (q : Fin 8) : ZReg := Fin.ofNat 16 (2 * q.val + 1)

/-- WEXT (12 R295). -/
def extWork (cl : Nat) (cfg : List Word) (q : Fin 8) (win off : Word) (s : State) : Work :=
  let p := planOf (recWord cfg 0)
  let b := s.bankOf cl
  let lo := getZ cl (pairLo q) s
  let r := extAll p cfg (wbits off 15 0) lo (getZ cl (pairHi q) s) (extWindow win lo)
    { acc := b.acc, ovf := b.accOvf }
  macEnd cl r (max 1 (cdiv (r.done * (keepList cfg).length) 2048)) s

/-- WMUL (12 R293). -/
def mulWork (cl : Nat) (cfg : List Word) (q : Fin 8) (m n : ZReg) (win : Word) (s : State) : Work :=
  let p := planOf (recWord cfg 0)
  let z := mulPair p win (getZ cl m s) (getZ cl n s)
  let done := mulPairs p win (getZ cl m s) (getZ cl n s)
  .fin (max 1 (cdiv (done.length * p.k * p.k * p.cost4) (4 * 196608))) none
    (setZ cl (pairHi q) z.2 (setZ cl (pairLo q) z.1 s))

/-! ### Writing (12 R290, R297, R299) -/

/-- A bank's write of w bytes. A merge goes to no window (12 R290). -/
def bankWrite (g : Agent) (o : BankOp) (a : Word) (w : Nat) (v : Int) (merge : Bool) (s : State) : Ran Unit :=
  if merge && inWindow a then .bad Cause.access a s
  else match engineWrite g o.place a w (lowBits v (8 * w)) (b2n merge) s with
    | (.bad c, s) => .bad c a s
    | (.missed r l, s) => .missed a (if merge then .atomic else .write) r l s
    | (.held, s) => .held s
    | (.val _, s) => .done () s

/-- An accumulator in a WSTA format. -/
def staVal (ctl : Word) (v : Int) : Int :=
  let k := sext (wbits ctl 44 36) 9
  match wbits ctl 35 33 with
  | 1 => sat v 32
  | 2 => sat v 16
  | 3 => scaleF fp32 v k
  | 4 => scaleF bf16 v k
  | _ => v

/-- WSTA's stores j, j + 1, … , n of them: an accumulator that CLEAR names is cleared as it is read,
whether or not its store then fails (12 R297). -/
def staLoop (cl : Nat) (g : Agent) (o : BankOp) : Nat → Nat → State → Work
  | 0, j, s => .fin (memClk (j * staSize (wbits o.xb 35 33))) none s
  | n + 1, j, s =>
    let size := staSize (wbits o.xb 35 33)
    let i := (wbits o.xb 15 0 + j) % 65536
    let clear := fun (s : State) =>
      if wbit o.xb 45 then modBank cl (fun b => { b with acc := FMap.del b.acc i }) s else s
    let v := staVal o.xb (accGet (s.bankOf cl).acc i)
    match bankWrite g o (o.xa + ofN (j * size)) size v (wbits o.xb 35 33 == 5) s with
    | .done _ s => staLoop cl g o n (j + 1) (modRun cl (fun r => { r with prog := j + 1 }) (clear s))
    | .bad c a s => .fin (memClk (j * size)) (some (c, a)) (clear s)
    | .missed a need r l s => .stay (addMiss g (.bank cl) a need r l s)
    | .held s => .stay s

/-- WUNPK's stores j, j + 1, … , n of them. -/
def unpkLoop (cl : Nat) (g : Agent) (o : BankOp) (p : Plan) (sd : Side) (i : ZReg) :
    Nat → Nat → State → Work
  | 0, j, s => .fin (memClk (4 * j)) none s
  | n + 1, j, s =>
    let v := extract p (p.signed sd) ((getZ cl i s).seg p (p.signed sd) (j / p.k)) (j % p.k)
    match bankWrite g o (o.xa + ofN (4 * j)) 4 (sat v 32) false s with
    | .done _ s => unpkLoop cl g o p sd i n (j + 1) (modRun cl (fun r => { r with prog := j + 1 }) s)
    | .bad c a s => .fin (memClk (4 * j)) (some (c, a)) s
    | .missed a need r l s => .stay (addMiss g (.bank cl) a need r l s)
    | .held s => .stay s

/-- The accumulator that a killed store's WSTA has read is cleared where CLEAR says so (12 R297). -/
def clearRead (cl : Nat) (r : BankRun) (s : State) : State :=
  match r.op.op with
  | .wsta _ _ =>
    if wbit r.op.xb 45 then
      modBank cl (fun b => { b with acc := FMap.del b.acc ((wbits r.op.xb 15 0 + r.prog) % 65536) }) s
    else s
  | _ => s

/-- WZERO (12 R298). -/
def zeroAccs (m : FMap Word) (start n : Nat) : FMap Word :=
  m.filter fun e => decide (n ≤ (e.1 + 65536 - start % 65536) % 65536)

/-! ### Rotation (12 R288, R289) -/

/-- Whether a direction moves A. -/
def dirA : Dir → Bool
  | .a => true
  | .ab => true
  | .b => false

/-- Whether a direction moves B. -/
def dirB : Dir → Bool
  | .a => false
  | .ab => true
  | .b => true

/-- The clusters a step's A and B go to, in the rectangle of a WROTC value. -/
def neighbours (cl : Nat) (sh : Share) (v : Word) (s : State) : Nat × Nat :=
  let pos := unitPos sh s
  let top := wbits v 2 0
  let left := wbits v 10 8
  let col := if pos.2 = left then left + wbits v 14 12 else pos.2 - 1
  let row := if pos.1 = top then top + wbits v 6 4 else pos.1 - 1
  (cl + col - pos.2, cl + row * 8 - pos.1 * 8)

/-- Whether a share of the gang holds the bank of a cluster now. -/
def gangBank (g cl : Nat) (s : State) : Bool :=
  match s.bankShare? cl with
  | some sh => sh.gang == g && s.live sh
  | none => false

/-- The part of a rotation step that can be made now: A before B, the sends before what is received. A register that is
sent fills the neighbour's buffer once it has crossed the link, from when it can be taken (12 R289). -/
def rotate (cl : Nat) (sh : Share) (r : BankRun) (t : Dir) (m n : ZReg) (s : State) : State :=
  let nb := neighbours cl sh (recWord r.op.cfg 6) s
  let atA := s.clk + linkClk (getZ cl m s)
  let atB := s.clk + linkClk (getZ cl n s)
  let step1 :=
    if dirA t && !r.sentA then
      if gangBank sh.gang nb.1 s && (s.bankOf nb.1).bufA.isNone then
        some (modRun cl (fun r => { r with sentA := true, till := max r.till atA })
          (modBank nb.1 (fun b => { b with bufA := some (getZ cl m s), dueA := atA }) s))
      else none
    else some s
  let step2 := step1.bind fun s =>
    if dirB t && !r.sentB then
      if gangBank sh.gang nb.2 s && (s.bankOf nb.2).bufB.isNone then
        some (modRun cl (fun r => { r with sentB := true, till := max r.till atB })
          (modBank nb.2 (fun b => { b with bufB := some (getZ cl n s), dueB := atB }) s))
      else none
    else some s
  match step2 with
  | none => step1.getD s
  | some s =>
    let s := match dirA t && !r.gotA && decide ((s.bankOf cl).dueA ≤ s.clk), (s.bankOf cl).bufA with
      | true, some z => modRun cl (fun r => { r with gotA := true })
          (modBank cl (fun b => { b with bufA := none }) (setZ cl m z s))
      | _, _ => s
    let waits := dirA t && (((s.bankOf cl).run.map fun r => !r.gotA).getD true)
    match dirB t && !r.gotB && !waits && decide ((s.bankOf cl).dueB ≤ s.clk), (s.bankOf cl).bufB with
    | true, some z => modRun cl (fun r => { r with gotB := true })
        (modBank cl (fun b => { b with bufB := none }) (setZ cl n z s))
    | _, _ => s

/-- Whether a rotation step has been made. -/
def rotDone (r : BankRun) (t : Dir) : Bool := (!dirA t || r.gotA) && (!dirB t || r.gotB)

/-- The direction and registers of a rotating operation. -/
def rotOf : Instr → Option (Dir × ZReg × ZReg)
  | .wrot t zb za => some (t, za, zb)
  | .wmacr t zb za _ _ => some (t, za, zb)
  | _ => none

/-- The rotation step of the running operation goes on from the clk in which it may be made; when it is made, the
effects are done, and its occupancy lasts until what it has sent has crossed (12 R283, R289). -/
def rotWork (cl : Nat) (sh : Share) (s : State) : State :=
  match (s.bankOf cl).run with
  | none => s
  | some r =>
    match rotOf r.op.op with
    | none => s
    | some (t, m, n) =>
      if r.stage ≠ 1 || decide (s.clk < r.ends) then s
      else
        let s := rotate cl sh r t m n s
        modRun cl (fun r => if rotDone r t then { r with stage := 2, ends := max s.clk r.till } else r) s

/-- Whether the running operation's rotation step waits on a neighbour: for its buffer to empty, or for its own to be
filled (12 R287, R289). -/
def rotWaits (cl : Nat) (sh : Share) (s : State) : Bool :=
  match (s.bankOf cl).run with
  | none => false
  | some r =>
    match rotOf r.op.op with
    | none => false
    | some (t, _, _) =>
      let nb := neighbours cl sh (recWord r.op.cfg 6) s
      let full := fun (a : Bool) =>
        if a then !gangBank sh.gang nb.1 s || (s.bankOf nb.1).bufA.isSome
        else !gangBank sh.gang nb.2 s || (s.bankOf nb.2).bufB.isSome
      r.stage == 1 && decide (r.ends ≤ s.clk) &&
        (if dirA t && !r.sentA then full true
         else if dirB t && !r.sentB then full false
         else if dirA t && !r.gotA then (s.bankOf cl).bufA.isNone
         else dirB t && !r.gotB && (s.bankOf cl).bufB.isNone)

/-! ### The running operation -/

/-- The stores of a cluster's threads that its bank's reads must observe, visible at `.cl`, go where those reads look
(09 R200; 12 R284). -/
def settleBank (cl : Nat) (s : State) : State :=
  drain (fun e => e.cl == cl && e.stage != .issued && !e.direct && e.merge == 0) (fun e => e.level .die) s

/-- The effects of a started operation other than its rotation. -/
def opWork (cl : Nat) (sh : Share) (r : BankRun) (s : State) : Work :=
  let o := r.op
  let g := bankAgent cl sh o s
  let p := planOf (recWord o.cfg 0)
  match o.op with
  | .wldp sd rev i _ _ => packFrom cl g o.cfg sd rev i o.xb o.xa r.prog (settleBank cl s)
  | .wldt sd rev i _ _ => packTile cl g o.cfg sd rev i o.xa o.xb r (settleBank cl s)
  | .wmul q zb za _ => mulWork cl o.cfg q za zb o.xa s
  | .wmac zb za _ _ => macWork cl o.cfg za zb o.xa o.xb s
  | .wmacr _ zb za _ _ => macWork cl o.cfg za zb o.xa o.xb s
  | .wext q _ _ => extWork cl o.cfg q o.xa o.xb s
  | .wsta _ _ => staLoop cl g o (wbits o.xb 32 16 - r.prog) r.prog s
  | .wzero _ _ => .fin (max 1 (cdiv o.xb.toNat 2048)) none
      (modBank cl (fun b => { b with acc := zeroAccs b.acc (wbits o.xa 15 0) o.xb.toNat }) s)
  | .wzeroZ i => .fin 1 none (setZ cl i ZVal.blank s)
  | .wmov d a => .fin 4 none (setZ cl d (getZ cl a s) s)
  | .wunpk sd _ i => unpkLoop cl g o p sd i ((getZ cl i s).nseg * p.k - r.prog) r.prog s
  | .wshft sd d a _ => .fin 4 none
      (setZ cl d (shiftSegs p sd (sext (wbits o.xb 12 0) 13) (getZ cl a s)) s)
  | _ => .fin 0 none s

/-- The bytes that an operation has read or written for what it has done (12 R283). -/
def doneBytes (cl : Nat) (r : BankRun) (s : State) : Nat :=
  let p := planOf (recWord r.op.cfg 0)
  match r.op.op with
  | .wldp sd _ _ _ _ => packBytes p sd r.op.xb ((s.bankOf cl).run.elim r.prog (·.prog))
  | .wldt sd _ _ _ _ => packBytes p sd r.op.xb ((s.bankOf cl).run.elim r.prog (·.prog))
  | .wsta _ _ => r.prog * staSize (wbits r.op.xb 35 33)
  | .wunpk _ _ _ => r.prog * 4
  | _ => 0

/-- The running operation goes on with what it waits for (12 R283; 15 R345): nothing while a walk is
out; a kill fails it. -/
def bankGoOn (cl : Nat) (s : State) : State :=
  match (s.bankOf cl).run, s.bankShare? cl with
  | some r, some sh =>
    if r.stage = 1 then rotWork cl sh s
    else if r.stage = 2 then s
    else
      let w := match s.missOf (.bank cl) with
        | none => opWork cl sh r s
        | some m =>
          match m.st with
          | .killed => .fin (memClk (doneBytes cl r s)) (some (Cause.access, m.va)) (clearRead cl r (dropMiss (.bank cl) s))
          | .fresh => .stay s
          | .token _ => .stay s
      match w with
      | .stay s => s
      | .fin occ fail s =>
        let rot := (rotOf r.op.op).isSome
        let s := modRun cl (fun r => { r with
          stage := if rot then 1 else 2
          ends := s.clk + occ
          fail := fail }) s
        if rot then rotWork cl sh s else s
  | _, _ => s

/-- The running operation leaves the datapath. -/
def leaveBank (cl : Nat) (s : State) : State :=
  modBank cl (fun b =>
    match b.run with
    | some r => { b with run := none, tail := b.tail ++ [{ op := r.op, due := r.ends + 24 }] }
    | none => b) s

/-- An operation whose occupancy has ended leaves the datapath; a WLDT stays until its tile is counted down, and a
failed operation until it halts the bank (12 R283, R292). -/
def bankSettle (cl : Nat) (s : State) : State :=
  match (s.bankOf cl).run with
  | some r =>
    if r.stage ≠ 2 || decide (s.clk < r.ends) || r.fail.isSome then s
    else
      match r.op.op with
      | .wldt _ _ _ _ _ => s
      | _ => leaveBank cl s
  | _ => s

/-- The handle of the tile that a bank has still to count down: that of a WLDT whose occupancy has ended
(12 R292). -/
def bankAsks (cl : Nat) (s : State) : Option Word :=
  match (s.bankOf cl).run with
  | none => none
  | some r =>
    if r.stage ≠ 2 || decide (s.clk < r.ends) || r.fail.isSome then none
    else match r.op.op with
      | .wldt _ _ _ _ _ => some r.op.xa
      | _ => none

/-- A WLDT's consuming read at the bay, with which its occupancy ends; a stale handle found there fails it
(11 R256, R258; 12 R292). -/
def bankAtBay (cl : Nat) (s : State) : State :=
  match bankAsks cl s, s.bankShare? cl with
  | some h, some sh =>
    let c := consume sh.gang h s
    if c.1 then leaveBank cl c.2
    else modRun cl (fun r => { r with fail := some (Cause.overRead, h) }) c.2
  | _, _ => s

/-- BANK_OPERATION_START: the operation whose occupancy has ended leaves, the next one starts, and what
has started goes on (R283); nothing starts while its share is being saved (R287). -/
def execBankOperationStart (cl : Nat) (s : State) : Host.Outcome State Fault Refusal :=
  .next <|
    let s := bankSettle cl s
    let b := s.bankOf cl
    let held := match s.bankShare? cl with
      | some sh => sh.stopped
      | none => true
    match b.run, b.queue with
    | none, o :: os =>
      if b.halt || held then s
      else bankGoOn cl (modBank cl (fun b => { b with
        queue := os
        run := some { op := o, stage := 0, sentA := false, sentB := false, gotA := false, gotB := false,
                      ends := s.clk, fail := none, prog := 0 } }) s)
    | _, _ => bankGoOn cl s

/-- The watchdog after a completion (15 R354). -/
def Bank.rewatch (b : Bank) (clk : Nat) : Bank := { b with wd := if b.busy then some clk else none }

/-- A registered operation's end on its timeline. -/
def withReg (r : Option TlReg) (f : TlReg → State → State) (s : State) : State :=
  match r with
  | some x => f x s
  | none => s

/-- BANK_OPERATION_COMPLETE: the oldest operation completes 24 clk after its occupancy; or, when every
earlier one has completed, a failed one halts the bank (R283, R285; 15 R338). -/
def execBankOperationComplete (cl : Nat) (s : State) : Host.Outcome State Fault Refusal :=
  .next <|
    let s := bankSettle cl s
    let b := s.bankOf cl
    match b.tail with
    | t :: ts =>
      if s.clk < t.due then s
      else withReg t.op.reg tlComplete
        (modBank cl (fun b => { b with tail := ts, bdone := t.op.seq }.rewatch s.clk) s)
    | [] =>
      match b.run with
      | none => s
      | some r =>
        match r.fail with
        | none => s
        | some (c, d) =>
          if r.stage ≠ 2 || decide (s.clk < r.ends) then s
          else withReg r.op.reg (fun x s => tlFail x c s)
            (modBank cl (fun b => { b with
              run := none, halt := true, bfcause := c, bfseq := r.op.seq, bfdetail := d, bprog := r.prog,
              wd := none }) s)

/-- ROTATION_STEP_RESUME: a rotation step goes on when a neighbour's buffer has emptied or its own has
filled (R289). -/
def execRotationStepResume (cl : Nat) (s : State) : Host.Outcome State Fault Refusal :=
  .next <|
    match s.bankShare? cl with
    | some sh => rotWork cl sh s
    | none => s

/-- A bank after its watchdog's reset; `seq` is the lowest discarded sequence number (15 R354). -/
def Bank.watchReset (b : Bank) (seq row col : Nat) : Bank :=
  { b with
    z := Vector.replicate 16 ZVal.blank
    acc := []
    cfg := Bank.launchCfg row col
    queue := []
    run := none
    tail := []
    bdone := b.bseq
    halt := true
    bfcause := Cause.bankReset
    bfseq := seq
    wd := none }

/-- The operations a bank holds, oldest first. -/
def Bank.ops (b : Bank) : List BankOp :=
  b.tail.map (·.op) ++ (b.run.map (·.op)).toList ++ b.queue

/-- Whether a bank's watchdog has run out (15 R354). -/
def bankStuck (cl : Nat) (s : State) : Bool :=
  let b := s.bankOf cl
  match b.wd with
  | some c => !b.halt && !b.ops.isEmpty && decide (c + 1048576 ≤ s.clk)
  | none => false

/-- BANK_WATCHDOG_RESET: 1,048,576 clk without a completion discard everything (R354). -/
def execBankWatchdogReset (cl : Nat) (s : State) : Host.Outcome State Fault Refusal :=
  .next <|
    let b := s.bankOf cl
    match b.wd, b.ops with
    | some _, o :: os =>
      if !bankStuck cl s then s
      else
        let pos := match s.bankShare? cl with
          | some sh => unitPos sh s
          | none => (0, 0)
        let s := dropMiss (.bank cl) (modBank cl (fun b => b.watchReset o.seq pos.1 pos.2) s)
        (o :: os).foldl (fun s x => withReg x.reg (fun y s => tlFail y Cause.bankReset s) s) s
    | _, _ => s

/-! ### The gallery unit (11 R258, R259) -/

/-- A request that reaches a gallery unit: a thread's, or an engine's, which comes by the mesh: a stream's consuming
read, what a copy seals or counts, a WLDT's count (11 R258). -/
inductive UnitReq
  | thread (q : GReq)
  | strm (p : Place) (i : Nat)
  | copy (u : CopyUnit)
  | bank (cl : Nat)
  deriving DecidableEq, Repr

/-- The port a request comes by. -/
def UnitReq.port : UnitReq → Nat
  | .thread q => q.port
  | .strm _ _ => 34
  | .copy _ => 34
  | .bank _ => 34

/-- The cluster whose unit an engine's request for a handle goes to; `own` where the handle names no bay. -/
def bayCluster (g : Nat) (h : Word) (own : Nat) (s : State) : Nat := (handleHome g h s).getD own

/-- The streams of a thread whose consuming reads go to a cluster; a read of a tile whose share is saved waits
(11 R251). -/
def strmReqs (cl : Nat) (p : Place) (s : State) : List UnitReq :=
  let t := s.thread p
  (List.range 4).filterMap fun i =>
    match (t.strm[i]?).getD none with
    | some m =>
      if m.counting && handleLive t.gang m.handle s && bayCluster t.gang m.handle (p.cluster?.getD (p.die * 48)) s == cl then some (.strm p i) else none
    | none => none

/-- The request of a copy engine's current copy that goes to a cluster. -/
def copyReqs (cl : Nat) (u : CopyUnit) (s : State) : List UnitReq :=
  let own := match u with
    | .cluster c => c
    | .landing l => l / 2 * 48
  match currentCopy (s.copies u) with
  | none => []
  | some c =>
    match copyAsks c s with
    | some h => if handleLive c.gang h s && bayCluster c.gang h own s == cl then [.copy u] else []
    | none => []

/-- The request of a bank that goes to a cluster. -/
def bankReqs (cl b : Nat) (s : State) : List UnitReq :=
  match bankAsks b s, s.bankShare? b with
  | some h, some sh => if handleLive sh.gang h s && bayCluster sh.gang h b s == cl then [.bank b] else []
  | _, _ => []

/-- The requests under way to a cluster's unit that come by the mesh. -/
def meshReqs (cl : Nat) (s : State) : List UnitReq :=
  ((s.cluster cl).gal.filter (·.port == 34)).map .thread ++
  s.places.flatMap (fun p => strmReqs cl p s) ++
  s.clusters.flatMap (fun e => copyReqs cl (.cluster e.1) s ++ bankReqs cl e.1 s) ++
  s.landings.flatMap fun e => copyReqs cl (.landing e.1) s

/-- The requests of a cluster's own threads that reach its unit in this clk: they were issued before it. -/
def ownReqs (cl : Nat) (s : State) : List UnitReq :=
  ((s.cluster cl).gal.filter fun q => q.port != 34 && decide (q.clk < s.clk)).map .thread

/-- The requests of a clk in the order of the port pointer, those of a port in arrival order
(11 R258). -/
def portOrder (ptr : Nat) (qs : List UnitReq) : List UnitReq :=
  (List.range 35).flatMap fun j => qs.filter fun q => q.port == (ptr + j) % 35

/-- A stream's consuming read at the bay: one that is stale is reported at SCLOSE (10 R234). -/
def strmAtBay (p : Place) (i : Nat) (s : State) : State :=
  match ((s.thread p).strm[i]?).getD none with
  | none => s
  | some m =>
    let c := consume (s.thread p).gang m.handle s
    modStrm p i (fun o => o.map fun m => { m with counting := false, stale := !c.1 }) c.2

/-- A request performed at a unit, and answered. -/
def unitPerform (s : State) : UnitReq → State
  | .thread q =>
    let r := galPerform q s
    galAnswer q.place r.1 r.2
  | .strm p i => strmAtBay p i s
  | .copy u => copyAtBay u s
  | .bank b => bankAtBay b s

/-- The requests of a list of gallery operations that a unit has taken are gone. -/
def dropTaken (cl : Nat) (qs : List UnitReq) (s : State) : State :=
  s.modCluster cl fun c => { c with gal := c.gal.filter fun q => !qs.contains (.thread q) }

/-- GALLERY_REQUEST: the requests of the cluster's own threads issued before this clk, and the n-th of those under way
by the mesh, if n is not 0, reach a cluster's unit; after the clk's hand-outs they are performed in port order
(R258, R259). -/
def execGalleryRequest (cl n : Nat) (s : State) : Host.Outcome State Fault Refusal :=
  .next <|
    let mesh := if n = 0 then [] else ((meshReqs cl s)[n - 1]?).toList
    let qs := portOrder (s.clk % 35) (ownReqs cl s ++ mesh)
    qs.foldl unitPerform (clusterHandOuts cl (dropTaken cl qs s))

end Sys2Proof.Machine
end

