-- ==== Sys2Proof/Machine/Message.lean ====
section
/-!
DEFINITION. The MESSAGE class's senders and handler words, and the receive registers: MSEND, MREQ, MRET,
WFM, HSET, HMASK, RPUT, QGET and QPEEK (03 R84-R88; 14 R319-R322, R329).
-/

namespace Sys2Proof.Machine

/-! ### MSEND and MREQ (03 R84, R85) -/

/-- MSEND (R84). The checks are made once, before the release; a thread in *sending* goes on at the queue. -/
def execMsend (a b : Reg) (s : State) : Host.Outcome State Fault Refusal :=
  issueWord (.msend a b) (fun _ p s =>
    let h := getX p a s
    let send := fun (s : State) =>
      sendParcel p (destRank p h s) (.msg (mkMsg h (srcOf p s) (regRun p b (hCount h) s))) s
    if waitOf p s = some .sending then send s
    else if stageOf p s = 2 then releaseOr (.waiting 2 0) p .pkg true s send
    else if badHeader h || decide (p.engine.nregs < b.val + hCount h) then .trap s Cause.messageFormat h
    else match sendFault p h s with
      | some c => .trap s c h
      | none => releaseOr (.waiting 2 0) p .pkg true s send) s

/-- COUNT of an MREQ control word. -/
def rqCount (c : Word) : Nat := wbits c 18 16
/-- CORE of an MREQ control word. -/
def rqCore (c : Word) : Nat := wbits c 23 19
/-- CTX of an MREQ control word. -/
def rqCtx (c : Word) : Nat := wbits c 26 24

/-- Whether an MREQ control word is bad (03 R85). -/
def rqBad (c : Word) : Bool :=
  wbits c 63 27 != 0 || rqCount c == 0 || decide (4 < rqCtx c) || decide (14 ≤ wbits c 3 0)

/-- The request of an MREQ. -/
def requestOf (p : Place) (va c : Word) (s : State) : MReq :=
  let t := s.thread p
  { n := s.reqCtr, place := p, gang := t.gang, rank := t.rank, addr := va, ctl := c, user := !t.mode }

/-- The request of an MREQ enters the outbound queue, or its thread waits (03 R76, R85). -/
def sendRequest (p : Place) (va c : Word) (s : State) : Res :=
  sendParcel p none (.mreq (requestOf p va c s)) s

/-- MREQ (R85). -/
def execMreq (a b : Reg) (s : State) : Host.Outcome State Fault Refusal :=
  issueWord (.mreq a b) (fun _ p s =>
    let va := getX p a s
    let c := getX p b s
    if waitOf p s = some .sending then sendRequest p va c s
    else if rqBad c then .trap s Cause.messageFormat c
    else if !canonical va || va.toNat % 8 ≠ 0 || decide (128 < va.toNat % 128 + 8 * rqCount c) then
      .trap s Cause.access va
    else match s.shareOf? p with
      | none => .trap s Cause.messageDest c
      | some sh => if sh.holdsCore (rqCore c) then sendRequest p va c s else .trap s Cause.messageDest c) s

/-! ### MRET, WFM, HSET, HMASK (03 R86-R88) -/

/-- The context becomes idle after this word (03 R86). A GUARD range goes on with the words the next
handler issues (02 R56). -/
def toIdle (p : Place) (s : State) : Res :=
  .left (s.modThread p fun t =>
    { t.countDown t.grem with pc := t.pc + 4, run := .idle, fetch := [] })

/-- MRET (R86). -/
def execMret (s : State) : Host.Outcome State Fault Refusal :=
  issueWord .mret (fun _ p s => toIdle p s) s

/-- WFM (R86). -/
def execWfm (s : State) : Host.Outcome State Fault Refusal :=
  issueWord .wfm (fun _ p s => toIdle p s) s

/-- HSET (R87). -/
def execHset (a b : Reg) (s : State) : Host.Outcome State Fault Refusal :=
  issueWord (.hset a b) (fun _ p s =>
    let v := getX p a s
    let pc := getX p b s
    if wbits v 63 7 ≠ 0 ∨ wbits v 3 0 = 15 ∨ pc.toNat % 4 ≠ 0 then .trap s Cause.messageFormat v
    else if wbits v 3 0 = 14 ∧ !(s.thread p).mode then .trap s Cause.privilege (wordOf (.hset a b))
    else match p.core? with
      | none => .ok s
      | some c => .ok (s.modCore c fun k =>
          { k with tab := k.tab.set (wbits v 3 0) { pc := pc, prio := wbits v 5 4, en := wbit v 6 } })) s

/-- The enable bits of a handler table. -/
def enableBits (t : List HEntry) : Nat :=
  (List.range 16).foldl (fun m i => m + b2n (((t[i]?).map (·.en)).getD false) * 2 ^ i) 0

/-- A handler table with its enable bits replaced. -/
def withEnables (t : List HEntry) (m : Nat) : List HEntry :=
  t.mapIdx fun i e => { e with en := m / 2 ^ i % 2 == 1 }

/-- HMASK (R88). -/
def execHmask (d a b : Reg) (s : State) : Host.Outcome State Fault Refusal :=
  issueWord (.hmask d a b) (fun _ p s =>
    let sel := wbits (getX p a s) 15 0
    let val := wbits (getX p b s) 15 0
    if 16384 ≤ sel ∧ !(s.thread p).mode then .trap s Cause.privilege (wordOf (.hmask d a b))
    else match p.core? with
      | none => .ok s
      | some c =>
        let old := enableBits (s.core c).tab
        let new := Nat.lor (Nat.land old (65535 - sel)) (Nat.land val sel)
        .ok (setX p 0 d (ofN old) (s.modCore c fun k => { k with tab := withEnables k.tab new }))) s

/-! ### Target selectors (14 Table 14-1) -/

/-- Whether a target selector of the thread at p has a format error (14 R320). -/
def selBad (p : Place) (t : Word) (s : State) : Bool :=
  let rk := wbit t 17
  let lc := wbit t 16
  let rank := wbits t 39 24
  wbits t 63 40 != 0 || wbits t 23 18 != 0 || decide (s.nranks (s.thread p).gang ≤ rank) ||
    (lc && (rk || rank != 0)) || decide ((if lc then 48 else 32) ≤ wbits t 12 7) ||
    (p.engine == .landing && !rk && !lc)

/-- The share a selector that names a scalar core names. -/
def selShare (p : Place) (t : Word) (s : State) : Option Share :=
  if wbit t 17 then s.share? (s.thread p).gang (wbits t 39 24) else s.shareOf? p

/-- The destination context of a selector, if the sender may reach it (14 R320). -/
def selDest (p : Place) (t : Word) (s : State) : Option Place :=
  let c := wbits t 12 7
  let k := wbits t 6 5
  if wbit t 16 then
    let l := wbits t 15 13
    (s.lentTo? (s.thread p).gang l c k).map fun _ => .lctx l c k
  else match selShare p t s with
    | none => none
    | some sh => if sh.holdsCtx c k then some (.ctx sh.cl c k) else none

/-- The context a selector names, as a thread in *sending* that has passed the checks names it again. -/
def selPlace (p : Place) (t : Word) (s : State) : Place :=
  let c := wbits t 12 7
  let k := wbits t 6 5
  if wbit t 16 then .lctx (wbits t 15 13) c k
  else match selShare p t s with
    | none => .ctx 0 c k
    | some sh => .ctx sh.cl c k

/-- The release scope of an RPUT (14 R322). -/
def rputScope (p d : Place) : Scope :=
  if p.cluster?.isSome && p.cluster? == d.cluster? then .cl
  else if p.die = d.die then .die else .pkg

/-- RPUT (R329). The checks are made once, before the release and the wait in *sending*. -/
def execRput (a b : Reg) (s : State) : Host.Outcome State Fault Refusal :=
  issueWord (.rput a b) (fun _ p s =>
    let t := getX p a s
    let v := getX p b s
    let d := selPlace p t s
    let rank := if wbit t 16 then none else (selShare p t s).map (·.rank)
    let send := fun (s : State) => sendParcel p rank (.rput d (wbits t 4 0) v) s
    if waitOf p s = some .sending then send s
    else if stageOf p s = 2 then releaseOr (.waiting 2 0) p (rputScope p d) true s send
    else if selBad p t s then .trap s Cause.messageFormat t
    else if (selDest p t s).isNone then .trap s Cause.messageDest t
    else releaseOr (.waiting 2 0) p (rputScope p d) true s send) s

/-! ### QGET and QPEEK (14 R329) -/

/-- QGET (R329). -/
def execQget (d q : Reg) (s : State) : Host.Outcome State Fault Refusal :=
  issueWord (.qget d q) (fun _ p s =>
    let t := s.thread p
    if t.qpres.getLsbD q then
      .ok (acquire p .die (setX p 0 d t.q[q] (s.modThread p fun t =>
        { t with qpres := setBit t.qpres q false, qout := setBit t.qout q false, qgot := setBit t.qgot q false })))
    else .wait s (.waiting 0 0)) s

/-- QPEEK (R329). -/
def execQpeek (d q : Reg) (s : State) : Host.Outcome State Fault Refusal :=
  issueWord (.qpeek d q) (fun _ p s =>
    let t := s.thread p
    if t.qpres.getLsbD q then .ok (acquire p .die (setX p 0 d t.q[q] s))
    else .wait s (.waiting 0 0)) s

end Sys2Proof.Machine
end

