-- ==== Sys2Proof/Machine/Sync.lean ====
section
/-!
DEFINITION. Deques and barriers: DQPUSH, DQPOP, DQSTEAL and the arriving steals; BAR, BARA, BARW and the
propagation of a completed phase (14 R323-R328, R330, R331).
-/

namespace Sys2Proof.Machine

/-! ### Deques (14 R323) -/

/-- The capacity of core c's deque in a share, 0 where the deque is not valid. -/
def dequeCap (sh : Share) (k : Core) : Nat :=
  let lo := k.dqBase.toNat
  let hi := k.dqLim.toNat
  if lo % 16 = 0 ∧ hi % 16 = 0 ∧ lo < hi ∧ hi ≤ sh.spadSize then (hi - lo) / 16 else 0

/-- The scratchpad offset of entry i. -/
def entryAt (sh : Share) (k : Core) (i : Nat) : Nat :=
  sh.spadBase + k.dqBase.toNat + 16 * (i % dequeCap sh k)

/-- Entry i of a deque: the task PC and its argument. -/
def readEntry (sh : Share) (k : Core) (i : Nat) (s : State) : (Word × Word) × State :=
  let a := entryAt sh k i
  let s := settleSpad sh.cl a 16 (some sh.cl) s
  ((ofN (spadRead s sh.cl a 8), ofN (spadRead s sh.cl (a + 8) 8)), s)

/-- DQPUSH at the unit: whether the entry went in (14 R330). -/
def pushEntry (sh : Share) (c : Nat) (pc arg : Word) (s : State) : Bool × State :=
  let k := s.core (.scalar sh.cl c)
  if dequeCap sh k ≤ k.bot - k.top then (false, s)
  else
    let a := entryAt sh k k.bot
    let s := settleSpad sh.cl a 16 (some sh.cl) s
    (true, (spadWrite sh.cl (a + 8) 8 arg.toNat (spadWrite sh.cl a 8 pc.toNat s)).modCore (.scalar sh.cl c)
      fun k => { k with bot := k.bot + 1 })

/-- DQPOP at the unit: the entry taken, none when the deque is empty. -/
def popEntry (sh : Share) (c : Nat) (s : State) : Option (Word × Word) × State :=
  let k := s.core (.scalar sh.cl c)
  if k.bot ≤ k.top then (none, s)
  else
    let r := readEntry sh k (k.bot - 1) s
    (some r.1, r.2.modCore (.scalar sh.cl c) fun k => { k with bot := k.bot - 1 })

/-- A steal at the victim's unit: the entry taken, none when its deque is not valid or is empty. -/
def stealEntry (sh : Share) (c : Nat) (s : State) : Option (Word × Word) × State :=
  let k := s.core (.scalar sh.cl c)
  if dequeCap sh k = 0 || decide (k.bot ≤ k.top) then (none, s)
  else
    let r := readEntry sh k k.top s
    (some r.1, r.2.modCore (.scalar sh.cl c) fun k => { k with top := k.top + 1 })

/-- The check of the executing core's deque, then k with its share and core number. -/
def withDeque (p : Place) (s : State) (k : Share → Nat → Res) : Res :=
  match p, s.shareOf? p with
  | .ctx cl c _, some sh =>
    if dequeCap sh (s.core (.scalar cl c)) = 0 || sh.cl != cl then .trap s Cause.deque 3 else k sh c
  | _, _ => .trap s Cause.deque 3

/-- DQPUSH (R330). -/
def execDqpush (sc : Scope) (d a b : Reg) (s : State) : Host.Outcome State Fault Refusal :=
  issueWord (.dqpush sc d a b) (fun _ p s => withDeque p s fun sh c =>
    let pc := getX p a s
    let arg := getX p b s
    if pc.toNat % 4 ≠ 0 then .trap s Cause.deque 2
    else releaseThen p sc true s fun s =>
      let r := pushEntry sh c pc arg s
      .ok (setX p 0 d (if r.1 then 1 else 0) r.2)) s

/-- A pair of results in xd and x(d+1). -/
def setPair (p : Place) (d : Reg) (v : Word × Word) (s : State) : State :=
  setXNext p 0 d v.2 (setX p 0 d v.1 s)

/-- The results of a DQPOP or DQSTEAL: the entry taken, with an acquire, or (1, 0) (14 R330). -/
def dequeFin (p : Place) (sc : Scope) (d : Reg) (e : Option (Word × Word)) (s : State) : State :=
  match e with
  | some v => setPair p d v (acquire p sc s)
  | none => setPair p d (1, 0) s

/-- DQPOP (R330). -/
def execDqpop (d : Reg) (s : State) : Host.Outcome State Fault Refusal :=
  issueWord (.dqpop d) (fun _ p s => withDeque p s fun sh c =>
    let r := popEntry sh c s
    .ok (dequeFin p .cl d r.1 r.2)) s

/-- Whether a DQSTEAL's selector is no victim's (14 R330). -/
def stealBad (p : Place) (t : Word) (s : State) : Bool :=
  selBad p t s || wbits t 6 0 != 0 || wbits t 16 13 != 0 ||
    !(match selShare p t s with
      | some sh => sh.holdsCore (wbits t 12 7)
      | none => false)

/-- DQSTEAL (R330): the steal is sent to the victim's unit, and ends with its answer. -/
def execDqsteal (d a : Reg) (s : State) : Host.Outcome State Fault Refusal :=
  issueWord (.dqsteal d a) (fun _ p s =>
    match waitOf p s with
    | some (.answered taken v w) => .ok (dequeFin p .die d (if taken then some (v, w) else none) s)
    | some (.waiting 2 n) => .wait s (.waiting 2 n)
    | _ =>
      let t := getX p a s
      if stealBad p t s then .trap s Cause.deque 1
      else match selShare p t s with
        | none => .trap s Cause.deque 1
        | some sh =>
          if !s.live sh then .wait s (.waiting 0 0)
          else
            .wait (s.modCluster sh.cl fun c => { c with
              steals := c.steals ++ [{ thief := p, cl := sh.cl, core := wbits t 12 7, clk := s.clk }] })
              (.waiting 2 0)) s

/-- The steals of a cluster's own threads that its deque unit may take: they were issued before this clk
(14 R324). -/
def ownSteals (cl : Nat) (s : State) : List Steal :=
  (s.cluster cl).steals.filter fun x => x.thief.cluster? == some cl && decide (x.clk < s.clk)

/-- The steal that a cluster's deque unit takes in a clk: the oldest of its own threads, else any that comes from
elsewhere (log 84). -/
def nextSteal (cl : Nat) (s : State) : Option Steal :=
  match ownSteals cl s with
  | x :: _ => some x
  | [] =>
    let xs := (s.cluster cl).steals.filter fun x => x.thief.cluster? != some cl
    xs[Config.arrival s.clk xs.length % xs.length]?

/-- STEAL_REQUEST: the one steal that reaches a cluster's deque unit in this clk is performed (R324); one
whose victim has been saved since starts again. -/
def execStealRequest (cl : Nat) (s : State) : Host.Outcome State Fault Refusal :=
  .next <|
    match nextSteal cl s with
    | none => s
    | some x =>
      let s := s.modCluster cl fun c => { c with steals := c.steals.erase x }
      match s.shareOn? (s.thread x.thief).gang cl x.core with
      | none => answerWait x.thief (.waiting 0 0) s
      | some sh =>
        if !s.live sh then answerWait x.thief (.waiting 0 0) s
        else
          let r := stealEntry sh x.core s
          let v := r.1.getD (1, 0)
          answerWait x.thief (.answered r.1.isSome v.1 v.2) r.2

/-! ### Barriers (14 R326-R328) -/

/-- Whether a share is a member of barrier b of its gang (14 R326). -/
def barMember (sh : Share) (b : Nat) (s : State) : Bool :=
  match s.gang? sh.gang with
  | some g => (g.desc.barmask[b]?).getD 0 / 2 ^ sh.unit % 2 == 1
  | none => false

/-- NBAR of a gang. -/
def nbarOf (g : Nat) (s : State) : Nat :=
  match s.gang? g with
  | some x => x.desc.nbar
  | none => 0

/-- A barrier's state at a share. -/
def barOf (sh : Share) (b : Nat) : BarShare :=
  (sh.bars[b]?).getD BarShare.blank

/-- Whether a share has all its arrivals for a phase (14 R327). -/
def BarShare.full (x : BarShare) (ph : Nat) : Bool :=
  decide (ph < x.c) || (ph == x.c && x.quota0 != 0 && x.quota0 == x.got0) ||
    (ph == x.c + 1 && x.quota1 != 0 && x.quota1 == x.got1)

/-- Whether a phase of barrier b is complete. -/
def phaseFull (g b ph : Nat) (s : State) : Bool :=
  ((s.sharesOf g).filter fun sh => barMember sh b s).all fun sh => (barOf sh b).full ph

/-- The state at a share one phase on. -/
def BarShare.next (x : BarShare) : BarShare :=
  { c := x.c + 1, quota0 := x.quota1, got0 := x.got1, last0 := x.last1, quota1 := 0, got1 := 0, last1 := 0,
    lastA := x.last0, lastB := x.lastA }

/-- The state at a share brought to phase ph + 1 or beyond. -/
def BarShare.upTo (x : BarShare) (ph : Nat) : BarShare :=
  if ph < x.c then x else if x.c = ph then x.next else x.next.next

/-- Every member share of barrier b on a die sees that phase ph is complete (14 R327). -/
def seePhase (g b die ph : Nat) (s : State) : State :=
  ((s.sharesOf g).filter fun sh => barMember sh b s && sh.cl / 48 == die).foldl (fun s sh =>
    s.modShare g sh.rank fun sh => { sh with bars := sh.bars.modify b (·.upTo ph) }) s

/-- How an arrival stands: for the phase at c, for the next, not before C advances, or with another
quota (14 R327). -/
inductive Arrival
  | this
  | next
  | later
  | quota
  deriving DecidableEq, Repr

/-- How an arrival with quota q stands at a share. -/
def BarShare.arrival (x : BarShare) (q : Nat) : Arrival :=
  if x.quota0 = 0 then .this
  else if x.got0 < x.quota0 then (if x.quota0 = q then .this else .quota)
  else if x.quota1 = 0 then .next
  else if x.got1 < x.quota1 then (if x.quota1 = q then .next else .quota)
  else .later

/-- The share of the thread at p and the barrier id, after the checks of a selector; else the EVAL
(14 R331). -/
def barSel (p : Place) (xa : Word) (s : State) : Except Nat (Share × Nat) :=
  match s.shareOf? p with
  | none => .error 1
  | some sh =>
    let b := wbits xa 3 0
    if wbits xa 63 32 ≠ 0 ∨ wbits xa 15 4 ≠ 0 ∨ nbarOf sh.gang s ≤ b then .error 1
    else if !barMember sh b s then .error 2
    else .ok (sh, b)

/-- The quota of a selector. -/
def barQuota (xa : Word) : Nat := if wbits xa 31 16 = 0 then 1 else wbits xa 31 16

/-- The clk of a share's last arrival for a phase: for one that it counts, or for one of the two before. No share is
further from a phase that some other member has yet to see. -/
def BarShare.last (x : BarShare) (ph : Nat) : Nat :=
  if ph = x.c then x.last0
  else if ph = x.c + 1 then x.last1
  else if ph + 1 = x.c then x.lastA
  else if ph + 2 = x.c then x.lastB
  else 0

/-- The die whose member shares see at once that a phase is complete: the lowest on which an arrival for it has been
counted in this clk (14 R327). -/
def lastDie (g b ph own : Nat) (s : State) : Nat :=
  ((s.sharesOf g).filter fun sh =>
    barMember sh b s && (barOf sh b).last ph == s.clk && decide ((barOf sh b).c ≤ ph)).foldl
    (fun d sh => min d (sh.cl / 48)) own

/-- An arrival counted at a share for phase C or C + 1, and what its phase's completion shows
(14 R327). -/
def countArrival (sh : Share) (b q : Nat) (next : Bool) (s : State) : State :=
  let x := barOf sh b
  let ph := if next then x.c + 1 else x.c
  let s := s.modShare sh.gang sh.rank fun sh => { sh with bars := sh.bars.modify b fun x =>
    if next then { x with quota1 := q, got1 := x.got1 + 1, last1 := s.clk }
    else { x with quota0 := q, got0 := x.got0 + 1, last0 := s.clk } }
  if phaseFull sh.gang b ph s then seePhase sh.gang b (lastDie sh.gang b ph (sh.cl / 48) s) ph s else s

/-- The arrival of BAR and BARA: the checks, the release, then the arrival, after which `fin` is given
the phase (14 R331). -/
def arrive (p : Place) (sc : Scope) (xa : Word) (s : State) (fin : Nat → State → Res) : Res :=
  match barSel p xa s with
  | .error e => .trap s Cause.barrier (ofN e)
  | .ok (sh, b) =>
    let q := barQuota xa
    if (barOf sh b).arrival q = .quota then .trap s Cause.barrier 3
    else releaseThen p sc true s fun s =>
      match (barOf sh b).arrival q with
      | .this => fin (barOf sh b).c (countArrival sh b q false s)
      | .next => fin ((barOf sh b).c + 1) (countArrival sh b q true s)
      | .later => .wait s (.waiting 0 0)
      | .quota => .trap s Cause.barrier 3

/-- The wait of BAR and BARW for C to pass a phase (14 R331). -/
def barWait (p : Place) (xa : Word) (ph stage : Nat) (s : State) (fin : State → Res) : Res :=
  match barSel p xa s with
  | .error e => .trap s Cause.barrier (ofN e)
  | .ok (sh, b) => if ph < (barOf sh b).c then fin s else .wait s (.waiting stage ph)

/-- BARA (R331). -/
def execBara (sc : Scope) (d a : Reg) (s : State) : Host.Outcome State Fault Refusal :=
  issueWord (.bara sc d a) (fun _ p s =>
    arrive p sc (getX p a s) s fun ph s => .ok (setX p 0 d (ofN ph) s)) s

/-- BARW (R331). -/
def execBarw (sc : Scope) (a b : Reg) (s : State) : Host.Outcome State Fault Refusal :=
  issueWord (.barw sc a b) (fun _ p s =>
    barWait p (getX p a s) (getX p b s).toNat 0 s fun s => .ok (acquire p sc s)) s

/-- BAR (R331): an arrival, then the wait for its phase, in which a second look finds the phase kept. -/
def execBar (sc : Scope) (d a : Reg) (s : State) : Host.Outcome State Fault Refusal :=
  issueWord (.bar sc d a) (fun _ p s =>
    let xa := getX p a s
    let fin := fun (ph : Nat) (s : State) =>
      barWait p xa ph 1 s fun s => .ok (setX p 0 d (ofN ph) (acquire p sc s))
    match waitOf p s with
    | some (.waiting 1 ph) => fin ph s
    | _ => arrive p sc xa s fin) s

/-- The member shares of a barrier on a die, and the lowest phase at which one of them stands. -/
def dieBar (g b die : Nat) (s : State) : List Share × Nat :=
  let shs := (s.sharesOf g).filter fun sh => barMember sh b s && sh.cl / 48 == die
  (shs, shs.foldl (fun m sh => min m (barOf sh b).c) ((shs.head?.map fun sh => (barOf sh b).c).getD 0))

/-- The first clk in which the other dies may see that a phase is complete: the one after that in which its last arrival
was counted, whichever dies have seen it since (14 R327). -/
def seenFirst (g b ph : Nat) (s : State) : Nat :=
  ((s.sharesOf g).filter fun sh => barMember sh b s).foldl (fun m sh => max m ((barOf sh b).last ph + 1)) 0

/-- Whether a die has yet to see a phase of barrier b that was complete 64 clk ago or earlier: it sees it in this clk at
the latest (14 R327). -/
def propagateDue (g b die : Nat) (s : State) : Bool :=
  let d := dieBar g b die s
  !d.1.isEmpty && phaseFull g b d.2 s && decide (seenFirst g b d.2 s + 63 ≤ s.clk)

/-- BARRIER_PHASE_PROPAGATE: the member shares of a die see the next completed phase together, in a clk after that
in which it completed (R327). -/
def execBarrierPhasePropagate (g : Nat) (b : Fin 16) (die : Fin 4) (s : State) :
    Host.Outcome State Fault Refusal :=
  .next <|
    let d := dieBar g b.val die.val s
    if !d.1.isEmpty && phaseFull g b.val d.2 s && decide (seenFirst g b.val d.2 s ≤ s.clk)
    then seePhase g b.val die.val d.2 s else s

end Sys2Proof.Machine
end

