-- ==== Sys2Proof/Machine/Fetch.lean ====
section
/-!
DEFINITION. Instruction fetch: the instruction caches and the delivery of groups (05 R97-R101, R391).
-/

namespace Sys2Proof.Machine

/-- What a fetch comes to: the line, a fault, a failed walk. -/
inductive Fetched
  | line (d : BitVec 1024)
  | bad (cause : Nat)
  | missed (reason level : Nat)
  deriving DecidableEq, Repr

/-- The instruction cache a place fetches through. -/
def State.icOf (s : State) (p : Place) : List Line :=
  match p with
  | .ctx cl _ _ => (s.cluster cl).ic
  | .lane cl _ _ _ => (s.cluster cl).ic
  | .lctx l c _ => (s.core (.landing l c)).ic

/-- The lines of a cluster's instruction cache, 64 KiB, and of a landing core's, 8 KiB (05 R98). -/
def icLines (landing : Bool) : Nat := if landing then 64 else 512

/-- The state with a line put into a place's instruction cache. -/
def addIc (p : Place) (x : Line) (s : State) : State :=
  match p with
  | .ctx cl _ _ => s.modCluster cl fun c => { c with ic := cachePut (icLines false) s.clk x c.ic }
  | .lane cl _ _ _ => s.modCluster cl fun c => { c with ic := cachePut (icLines false) s.clk x c.ic }
  | .lctx l c _ => s.modCore (.landing l c) fun k => { k with ic := cachePut (icLines true) s.clk x k.ic }

/-- The line that holds an address, through the instruction cache; a miss bypasses L1 and is filled from
the slice, for a landing core from the home (05 R98, R99; 09 R200). -/
def fetchLine (p : Place) (va : Word) (s : State) : Fetched × State :=
  let g := s.agent p
  let tag := va.toNat / 128
  match (s.icOf p).find? (fun l => l.gang == g.gang && l.tag == tag) with
  | some l => (.line l.data, s)
  | none =>
    match route g (va - ofN (va.toNat % 4)) 4 .exec s with
    | (.bad c, s) => (.bad c, s)
    | (.missed r l, s) => (.missed r l, s)
    | (.held, s) => (.bad Cause.access, s)
    | (.to (.dram pa _ _ _), s) =>
      if s.poisoned pa then (.bad Cause.dataError, s)
      else
        let r := match g.cl with
          | some cl => sliceLine (some cl) g.die (pa / 128) 128 true s
          | none =>
            let s := settleLine (pa / 128) s
            (homeLine s (pa / 128), (homeServe (pa / 128) s).2.2)
        (.line r.1, addIc p { gang := g.gang, tag := tag, data := r.1 } r.2)
    | (.to _, s) => (.bad Cause.access, s)

/-- The word of a line at an address. -/
def lineWord (d : BitVec 1024) (va : Word) : W32 := BitVec.ofNat 32 (lineGet d (va.toNat % 128) 4)

/-- The state with a crew's groups changed. -/
def modGroups (u : Crew) (f : List Group → List Group) (s : State) : State :=
  match u with
  | .ctx cl c k => s.modThread (.ctx cl c k) fun t => { t with fetch := f t.fetch }
  | .wave cl e sl => s.modWave cl e sl fun w => { w with fetch := f w.fetch }
  | .lctx l c k => s.modThread (.lctx l c k) fun t => { t with fetch := f t.fetch }

/-- The eight words of a line from an aligned address. -/
def groupWords (d : BitVec 1024) (a : Word) : List W32 :=
  (List.range 8).map fun i => lineWord d (a + ofN (4 * i))

/-- A group delivered to a crew, beside those it still needs. -/
def deliver (u : Crew) (pc : Word) (g : Group) (s : State) : State :=
  modGroups u (fun gs => (gs.filter fun x =>
    x.addr != g.addr && (x.addr == groupOf pc || x.addr == groupOf pc + 32)) ++ [g]) s

/-! ### Requests and their acceptance (05 R391) -/

/-- The crews that have a thread, in the order in which requests of one clk are accepted: scalar cores, then
wide engines, then landing cores. -/
def State.crews (s : State) : List Crew := (s.places.map Place.crew).eraseDups

/-- The place whose control a crew's fetch follows: the first that stands at its issuing pc, or one of a crew
that waits. -/
def State.fetcher (s : State) (u : Crew) : Option Place :=
  match s.standing u with
  | p :: _ => some p
  | [] =>
    match u with
    | .ctx cl c k => some (.ctx cl c k)
    | .wave cl e sl => (s.lanes cl e sl).head?
    | .lctx l c k => some (.lctx l c k)

/-- Whether a thread has words left to fetch. -/
def Thread.fetches (t : Thread) : Bool :=
  match t.run with
  | .running => true
  | .wait _ _ => true
  | .idle => false
  | .retired => false
  | .fetchSleep => false

/-- The address of the last word a crew has issued where it stands. -/
def State.lastIssued (s : State) (u : Crew) : Option Word :=
  match u with
  | .ctx cl c k => (s.thread (.ctx cl c k)).lastPc
  | .wave cl e sl => (s.wave? cl e sl).bind (·.lastPc)
  | .lctx l c k => (s.thread (.lctx l c k)).lastPc

/-- The groups a crew is to hold: its current one, and the next from the first word of the current one that it
issues. -/
def State.wanted (s : State) (u : Crew) : List Word :=
  match s.fetcher u with
  | none => []
  | some p =>
    let t := s.thread p
    let cur := groupOf t.pc
    if !t.fetches || t.pc.toNat % 4 ≠ 0 || (t.mode && t.pc == Config.trapRoutine) then []
    else if (s.lastIssued u).any fun a => groupOf a == cur then [cur, cur + 32] else [cur]

/-- Whether a crew has a group or has asked for it. -/
def State.hasGroup (s : State) (u : Crew) (a : Word) : Bool :=
  ((s.groups u).any fun g => g.addr == a) || s.freqs.any fun r => r.u == u && r.addr == a

/-- A crew's requests of this clk; a wave has one group in flight (07 R166). -/
def requestGroups (u : Crew) (s : State) : State :=
  let need := (s.wanted u).filter fun a => !s.hasGroup u a
  let need := match u with
    | .wave _ _ _ => if s.freqs.any (·.u == u) then [] else need.take 1
    | .ctx _ _ _ => need
    | .lctx _ _ _ => need
  { s with freqs := s.freqs ++ need.map fun a => { u := u, addr := a, clk := s.clk, taken := false } }

/-- The requests that control has passed over, dropped: a taken transfer leaves none (05 R100). -/
def dropRequests (s : State) : State :=
  { s with freqs := s.freqs.filter fun r =>
      match s.fetcher r.u with
      | none => false
      | some p =>
        let cur := groupOf (s.thread p).pc
        (s.thread p).fetches && (r.addr == cur || r.addr == cur + 32) }

/-- The cache a crew fetches through, as a number, and how many requests it accepts in a clk. -/
def cacheOf (u : Crew) : Nat × Nat :=
  match u with
  | .ctx cl _ _ => (cl, 8)
  | .wave cl _ _ => (cl, 8)
  | .lctx l c _ => (1000 + l * 48 + c, 1)

/-- One request accepted: one that hits is delivered 2 clk later, one that misses waits for its line. -/
def acceptRequest (r : FReq) (s : State) : State :=
  let rest := { s with freqs := s.freqs.erase r }
  match s.fetcher r.u with
  | none => rest
  | some p =>
    let t := s.thread p
    match (s.icOf p).find? fun l => l.gang == t.gang && l.tag == r.addr.toNat / 128 with
    | some l => deliver r.u t.pc { addr := r.addr, words := groupWords l.data r.addr, clk := s.clk + 2, bad := 0 } rest
    | none => { s with freqs := s.freqs.map fun x => if x = r then { x with taken := true } else x }

/-- The requests of a list that the caches accept in this clk, oldest first; `n` counts what each has
accepted. -/
def acceptRequests : List FReq → FMap Nat → State → State
  | [], _, s => s
  | r :: rs, n, s =>
    let c := cacheOf r.u
    let k := FMap.getD n c.1 0
    if r.taken || c.2 ≤ k then acceptRequests rs n s
    else acceptRequests rs (FMap.put n c.1 (k + 1)) (acceptRequest r s)

/-- What the fetch of the device does in a clk: requests are made and the caches accept them (05 R391). -/
def fetchClk (s : State) : State :=
  let s := s.crews.foldl (fun s u => requestGroups u s) (dropRequests s)
  acceptRequests s.freqs [] s

/-- FETCH_GROUP_DELIVERY: the oldest group of a crew that missed arrives, its line filled; a failed walk puts
those that need the word to sleep (R391; R99-R101; 13 R315). -/
def execFetchGroupDelivery (u : Crew) (s : State) : Host.Outcome State Fault Refusal :=
  .next <|
    match s.freqs.find? (fun r => r.u == u && r.taken), s.fetcher u with
    | some r, some p =>
      let pc := (s.thread p).pc
      let a := r.addr
      let s := { s with freqs := s.freqs.erase r }
      match fetchLine p a s with
      | (.line d, s) => deliver u pc { addr := a, words := groupWords d a, clk := s.clk, bad := 0 } s
      | (.bad c, s) => deliver u pc { addr := a, words := [], clk := s.clk, bad := c } s
      | (.missed r l, s') =>
        if a = groupOf pc then
          (s.standing u).foldl (fun s q => s.modThread q fun t => { t with run := .fetchSleep })
            (if (s.standing u).isEmpty then s' else addMiss (s'.agent p) (.thread p) pc .exec r l s')
        else s
    | _, _ => s

end Sys2Proof.Machine
end

