-- ==== Sys2Proof/Machine/Gather.lean ====
section
/-!
DEFINITION. The gatherer, the mailbox and migration: MBPOST, MBWAIT, GFLUSH, MIGR and MGPT, the buckets,
the launch of waves and the placement of migrating lanes (08 R182-R195).
-/

namespace Sys2Proof.Machine

/-! ### Buckets (08 R182-R184) -/

/-- An open bucket whose last clk has passed is released (08 R184). -/
def Bucket.expire (b : Bucket) (n clk : Nat) : Bucket :=
  if b.st = .opened ∧ b.t0 + b.tmo < clk then { b with st := .released, order := (b.t0 + b.tmo) * 8 + n }
  else b

/-- The buckets of a cluster with those released whose last clk has passed. -/
def expireBuckets (cl : Nat) (s : State) : State :=
  s.modCluster cl fun c => { c with buckets := c.buckets.mapIdx fun n b => b.expire n s.clk }

/-- A bucket to be released at the end of this clk, if not earlier. -/
def Bucket.closeNow (b : Bucket) (clk : Nat) : Bucket := { b with tmo := min b.tmo (clk - b.t0) }

/-- Whether an open bucket takes a post (08 R182, R183). -/
def Bucket.takes (b : Bucket) (q : Post) : Bool :=
  b.st == .opened && b.gang == q.gang && b.migr == q.migr && b.pc == q.pc &&
    decide (b.entries.length < 64)

/-- A bucket with one more entry; the 64th releases it at the end of the clk. -/
def Bucket.append (b : Bucket) (e : Entry) (clk : Nat) : Bucket :=
  let b := { b with entries := b.entries ++ [e] }
  if 64 ≤ b.entries.length then b.closeNow clk else b

/-- GTIMEOUT.CLK of a share. -/
def timeoutOf (g r : Nat) (s : State) : Nat :=
  match s.share? g r with
  | some sh => wbits (ofN sh.gtimeout) 31 0
  | none => 0

/-- Which bucket a post opens where no open one takes it: a free one. The manual does not say which where several are
free; a free value says it (08 R183; log 97). -/
def openedBucket (bs : List Bucket) (k : Nat) : Option Nat :=
  match (List.range bs.length).filter fun n => (bs[n]?).any (·.st == BSt.free) with
  | [] => none
  | n :: ns => some ((n :: ns).getD (Config.openBucket k % (ns.length + 1)) n)

/-- A post enters a bucket of a cluster, if one takes it or is free (08 R183). -/
def enterBucket (cl : Nat) (q : Post) (s : State) : Option State :=
  let s := expireBuckets cl s
  let bs := (s.cluster cl).buckets
  match bs.findIdx? (·.takes q) with
  | some n => some (s.modCluster cl fun c =>
      { c with buckets := c.buckets.modify n (·.append q.entry s.clk) })
  | none =>
    match openedBucket bs s.frees with
    | none => none
    | some n =>
      let b : Bucket := { st := .opened, gang := q.gang, rank := q.rank, migr := q.migr, pc := q.pc,
                          entries := [q.entry], t0 := s.clk, tmo := timeoutOf q.gang q.rank s, order := 0 }
      some ({ s with frees := s.frees + 1 }.modCluster cl fun c => { c with buckets := c.buckets.set n b })

/-- A context whose thread has left: idle, its registers as they were (08 R192). -/
def Thread.departed (t : Thread) : Thread :=
  { t with run := .idle, reply := none, fetch := [], grem := 0, gcnd := false }

/-- What entering a bucket does to the poster: its outstanding bit is set, or its context is idle
(08 R192, R195). -/
def posted (q : Post) (s : State) : State :=
  s.modThread q.entry.place fun t =>
    if q.migr then t.departed
    else match q.entry.thread.reply with
      | some r => { t with qout := setBit t.qout r.idx true, qgot := setBit t.qgot r.idx false }
      | none => t

/-- A bucket of a cluster that has become free: the oldest post in *posting* takes it (08 R183). -/
def servePosting (cl : Nat) (s : State) : State :=
  match (s.cluster cl).posts.find? (·.queued) with
  | none => s
  | some q =>
    match enterBucket cl q s with
    | none => s
    | some s => posted q (answerWait q.entry.place (.posting 1)
        (s.modCluster cl fun c => { c with posts := c.posts.erase q }))

/-- Buckets of a cluster that have become free, n of them (08 R183). -/
def servePostings (cl : Nat) : Nat → State → State
  | 0, s => s
  | n + 1, s => servePostings cl n (servePosting cl s)

/-- A post that has reached the gatherer: it enters a bucket, or its poster waits (08 R183). -/
def takePost (cl : Nat) (q : Post) (s : State) : State :=
  match enterBucket cl q s with
  | some s => posted q (answerWait q.entry.place (.posting 1) s)
  | none => s.modCluster cl fun c => { c with posts := c.posts ++ [{ q with queued := true }] }

/-- A thread's post: left to a later turn, or taken now; `fin` ends the word once it is in. -/
def sendPost (cl : Nat) (q : Post) (s : State) (fin : State → Res) : Res :=
  if s.split then .wait (s.modCluster cl fun c => { c with posts := c.posts ++ [q] }) (.posting 0)
  else match enterBucket cl q s with
    | some s => fin (posted q s)
    | none => .wait (s.modCluster cl fun c => { c with posts := c.posts ++ [{ q with queued := true }] })
        (.posting 0)

/-! ### MBPOST, MBWAIT, GFLUSH (08 R195) -/

/-- WAVES and CTX of a gang. -/
def gangDesc (g : Nat) (s : State) : Nat × Nat :=
  match s.gang? g with
  | some x => (x.desc.waves, x.desc.ctx)
  | none => (0, 0)

/-- The lane a request becomes (08 R186). -/
def requestLane (t : Thread) (pc a b : Word) (r : Reply) : Thread :=
  { Thread.blank with
    gang := t.gang, rank := t.rank, x := (Thread.blank.x.set 2 a).set 3 b, pc := pc, run := .running,
    fmode := t.fmode, nbv := t.nbv, reply := some r }

/-- MBPOST (R195). -/
def execMbpost (d a b : Reg) (s : State) : Host.Outcome State Fault Refusal :=
  issueWord (.mbpost d a b) (fun _ p s =>
    match waitOf p s with
    | some (.posting n) => if n = 1 then .ok s else .wait s (.posting 0)
    | _ =>
      let pc := getX p a s
      let t := s.thread p
      if pc.toNat % 4 ≠ 0 || !canonical pc then .trap s Cause.access pc
      else if b.val = 31 then .trap s Cause.mailbox 3
      else if (gangDesc t.gang s).1 = 0 then .trap s Cause.mailbox 2
      else if t.qpres.getLsbD d || t.qout.getLsbD d then .trap s Cause.mailbox 1
      else releaseThen p .cl true s fun s =>
        let t := s.thread p
        let r : Reply := { core := p.coreNum, ctx := p.ctxNum, idx := d.val }
        let q : Post :=
          { gang := t.gang, rank := t.rank, migr := false, pc := pc, queued := false,
            entry := { place := p, n := s.reqCtr, thread := requestLane t pc (t.getX b) (t.getX (Fin.ofNat 32 (b.val + 1))) r } }
        sendPost (p.cluster?.getD 0) q s .ok) s

/-- MBWAIT: it takes the reply, and acquires (R188, R195). -/
def execMbwait (d q : Reg) (s : State) : Host.Outcome State Fault Refusal :=
  issueWord (.mbwait d q) (fun _ p s =>
    let t := s.thread p
    if t.qpres.getLsbD q then
      .ok (acquire p .cl (setX p 0 d t.q[q] (s.modThread p fun t =>
        { t with qpres := setBit t.qpres q false, qout := setBit t.qout q false, qgot := setBit t.qgot q false })))
    else if !t.qout.getLsbD q then .trap s Cause.mailbox 4
    else .wait s (.waiting 0 0)) s

/-- GFLUSH (R195): the release takes place at the end of this clk, after the thread's earlier posts, which have entered
their buckets (18 R382). -/
def execGflush (a : Reg) (s : State) : Host.Outcome State Fault Refusal :=
  issueWord (.gflush a) (fun _ p s =>
    let t := s.thread p
    let cl := p.cluster?.getD 0
    .ok ((expireBuckets cl s).modCluster cl fun c =>
      { c with buckets := c.buckets.map fun b =>
          if b.st == .opened && b.gang == t.gang && (a == 0 || b.pc == t.getX a)
          then b.closeNow s.clk else b })) s

/-- MGPT: no effect (R195). -/
def execMgpt (s : State) : Host.Outcome State Fault Refusal :=
  issueWord .mgpt (fun _ _ s => .ok s) s

/-! ### MIGR (08 R190-R195) -/

/-- The migration record's sixteen doublewords (08 Table 08-2). -/
def recordWords (t : Thread) : List Word :=
  (List.range 8).map (fun i => t.getX (Fin.ofNat 32 (24 + i))) ++
  (List.range 4).map (fun i =>
    ofN ((t.getF (Fin.ofNat 32 (24 + 2 * i))).toNat + (t.getF (Fin.ofNat 32 (25 + 2 * i))).toNat * 2 ^ 32)) ++
  [1, 0, 0, 0]

/-- Doublewords stored from va, each an ST.D of the thread. -/
def storeWords (p : Place) : List Word → Word → State → (State → Res) → Res
  | [], _, s, k => k s
  | v :: vs, va, s, k =>
    access p va 8 .write s fun t s =>
      storeWords p vs (va + 8) (makeStore p va t 8 v.toNat .normal 0 s) k

/-- The stores of a thread that leaves its place are performed, so that its later releases need not find
them (log 13). -/
def settleStores (p : Place) (s : State) : State := drain (fun e => e.place == p) (fun _ => 3) s

/-- The lane a migrating scalar thread becomes (08 Table 08-3). -/
def migrantLane (t : Thread) (pc : Word) : Thread :=
  { Thread.blank with
    gang := t.gang, rank := t.rank, x := Vector.ofFn fun i => if i.val < 24 then t.x[i] else 0,
    f := Vector.ofFn fun i => if i.val < 24 then t.f[i] else 0, p := t.p, pc := pc, run := .running,
    fmode := t.fmode, fflags := t.fflags, nbv := t.nbv, mgrec := t.mgrec, reply := t.reply, acq := t.acq }

/-- MIGR on a scalar core, after the target's check. -/
def migrScalar (p : Place) (pc : Word) (s : State) : Res :=
  let t := s.thread p
  if t.strm.any (·.isSome) then .trap s Cause.migrState 2
  else if t.qpres ≠ 0 then .trap s Cause.migrState 3
  else if t.qout ≠ 0 then .trap s Cause.migrState 4
  else if (gangDesc t.gang s).1 = 0 then .trap s Cause.migrState 5
  else if t.mgrec.toNat % 128 ≠ 0 then .trap s Cause.access t.mgrec
  else
    let post := fun (s : State) =>
      let s := settleStores p s
      let t := s.thread p
      let q : Post := { gang := t.gang, rank := t.rank, migr := true, pc := pc, queued := false,
                        entry := { place := p, n := s.reqCtr, thread := migrantLane t pc } }
      sendPost (p.cluster?.getD 0) q s .left
    if t.mgrec = 0 then post s else storeWords p (recordWords t) t.mgrec s post

/-- MIGR in a lane, after the target's check: the lane waits for an idle context. -/
def migrLane (p : Place) (s : State) : Res :=
  let t := s.thread p
  let cl := p.cluster?.getD 0
  if (gangDesc t.gang s).2 = 0 then .trap s Cause.migrState 5
  else if t.mgrec.toNat % 128 ≠ 0 then .trap s Cause.access t.mgrec
  else .wait (s.modCluster cl fun c => { c with migOrder := c.migOrder + 1 })
    (.migrating (s.cluster cl).migOrder)

/-- The word at a MIGR's target, fetched as R99 states. -/
def withTarget (p : Place) (pc : Word) (s : State) (k : State → Res) : Res :=
  match fetchLine p pc s with
  | (.bad c, s) => .trap s c pc
  | (.missed r l, s) => .wait (addMiss (s.agent p) (.thread p) pc .exec r l s) .sleep
  | (.line d, s) => if lineWord d pc = 0xE8000005 then k s else .trap s Cause.migrTarget pc

/-- MIGR (R195): it ends any GUARD range, also one it faults in. -/
def execMigr (a : Reg) (s : State) : Host.Outcome State Fault Refusal :=
  issueWord (.migr a) (fun _ p s =>
    match waitOf p s with
    | some (.posting n) => .wait s (.posting n)
    | some (.migrating n) => .wait s (.migrating n)
    | _ =>
      let pc := getX p a s
      let s := s.modThread p fun t => { t with grem := 0, gcnd := false }
      if pc.toNat % 4 ≠ 0 || !canonical pc then .trap s Cause.access pc
      else if (s.thread p).mode then .trap s Cause.migrState 1
      else withTarget p pc s fun s =>
        let s := (forceLoads p s).modThread p (·.landAll)
        if p.engine = .lane then migrLane p s else migrScalar p pc s) s

/-! ### Events of the gatherer -/

/-- BUCKET_POST_ARRIVAL: the n oldest posts on their way reach a cluster's gatherer in this clk, taken by
core and then context (R183). -/
def execBucketPostArrival (cl n : Nat) (s : State) : Host.Outcome State Fault Refusal :=
  .next <|
    let now := ((s.cluster cl).posts.filter fun q => !q.queued).take n
    let s := s.modCluster cl fun c => { c with posts := c.posts.filter fun q => !now.contains q }
    (sortBy (fun q => q.entry.place.key) now).foldl
      (fun s q => takePost cl q s) s

/-- BUCKET_TIMEOUT: an open bucket is released once its last clk has ended (R184). -/
def execBucketTimeout (cl : Nat) (b : Fin 8) (s : State) : Host.Outcome State Fault Refusal :=
  .next (s.modCluster cl fun c => { c with buckets := c.buckets.modify b.val (·.expire b.val s.clk) })

/-- The free wave slots of a share on an engine, ascending: one is free from the clk after its wave retired
(08 R185; 16 R365). -/
def freeSlots (sh : Share) (e : Nat) (s : State) : List Nat :=
  (List.range 16).filter fun sl => sh.slots.contains (e, sl) && (s.wave? sh.cl e sl).isNone &&
    decide (FMap.getD (s.cluster sh.cl).slotFree (e * 16 + sl) 0 ≤ s.clk)

/-- The slot the gatherer launches into (08 R185). -/
def launchSlot (sh : Share) (s : State) : Option (Nat × Nat) :=
  let a := freeSlots sh 0 s
  let b := freeSlots sh 1 s
  if b.length ≤ a.length then a.head?.map (0, ·) else b.head?.map (1, ·)

/-- Whether a released bucket is the first of its share's to launch. -/
def firstReleased (b : Bucket) (bs : List Bucket) : Bool :=
  bs.all fun x => x.st != .released || x.gang != b.gang || decide (b.order ≤ x.order)

/-- Lane i of a launched wave: a request lane acquires with its first word (08 R187); a migrating thread goes on,
and with it the parcels it has sent (08 R190). -/
def placeLane (migr : Bool) (q : Place) (x : Entry) (s : State) : State :=
  if migr then (moveSenders (fun y => y.n < x.n) (fun r => if r = x.place then q else r) s).setThread q x.thread
  else s.setThread q { x.thread with acq := s.reqCtr }

/-- A wave put into a slot with its lanes (08 R185, R186; 07 R167). -/
def placeWave (sh : Share) (e sl : Nat) (b : Bucket) (s : State) : State :=
  let num := ((s.cluster sh.cl).waveNum[e]?).getD 0
  let w : Wave := { gang := sh.gang, rank := sh.rank, num := num, chksb := true, lay := sh.lay,
                    lastClk := s.clk, nextPc := b.pc, lastPc := none, fetch := [], yieldUntil := 0, yieldFor := [] }
  let s := { s with waves := FMap.put s.waves (waveKey sh.cl e sl) w }
  let s := s.modCluster sh.cl fun c => { c with waveNum := c.waveNum.set e (num + 1) }
  (b.entries.mapIdx fun i x => (i, x)).foldl (fun s ix =>
    placeLane b.migr (.lane sh.cl e sl ix.1) ix.2 s) s

/-- A released bucket of a cluster that launches now, with its share and the slot its wave takes (08 R185). -/
def launchable (cl b : Nat) (s : State) : Option (Bucket × Share × Nat × Nat) :=
  let bs := (s.cluster cl).buckets
  match bs[b]? with
  | none => none
  | some x =>
    if x.st ≠ .released || !firstReleased x bs then none
    else match s.share? x.gang x.rank with
      | none => none
      | some sh => if !s.live sh then none else (launchSlot sh s).map fun e => (x, sh, e.1, e.2)

/-- WAVE_LAUNCH: a released bucket becomes a wave in a free slot of its share, and a waiting post takes
the bucket (R185, R186, R183). -/
def execWaveLaunch (cl : Nat) (b : Fin 8) (s : State) : Host.Outcome State Fault Refusal :=
  .next <|
    let s := expireBuckets cl s
    match launchable cl b.val s with
    | none => s
    | some (x, sh, e, sl) =>
      servePosting cl (placeWave sh e sl x (s.modCluster cl fun c =>
        { c with buckets := c.buckets.set b.val Bucket.blank }))

/-! ### Placement of migrating lanes (08 R191, R193) -/

/-- The wave of a lane that has gone retires with its last lane; its slot is free from the next clk (16 R365). -/
def laneGone (p : Place) (s : State) : State :=
  match p with
  | .lane cl e sl _ =>
    let s := s.delThread p
    if (s.lanes cl e sl).isEmpty then
      { s with waves := FMap.del s.waves (waveKey cl e sl) }.modCluster cl fun c =>
        { c with slotFree := FMap.put c.slotFree (e * 16 + sl) (s.clk + 1) }
    else s
  | .ctx _ _ _ => s
  | .lctx _ _ _ => s

/-- What reading the migration record comes to. -/
inductive RecAns
  | got (x : List Word)
  | bad (cause : Nat) (va : Word)
  | missed (va : Word) (need : Need) (reason level : Nat)
  | held

/-- Doublewords read from va by the thread at p. -/
def readRecord (p : Place) : Nat → Word → List Word → State → RecAns × State
  | 0, _, acc, s => (.got acc.reverse, s)
  | n + 1, va, acc, s =>
    match route (s.agent p) va 8 .read s with
    | (.bad c, s) => (.bad c va, s)
    | (.missed r l, s) => (.missed va .read r l, s)
    | (.held, s) => (.held, s)
    | (.to t, s) =>
      if dataBad s t then (.bad Cause.dataError va, s)
      else
        let v := threadRead p va t 8 .normal s
        readRecord p n (va + 8) (ofN v.1 :: acc) v.2

/-- The record of an arriving thread: read, and its valid word cleared when it was 1. -/
def takeRecord (p : Place) (rec : Word) (s : State) : RecAns × State :=
  if rec = 0 then (.got [], s)
  else match readRecord p 16 rec [] s with
    | (.got ws, s) =>
      if recWord ws 12 ≠ 1 then (.got [], s)
      else
        let va := rec + 0x60
        match route (s.agent p) va 8 .write s with
        | (.bad c, s) => (.bad c va, s)
        | (.missed r l, s) => (.missed va .write r l, s)
        | (.held, s) => (.held, s)
        | (.to t, s) => (.got ws, makeStore p va t 8 0 .normal 0 s)
    | r => r

/-- The scalar thread a migrating lane becomes on a context that held `old` (08 Table 08-3). -/
def migrantScalar (t old : Thread) (pc : Word) (rec : List Word) : Thread :=
  { Thread.blank with
    gang := t.gang, rank := t.rank,
    x := Vector.ofFn fun i => if i.val < 24 then t.x[i] else recWord rec (i.val - 24),
    f := Vector.ofFn fun i => if i.val < 24 then t.f[i]
      else BitVec.ofNat 32 ((recWord rec (8 + (i.val - 24) / 2)).toNat / 2 ^ (32 * (i.val % 2))),
    p := t.p, q := old.q, pc := pc, run := .running, fmode := t.fmode, fflags := t.fflags, nbv := t.nbv,
    mgrec := t.mgrec, reply := t.reply, acq := t.acq, lay := old.lay }

/-- The migrating lanes of a cluster by their order, with the register that names the target. -/
def migrants (cl : Nat) (s : State) : List (Nat × Place × Reg) :=
  let all := (List.range 2).flatMap fun e => (List.range 16).flatMap fun sl => s.lanes cl e sl
  sortBy (·.1) (all.filterMap fun p =>
    match (s.thread p).run with
    | .wait (.migr a) (.migrating n) => some (n, p, a)
    | _ => none)

/-- The first idle context of a share, by core and then context. -/
def idleContext (sh : Share) (s : State) : Option Place :=
  (sh.cores.flatMap fun c => (List.range 4).map fun k => (c, k)).findSome? fun ck =>
    if sh.holdsCtx ck.1 ck.2 && (s.thread (.ctx sh.cl ck.1 ck.2)).run == .idle
    then some (.ctx sh.cl ck.1 ck.2) else none

/-- One migrating lane placed on an idle context of its share (08 R191, R193). -/
def placeMigrant (p : Place) (a : Reg) (s : State) : State :=
  let t := s.thread p
  match s.shareOf? p with
  | none => s
  | some sh =>
    if !s.live sh then s
    else match idleContext sh s with
      | none => s
      | some q =>
        match takeRecord p t.mgrec s with
        | (.held, s) => s
        | (.bad c va, s) => finishAt p (.migr a) t.pc 0 (.trap s c va)
        | (.missed va need r l, s) =>
          answerWait p .sleep (addMiss (s.agent p) (.thread p) va need r l s)
        | (.got ws, s) =>
          (moveSenders (fun _ => true) (fun r => if r = p then q else r) (laneGone p (settleStores p s))).setThread q
            (migrantScalar t (s.thread q) (t.getX a) ws)

/-- MIGRATION_PLACEMENT: the migrating lanes of a cluster are placed on idle contexts (R191). -/
def execMigrationPlacement (cl : Nat) (s : State) : Host.Outcome State Fault Refusal :=
  .next ((migrants cl s).foldl (fun s m => placeMigrant m.2.1 m.2.2 s) s)

end Sys2Proof.Machine
end

