-- ==== Sys2Proof/Machine/Control.lean ====
section
/-!
DEFINITION. PACE, GUARD and the words that are no instruction (02 R48, R55-R58).
-/

namespace Sys2Proof.Machine

/-- PACE (R58): a no-op on scalar and landing cores. -/
def execPace (s0 s1 s2 s3 s4 s5 s6 s7 : Fin 8) (s : State) : Host.Outcome State Fault Refusal :=
  issueWord (.pace s0 s1 s2 s3 s4 s5 s6 s7) (fun _ p s =>
    match p.engine with
    | .lane => .ok (s.modThread p fun t =>
        { t with pace := [s0.val, s1.val, s2.val, s3.val, s4.val, s5.val, s6.val, s7.val] })
    | .scalar => .ok s
    | .landing => .ok s) s

/-- GUARD (R55); n is the number of words less 1. -/
def execGuard (c : Pred) (neg : Bool) (n : Fin 8) (s : State) : Host.Outcome State Fault Refusal :=
  issueWord (.guard c neg n) (fun _ p s =>
    .ok (s.modThread p fun t => { t with gcnd := t.getP c != neg, grem := n.val + 1 })) s

/-- ILLEGAL_INSTRUCTION (R48): a word that is no defined encoding raises illegal-instruction fault. -/
def execIllegalInstruction (w : W32) (s : State) : Host.Outcome State Fault Refusal :=
  issueWord (.illegalInstruction w) (fun _ _ s => .trap s Cause.illegal (w.setWidth 64)) s

end Sys2Proof.Machine
end

