-- ==== Sys2Proof/Machine/System.lean ====
section
/-!
DEFINITION. The SYSTEM class: TRAP, BRK, ERET, SYSR, SYSW, YIELD, PGINV and EXIT (02 R62-R64;
15 R358-R362; 16 R363-R365).
-/

namespace Sys2Proof.Machine

/-! ### Traps (15 R358, R359) -/

/-- TRAP (R358). -/
def execTrap (i : BitVec 12) (s : State) : Host.Outcome State Fault Refusal :=
  issueWord (.trap i) (fun _ _ s => .trapNext s Cause.trap (i.setWidth 64)) s

/-- BRK (R358). -/
def execBrk (i : BitVec 12) (s : State) : Host.Outcome State Fault Refusal :=
  issueWord (.brk i) (fun _ _ s => .trapNext s Cause.brk (i.setWidth 64)) s

/-- ERET (R359). -/
def execEret (s : State) : Host.Outcome State Fault Refusal :=
  issueWord .eret (fun _ p s => .eret (trapReturn p s) (s.thread p).epc) s

/-! ### System registers (02 Table 02-9, R62-R64) -/

/-- The traffic counters of the cluster a place lies on. -/
def State.trafficOf (s : State) (p : Place) : Option Traffic := p.cluster?.map fun cl => (s.cluster cl).ctr

/-- 64 bits of a 256-bit register. -/
def quarter (v : BitVec 256) (i : Nat) : Word := BitVec.ofNat 64 (v.toNat / 2 ^ (64 * i))

/-- The value of a system register for the thread at p; none where the manual gives the thread no copy
of it (log 15). -/
def sysVal (p : Place) (r : SysReg) (s : State) : Option Word :=
  let t := s.thread p
  match r with
  | .fmode => some t.fmode
  | .fflags => some (t.fflags.setWidth 64)
  | .nbv => some t.nbv
  | .chksb =>
    (match p with
     | .lane cl e sl _ => (s.wave? cl e sl).map fun w => ofN (b2n w.chksb)
     | .ctx _ _ _ => none
     | .lctx _ _ _ => none)
  | .guardst => some t.guardst
  | .mgrec => some (if p.engine = .landing then 0 else t.mgrec)
  | .dqbase =>
    (match p with
     | .ctx cl c _ => some (s.core (.scalar cl c)).dqBase
     | .lane _ _ _ _ => none
     | .lctx _ _ _ => some 0)
  | .dqlim =>
    (match p with
     | .ctx cl c _ => some (s.core (.scalar cl c)).dqLim
     | .lane _ _ _ _ => none
     | .lctx _ _ _ => some 0)
  | .gtimeout => (s.shareOf? p).map fun sh => ofN (sh.gtimeout % 2 ^ 32)
  | .rank => some (ofN t.rank)
  | .nranks => some (ofN (s.nranks t.gang))
  | .cluster => some (ofN (s.clusterNum p))
  | .core => some (ofN p.coreNum)
  | .context => some (ofN p.ctxNum)
  | .lane => some (ofN p.laneNum)
  | .engine => some (ofN p.engine.num)
  | .gangid => some (ofN t.gang)
  | .trrdown => (s.trafficOf p).map (·.rdOwn)
  | .trrdoth => (s.trafficOf p).map (·.rdOth)
  | .trwrown => (s.trafficOf p).map (·.wrOwn)
  | .trwroth => (s.trafficOf p).map (·.wrOth)
  | .trlhit => (s.trafficOf p).map (·.lhit)
  | .trlink0 => (s.trafficOf p).map (·.link0)
  | .trlink1 => (s.trafficOf p).map (·.link1)
  | .trcsav => (s.trafficOf p).map (·.csav)
  | .featcap0 => some (quarter s.pkg.fuses.featcap 0)
  | .featcap1 => some (quarter s.pkg.fuses.featcap 1)
  | .featcap2 => some (quarter s.pkg.fuses.featcap 2)
  | .featcap3 => some (quarter s.pkg.fuses.featcap 3)
  | .featack0 => some (quarter s.pkg.featAck 0)
  | .featack1 => some (quarter s.pkg.featAck 1)
  | .featack2 => some (quarter s.pkg.featAck 2)
  | .featack3 => some (quarter s.pkg.featAck 3)
  | .status => some t.status
  | .cause => some t.cause
  | .epc => some t.epc
  | .eval => some t.eval
  | .eguard => some t.eguard
  | .tvec => some (s.tvecOf p)
  | .escr => some t.escr

/-- The bits of a system register that are not reserved, where a thread without a copy reads it (00 R12;
02 R63, Table 02-10; 08 Table 08-1). -/
def fieldMask (r : SysReg) : Word :=
  match r with
  | .chksb => 1
  | .gtimeout => 0xFFFFFFFF
  | _ => -1

/-- SYSR (R360). A register of which the thread has no copy reads as a free value (log 15). -/
def execSysr (d : Reg) (r : SysReg) (s : State) : Host.Outcome State Fault Refusal :=
  issueWord (.sysr d r) (fun _ p s =>
    match sysVal p r s with
    | some v => .ok (setX p 0 d v s)
    | none => let f := freshWord s; .ok (setX p 0 d (f.1 &&& fieldMask r) f.2)) s

/-- The value of FMODE written (06 Table 06-3). -/
def fmodeOf (v : Word) : Word := v &&& 15

/-- Whether a value may be written to NBV (06 R146). -/
def nbvOk (s : State) (v : Word) : Bool :=
  wbits v 1 0 == 2 || (wbits v 1 0 == 1 && s.pkg.featAck.getLsbD 0)

/-- A SYSW of the thread at p (02 R63, R64; 06 R144-R146; 14 R323); `first` says whether p is the
lowest active lane, whose value CHKSB takes (02 R60). Active lanes that write one share register write it in
ascending lane order, so that the highest lane's value stays, for which the manual gives no order. DESIGN
CHOICE (log 76). -/
def sysPut (p : Place) (first : Bool) (r : SysReg) (v : Word) (s : State) : State :=
  let mod := fun (f : Thread → Thread) => s.modThread p f
  match r with
  | .fmode => mod fun t => { t with fmode := fmodeOf v }
  | .fflags => mod fun t => { t with fflags := v.setWidth 5 }
  | .nbv => if nbvOk s v then mod fun t => { t with nbv := ofN (wbits v 1 0) } else s
  | .chksb =>
    (match p with
     | .lane cl e sl _ => if first then s.modWave cl e sl fun w => { w with chksb := wbit v 0 } else s
     | .ctx _ _ _ => s
     | .lctx _ _ _ => s)
  | .mgrec => if p.engine = .landing then s else mod fun t => { t with mgrec := v }
  | .dqbase =>
    (match p with
     | .ctx cl c _ => s.modCore (.scalar cl c) fun k => { k with dqBase := v, top := 0, bot := 0 }
     | .lane _ _ _ _ => s
     | .lctx _ _ _ => s)
  | .dqlim =>
    (match p with
     | .ctx cl c _ => s.modCore (.scalar cl c) fun k => { k with dqLim := v, top := 0, bot := 0 }
     | .lane _ _ _ _ => s
     | .lctx _ _ _ => s)
  | .gtimeout => s.modShare (s.thread p).gang (s.thread p).rank fun sh => { sh with gtimeout := wbits v 31 0 }
  | .status => mod fun t => { t with mode := wbit v 0, pmode := wbit v 1 }
  | .cause => mod fun t => { t with cause := v }
  | .epc => mod fun t => { t with epc := v }
  | .eval => mod fun t => { t with eval := v }
  | .eguard => mod fun t => { t with eguard := v &&& 31 }
  | .tvec => s.modShare (s.thread p).gang (s.thread p).rank fun sh => { sh with tvec := v }
  | .escr => mod fun t => { t with escr := v }
  | .guardst => s
  | .rank => s
  | .nranks => s
  | .cluster => s
  | .core => s
  | .context => s
  | .lane => s
  | .engine => s
  | .gangid => s
  | .trrdown => s
  | .trrdoth => s
  | .trwrown => s
  | .trwroth => s
  | .trlhit => s
  | .trlink0 => s
  | .trlink1 => s
  | .trcsav => s
  | .featcap0 => s
  | .featcap1 => s
  | .featcap2 => s
  | .featcap3 => s
  | .featack0 => s
  | .featack1 => s
  | .featack2 => s
  | .featack3 => s

/-- SYSW (R360). -/
def execSysw (r : SysReg) (a : Reg) (s : State) : Host.Outcome State Fault Refusal :=
  issueWord (.sysw r a) (fun c p s => .ok (sysPut p (c.act.head? == some p) r (getX p a s) s)) s

/-! ### YIELD and PGINV (15 R361, R362) -/

/-- The other contexts of a place's core, or waves of its engine, that are ready. -/
def othersReady (p : Place) (s : State) : List Nat :=
  match p with
  | .ctx cl c k => (List.range 4).filter fun j => j != k && ctxReady s (.ctx cl c j)
  | .lctx l c k => (List.range 4).filter fun j => j != k && ctxReady s (.lctx l c j)
  | .lane cl e sl _ => (List.range 16).filter fun j => j != sl && waveReady s cl e j

/-- YIELD (R361). -/
def execYield (s : State) : Host.Outcome State Fault Refusal :=
  issueWord .yield (fun c p s =>
    let others := othersReady p c.pre
    match p with
    | .lane cl e sl _ => .ok (s.modWave cl e sl fun w => { w with yieldUntil := s.clk + 8, yieldFor := others })
    | .ctx _ _ _ => .ok (s.modThread p fun t => { t with yieldUntil := s.clk + 8, yieldFor := others })
    | .lctx _ _ _ => .ok (s.modThread p fun t => { t with yieldUntil := s.clk + 8, yieldFor := others })) s

/-- Whether a byte range meets the range of a PGINV selector (15 R362). -/
def inRange (sel : Word) (lo n : Nat) : Bool :=
  match wbits sel 1 0 with
  | 3 => true
  | k =>
    let size := 2 ^ (16 + 10 * k)
    let a := (ofI (sext (wbits sel 55 16 * 2 ^ 16) 56)).toNat / size * size
    decide (lo < a + size) && decide (a < lo + n)

/-- A cached translation's range meets a selector's. -/
def Tlb.inSel (e : Tlb) (sel : Word) : Bool :=
  inRange sel (e.va * 2 ^ (16 + 10 * e.up)) (2 ^ (16 + 10 * e.up))

/-- Lines of any gang outside a selector's range. -/
def keepLines (sel : Word) (ls : List Line) : List Line := ls.filter fun l => !inRange sel (l.tag * 128) 128

/-- Whether a cached translation carries an access of a gang: its page, of whatever size, holds the address. -/
def Tlb.carries (e : Tlb) (gang : Nat) (va : Word) : Bool :=
  e.gang == gang && decide (e.va = va.toNat / 2 ^ (16 + 10 * e.up))

/-- Every cached translation that a selector's range meets is discarded, and every access under way is performed at its
home that lies in the range or that one of them carries, be it outside the range (15 R362). -/
def settleRange (sel : Word) (s : State) : State :=
  let gone := s.tlb.filter (·.inSel sel)
  let past := fun (gang : Nat) (va : Word) (n : Nat) => inRange sel va.toNat n || gone.any (·.carries gang va)
  let s := { s with tlb := s.tlb.filter fun e => !e.inSel sel }
  let s := s.places.foldl (fun s p =>
    ((s.thread p).loads.filter fun a => past (s.thread p).gang a.va a.size).foldl
      (fun s a => performAccess p a (performOlder p a s)) s) s
  drain (fun e => past e.gang e.va e.size) (fun _ => 3) s

/-- PGINV (R362). -/
def execPginv (a : Reg) (s : State) : Host.Outcome State Fault Refusal :=
  issueWord (.pginv a) (fun _ p s =>
    let sel := getX p a s
    releaseThen p .sys true s fun s =>
      let s := settleRange sel s
      let s := { s with clusters := s.clusters.map fun e =>
        (e.1, { e.2 with l1 := keepLines sel e.2.l1, ic := keepLines sel e.2.ic }) }
      .ok (acquire p .sys s)) s

/-! ### EXIT (16 R363-R365) -/

/-- The thread's reply, if it holds a target: whether it has left (08 R188). -/
def sendReply (p : Place) (v : Word) (s : State) : Bool × State :=
  match (s.thread p).reply, p.cluster? with
  | some r, some cl =>
    let s := releaseStores p .cl true s
    if mayEnqueue p s then
      (true, post p (some (s.thread p).rank) (.rput (.ctx cl r.core r.ctx) r.idx v) true s)
    else (false, s)
  | _, _ => (true, s)

/-- The end of a thread: a context is retired, a lane is gone, a lent context returns (16 R364, R365). -/
def endThread (p : Place) (s : State) : State :=
  match p with
  | .ctx _ _ _ => s.modThread p fun t =>
      { t with run := .retired, reply := none, ending := none, fetch := [], qpres := 0, qout := 0, qgot := 0 }
  | .lane _ _ _ _ => laneGone p s
  | .lctx _ _ _ =>
    { s.modThread p fun t => { t with gang := 0, rank := 0, run := .idle, reply := none, ending := none, fetch := [] }
      with lent := s.lent.filter (·.1 != p.key) }

/-- What an ending thread still waits for: pushes, the counts of its streams, replies, room for its own
(16 R363; 08 R188, R189). -/
def drainStep (p : Place) (s : State) : Res :=
  let s := closeStreams p s
  let t := s.thread p
  if t.streaming || t.qout &&& ~~~t.qgot != 0 then .wait s .draining
  else
    let r := sendReply p (t.ending.getD 0) s
    if r.1 then .left (endThread p r.2) else .wait r.2 .sending

/-- EXIT (R363). -/
def execExit (a : Reg) (s : State) : Host.Outcome State Fault Refusal :=
  issueWord (.exit a) (fun _ p s =>
    match waitOf p s with
    | some .draining => drainStep p s
    | some .sending => drainStep p s
    | _ =>
      let v := getX p a s
      drainStep p ((forceLoads p s).modThread p fun t => { t.landAll with ending := some v })) s

end Sys2Proof.Machine
end

