-- ==== Sys2Proof/Machine/WaveOps.lean ====
section
/-!
DEFINITION. The WAVE class: cross-lane words, on a scalar core a wave of one lane (02 R52; 07 R171-R181).
-/

namespace Sys2Proof.Machine

/-! ### Lanes -/

/-- The present lanes of a place's wave; a scalar thread is its own lane 0 (07 R181). -/
def State.presentWith (s : State) (p : Place) : List Place :=
  match p with
  | .lane cl e sl _ => s.lanes cl e sl
  | .ctx _ _ _ => [p]
  | .lctx _ _ _ => [p]

/-- The lowest-numbered active lane. -/
def Ctx.lead (c : Ctx) (p : Place) : Thread := c.pre.thread (c.act.headD p)

/-- An active lane's place by number. -/
def Ctx.at? (c : Ctx) (j : Nat) : Option Place := c.act.find? (·.laneNum == j)

/-! ### VSHFL (07 R172) -/

/-- VSHFL (R172). -/
def execVshfl (m : Shfl) (keep fp : Bool) (k : Fin 4) (d a b : Reg) (s : State) :
    Host.Outcome State Fault Refusal :=
  issueWord (.vshfl m keep fp k d a b) (fun c p s =>
    let srcs := if fp then [a] else []
    withF p srcs (if fp then [d] else []) s fun _ pop s =>
      let j := shflLane m p.laneNum (getX p b c.pre)
      let val := fun (q : Place) =>
        let t := c.pre.settled q
        if fp then (t.fval a).setWidth 64 else t.getX a
      let src := (c.pre.presentWith p).find? fun q => decide (j = (q.laneNum : Int))
      let v := match src with
        | some q => val q
        | none => if keep then val p else 0
      let s := pop s
      let s := if fp then putF p 4 d (v.setWidth 32) s else setX p 4 d v s
      .ok (if k.val = 0 then s else setPred p 4 k.val src.isSome s)) s

/-! ### The reduction tree (07 R173, R174) -/

/-- The identity of a reduction (07 Table 07-5). -/
def redIdent : RedOp → Nat
  | .add => 0
  | .min => 2 ^ 63 - 1
  | .max => 2 ^ 63
  | .minu => 2 ^ 64 - 1
  | .maxu => 0
  | .and => 2 ^ 64 - 1
  | .or => 0
  | .xor => 0
  | .fadd => 0x80000000
  | .fmin => 0x7F800000
  | .fmax => 0xFF800000

/-- A combination of FMIN or FMAX: with the identity the other operand's value, a NaN as the canonical NaN; otherwise
that of 06 R151, which alone would give the identity for a NaN (07 R173, R174; log 91). -/
def redMinMax (mx ftz : Bool) (l r : Nat) : FRes :=
  let e := if mx then 0xFF800000 else 0x7F800000
  let a := unpack fp32 false l
  let b := unpack fp32 false r
  if (l == e && b.isNan) || (r == e && a.isNan) then (nanBits fp32, snv2 a b) else minmaxBits fp32 mx false ftz l r

/-- The combination of two values, with the flags it sets; DAZ has been applied to the leaves. -/
def redCombine (op : RedOp) (ftz : Bool) (l r : Nat) : FRes :=
  match op with
  | .add => ((l + r) % 2 ^ 64, 0)
  | .min => (if sext l 64 ≤ sext r 64 then l else r, 0)
  | .max => (if sext r 64 ≤ sext l 64 then l else r, 0)
  | .minu => (min l r, 0)
  | .maxu => (max l r, 0)
  | .and => (Nat.land l r, 0)
  | .or => (Nat.lor l r, 0)
  | .xor => (Nat.xor l r, 0)
  | .fadd => addFp fp32 .rne ftz false (unpack fp32 false l) (unpack fp32 false r)
  | .fmin => redMinMax false ftz l r
  | .fmax => redMinMax true ftz l r

/-- One level of the tree: neighbours combined, their flags joined to those so far. -/
def pairUp (f : Nat → Nat → FRes) : List Nat → Nat → List Nat × Nat
  | x :: y :: l, fl =>
    let r := f x y
    let t := pairUp f l (Nat.lor fl r.2)
    (r.1 :: t.1, t.2)
  | l, fl => (l, fl)

/-- n levels of the tree. -/
def treeUp (f : Nat → Nat → FRes) : Nat → List Nat → Nat → FRes
  | 0, l, fl => (l.headD 0, fl)
  | n + 1, l, fl =>
    let t := pairUp f l fl
    treeUp f n t.1 t.2

/-- The reduction of 64 leaves, in the order VER fixes (07 R174). -/
def reduce (f : Nat → Nat → FRes) (ver1 : Bool) (l : List Nat) : FRes :=
  if ver1 then
    match l with
    | [] => (0, 0)
    | x :: l => l.foldl (fun acc y =>
        let r := f acc.1 y
        (r.1, Nat.lor acc.2 r.2)) (x, 0)
  else treeUp f 6 l 0

/-- Leaf j of a reduction: an active lane's value, or the identity. -/
def leafOf (op : RedOp) (c : Ctx) (a : Reg) (daz : Bool) (use : Nat → Bool) (j : Nat) : Nat :=
  match (if use j then c.at? j else none) with
  | some q =>
    let t := c.pre.thread q
    if op.float then dazBits fp32 daz (t.fval a).toNat else (t.getX a).toNat
  | none => redIdent op

/-- The reduction of the lanes `use` allows, under the modes of the lowest active lane (07 R173). -/
def reduceLanes (op : RedOp) (c : Ctx) (p : Place) (a : Reg) (use : Nat → Bool) : FRes :=
  let t := c.lead p
  reduce (redCombine op t.ftz) t.ver1 ((List.range 64).map (leafOf op c a t.daz use))

/-- A reduction's result in register d of a lane, with its flags. -/
def putRed (op : RedOp) (p : Place) (d : Reg) (r : FRes) (s : State) : State :=
  if op.float then orFlags p r.2 (putF p 8 d (BitVec.ofNat 32 r.1) s) else setX p 8 d (ofN r.1) s

/-- VRED (R175). -/
def execVred (op : RedOp) (d a : Reg) (s : State) : Host.Outcome State Fault Refusal :=
  issueWord (.vred op d a) (fun c p s =>
    withF p (if op.float then [a] else []) (if op.float then [d] else []) s fun _ pop s =>
      .ok (putRed op p d (reduceLanes op c p a fun _ => true) (pop s))) s

/-- VSCAN (R176). -/
def execVscan (op : RedOp) (ex : Bool) (d a : Reg) (s : State) : Host.Outcome State Fault Refusal :=
  issueWord (.vscan op ex d a) (fun c p s =>
    withF p (if op.float then [a] else []) (if op.float then [d] else []) s fun _ pop s =>
      let i := p.laneNum
      .ok (putRed op p d
        (reduceLanes op c p a fun j => if ex then decide (j < i) else decide (j ≤ i)) (pop s))) s

/-! ### VBALL and VELECT (07 R177) -/

/-- VBALL (R177). -/
def execVball (d : Reg) (n : Pred) (s : State) : Host.Outcome State Fault Refusal :=
  issueWord (.vball d n) (fun c p s =>
    let v := c.act.foldl (fun v q => if getP q n c.pre then v + 2 ^ q.laneNum else v) 0
    .ok (setX p 4 d (ofN v) s)) s

/-- VELECT (R177). -/
def execVelect (d : Reg) (n : Pred) (s : State) : Host.Outcome State Fault Refusal :=
  issueWord (.velect d n) (fun c p s =>
    let e := (c.act.headD p).laneNum
    .ok (setPred p 4 n.val (p.laneNum == e) (setX p 4 d (ofN e) s))) s

/-! ### VQUANT: a block of a block-integer tensor (06 R133, R134; 07 R178) -/

/-- The magnitude a value counts with for the shared exponent; none for a NaN. -/
def quantMag (v : Nat) : Option Nat :=
  let m := v % 2 ^ 31
  if 0x7F800000 < m then none else if m = 0x7F800000 then some 0x7F7FFFFF else some m

/-- ⌊log₂⌋ + 127 of a nonzero magnitude. -/
def magExp (m : Nat) : Int :=
  if 2 ^ 23 ≤ m then (m / 2 ^ 23 : Nat) else (Nat.log2 m : Int) - 22

/-- The shared exponent of a block's values. -/
def quantExp (sg : Bool) (vs : List Nat) : Nat :=
  let m := (vs.filterMap quantMag).foldl max 0
  if m = 0 then 0 else (min (max (magExp m + b2n sg) 1) 255).toNat

/-- m × 2^x rounded to an integer: ties to even, or away from zero. -/
def roundMag (away : Bool) (m : Nat) (x : Int) : Nat :=
  if 0 ≤ x then m * 2 ^ x.toNat
  else
    let k := 2 ^ (-x).toNat
    let q := m / k
    let r := 2 * (m % k)
    if r < k then q else if k < r then q + 1 else if away then q + 1 else q + q % 2

/-- A value's element and the flags it sets. -/
def quantElem (w : Nat) (sg away : Bool) (e v : Nat) : Int × Nat :=
  let lo : Int := if sg then -2 ^ (w - 1) else 0
  let hi : Int := if sg then 2 ^ (w - 1) - 1 else 2 ^ w - 1
  match unpack fp32 false v with
  | .nan _ => (0, 16)
  | .inf s => (if s then lo else hi, 1)
  | .zero _ => (0, 0)
  | .fin s m x =>
    let y := x + 127 + (w - 1 : Nat) - e
    let u : Int := if s then -(roundMag away m y : Int) else roundMag away m y
    let q := min (max u lo) hi
    let exact : Int := if s then -(m : Int) else m
    (q, if (if 0 ≤ y then q = exact * 2 ^ y.toNat else q * 2 ^ (-y).toNat = exact) then 0 else 1)

/-- The f registers of a VQUANT's values, those that exist. -/
def quantRegs (p : Place) (a : Reg) (m : Nat) : List Reg :=
  ((List.range m).filter fun k => a.val + k < p.engine.nregs).map fun k => Fin.ofNat 32 (a.val + k)

/-- A lane's values: +0 past the last register. -/
def quantVals (p : Place) (t : Thread) (a : Reg) (m : Nat) : List Nat :=
  (List.range m).map fun k =>
    if a.val + k < p.engine.nregs then (t.fval (Fin.ofNat 32 (a.val + k))).toNat else 0

/-- VQUANT (R178); the code k stands for blocks of 2^(k+3). -/
def execVquant (d a b : Reg) (k : Fin 6) (s : State) : Host.Outcome State Fault Refusal :=
  issueWord (.vquant d a b k) (fun c p s =>
    let blk := 2 ^ (k.val + 3)
    let m := max 1 (blk / 64)
    withF p (quantRegs p a m) [] s fun _ pop s =>
      let par := (c.lead p).getX b
      let w := wbits par 3 0 + 1
      let sg := wbit par 4 && decide (1 < w)
      let mates := c.act.filter fun q => q.laneNum / min blk 64 == p.laneNum / min blk 64
      let e := quantExp sg (mates.flatMap fun q => quantVals q (c.pre.thread q) a m)
      let t := c.pre.thread p
      let rs := (quantVals p t a m).map fun v =>
        if e = 0 then (0, if (unpack fp32 false v).isNan then 16 else 0) else quantElem w sg t.ver1 e v
      let x := if m = 1 then ofI ((rs.headD (0, 0)).1)
        else ofN ((rs.mapIdx fun i r => lowBits r.1 16 * 2 ^ (16 * i)).foldl (· + ·) 0)
      let fl := rs.foldl (fun fl r => Nat.lor fl r.2) 0
      .ok (orFlags p fl (setXNext p 8 d (ofN e) (setX p 8 d x (pop s))))) s

/-! ### VDEQ and VENC (07 R179, R180) -/

/-- An integer × 2^k rounded to fp32, RNE. -/
def deqBits (ftz : Bool) (v k : Int) : FRes :=
  if v = 0 then (0, 0) else roundFmt fp32 .rne ftz (decide (v < 0)) v.natAbs k false

/-- VDEQ (R179). -/
def execVdeq (d a b : Reg) (s : State) : Host.Outcome State Fault Refusal :=
  issueWord (.vdeq d a b) (fun _ p s =>
    withF p [] [d] s fun _ _ s =>
      let r := deqBits (s.thread p).ftz (sext (getX p a s).toNat 64) (sext (wbits (getX p b s) 8 0) 9)
      .ok (orFlags p r.2 (putF p 6 d (BitVec.ofNat 32 r.1) s))) s

/-- VENC (R180); w is the width less 1. -/
def execVenc (d a : Reg) (w : Fin 16) (s : State) : Host.Outcome State Fault Refusal :=
  issueWord (.venc d a w) (fun c p s =>
    let n := w.val + 1
    let v := c.act.foldl (fun v q => v + (getX q a c.pre).toNat % 2 ^ n * 2 ^ (q.laneNum * n)) 0
    .ok (setX p 6 d (ofN (v / 2 ^ (64 * p.laneNum))) s)) s

end Sys2Proof.Machine
end

