-- ==== Sys2Proof/Machine/HostEv.lean ====
section
/-!
DEFINITION. The host link: the message window, the record window, the BAR0 registers and the host receive
queue (03 R65-R71; 15 R357; 17 R372, R381).
-/

namespace Sys2Proof.Machine

/-! ### Stores and reads that reach the home directly (09 R200, R205) -/

/-- The bytes of one line rewritten at its home for a requester that invalidates every copy: what the home
has ordered before is performed first (09 R205, R207). A fenced die's home is out of reach. -/
def lineStore (pa : Nat) (bs : List Byte) (s : State) : State :=
  let line := pa / 128
  if s.pkg.fenced.contains (s.homeDie pa) then s
  else
    homeWrite pa bs.length (leNat bs) (claimLine line s)

/-- Bytes stored from a physical address, line by line; the first number bounds the lines. -/
def directStore : Nat → Nat → List Byte → State → State
  | 0, _, _, s => s
  | n + 1, pa, bs, s =>
    if bs.isEmpty then s
    else
      let k := 128 - pa % 128
      directStore n (pa + k) (bs.drop k) (lineStore pa (bs.take k) s)

/-- Bytes stored by an agent that goes straight to the home: the host, Novilo, the dispatcher. -/
def storeBytes (pa : Nat) (bs : List Byte) (s : State) : State := directStore (bs.length + 1) pa bs s

/-- n bytes from a physical address as their homes hold them, read line by line. -/
def homeRead (pa n : Nat) (s : State) : List Byte × State :=
  let lines := (List.range ((pa % 128 + n + 127) / 128)).map (· + pa / 128)
  let s := if n = 0 then s else lines.foldl (fun s l => (homeServe l (settleLine l s)).2.2) s
  (Memory.readBytes s.dram pa n, s)

/-! ### Refusal records and the receive queue (03 R68-R70) -/

/-- A message of the device to the host, carried by the mesh. CHAN and FMT are sent as 0, and TAG as the
caller gives it, 0 in refusal records and completion messages: the manual gives these messages no other
fields than KIND, COUNT, SRCID and the payload. DESIGN CHOICE (log 72). -/
def hostSend (kind tag : Nat) (pay : List Word) (s : State) : State :=
  meshSend { gang := 0, src := none, rank := none,
             cargo := .msg { hdr := withSrc (hostHeader kind pay.length tag) hostSrc, pay := pay } } s

/-- Whether a header asks for a gang launch (03 R79). -/
def isLaunch (h : Word) : Bool :=
  hAgent h == 2 && hKind h == 3 && hChan h == 1 && hCount h == 2

/-- The 128 bytes from where a launch message says its descriptor lies. -/
def descBytes (m : Msg) (s : State) : List Byte × State := homeRead (recWord m.pay 0).toNat 128 s

/-- The COOKIE in a descriptor's bytes; a free value where the message names no DRAM (log 23). -/
def cookieOf (m : Msg) (desc : List Byte) (s : State) : Word × State :=
  if s.inDram ((recWord m.pay 0).toNat + 0x58) then (ofN (leNat ((desc.drop 0x58).take 8)), s) else freshWord s

/-- The refusal record of a message (03 R70). -/
def refuse (code : Nat) (m : Msg) (desc : List Byte) (s : State) : State :=
  if isLaunch m.hdr then
    let c := cookieOf m desc s
    hostSend 3 0 [ofN code, c.1] c.2
  else hostSend 3 0 [ofN code, m.hdr] s

/-- Whether the host receive queue is full (03 R69). -/
def State.hrqFull (s : State) : Bool := (s.pkg.hrqTail + 1) % 8192 == s.pkg.hrqHead

/-- A message at the end of the host receive queue (03 R69). -/
def hrqPut (m : Msg) (s : State) : State :=
  { s with pkg := { s.pkg with hrq := FMap.put s.pkg.hrq s.pkg.hrqTail m
                               hrqTail := (s.pkg.hrqTail + 1) % 8192 } }

/-! ### The window (03 R67, R68) -/

/-- One more window message discarded. -/
def countHmw (s : State) : State := { s with pkg := { s.pkg with hmwErr := s.pkg.hmwErr + 1 } }

/-- A discarded window message: counted, and a refusal record (03 R68). -/
def refuseWindow (code : Nat) (m : Msg) (s : State) : State :=
  let d := if isLaunch m.hdr then descBytes m s else ([], s)
  refuse code m d.1 (countHmw d.2)

/-- Whether a share is one of a gang released on its die, with its holdings there: not saved, though it may
have been stopped to be saved (03 R73, R81). -/
def State.releasedShare (s : State) (sh : Share) : Bool :=
  match s.gang? sh.gang with
  | some g => g.released.contains (sh.cl / 48) && sh.saved.isNone
  | none => false

/-- Whether context k of a landing core, or for 4 any of its contexts, is lent to a released gang. -/
def lentLive (l c k : Nat) (s : State) : Bool :=
  s.lent.any fun e =>
    (if k = 4 then (List.range 4).any fun j => e.1 == Place.key (.lctx l c j)
     else e.1 == Place.key (.lctx l c k)) &&
    (match s.share? e.2.1 e.2.2 with
     | some sh => s.releasedShare sh
     | none => false)

/-- Whether the host may address a header's destination (03 R73). -/
def hostMaySend (h : Word) (s : State) : Bool :=
  match hAgent h with
  | 2 => true
  | 3 => false
  | _ =>
    match hDest h with
    | some (.scalar cl c) =>
      (match s.shareOfCore? cl c with
       | some sh => s.releasedShare sh && (hCtx h == 4 || sh.holdsCtx c (hCtx h))
       | none => false)
    | some (.landing l c) => lentLive l c (hCtx h) s
    | none => false

/-- A message of 64 bytes taken from the submission area: checked for FEATLOCK, header and destination,
then buffered (03 R67, R68). -/
def takeWindow (ws : List Word) (s : State) : State :=
  let m := mkMsg (recWord ws 0) hostSrc (ws.drop 1)
  if !s.pkg.featLock then refuseWindow 3 m s
  else if badHeader (recWord ws 0) then refuseWindow 1 m s
  else if !hostMaySend m.hdr s then refuseWindow 2 m s
  else { s with pkg := { s.pkg with window := s.pkg.window ++ [m] } }

/-- HOST_WINDOW_MESSAGE: a write of eight doublewords to an offset of BAR2. One that is no aligned 64-byte
write to the submission area is a bad write there and nothing beyond it; while 256 messages are buffered
it waits on the link (R67; Table 03-3). -/
def execHostWindowMessage (off : Nat) (data : List Word) (s : State) : Host.Outcome State Fault Refusal :=
  .next <|
    if 0x40000 ≤ off then s
    else if off % 64 ≠ 0 ∨ data.length ≠ 8 then countHmw s
    else if 256 ≤ s.pkg.window.length then s
    else takeWindow data s

/-- SUBMISSION_AREA_BAD_WRITE: any other write to the area is discarded and counted (R67). -/
def execSubmissionAreaBadWrite (off len : Nat) (s : State) : Host.Outcome State Fault Refusal :=
  .next <|
    if 0x40000 ≤ off ∨ len = 0 ∨ (off % 64 = 0 ∧ len = 64) then s else countHmw s

/-- The room of a core's inbound buffer for a channel: 14 entries, and two more for channel 14
(03 R76). -/
def inboxRoom (k : Core) (chan : Nat) : Bool :=
  if chan = 14 then decide (k.inbox.length < 16)
  else decide ((k.inbox.filter fun m => hChan m.hdr != 14).length < 14 ∧ k.inbox.length < 16)

/-- A channel-14 message is discarded on a core that is no pager core unless it carries a hardware
operation, and on every landing core (15 R346). -/
def discarded (c : CoreId) (h : Word) (s : State) : Bool :=
  hChan h == 14 &&
  (match c with
   | .scalar _ _ => !s.pagerCore c && hTag h != 1 && hTag h != 2
   | .landing _ _ => true)

/-- Whether the path to a core accepts a message on a channel now. -/
def pathOpen (c : CoreId) (chan : Nat) (s : State) : Bool := inboxRoom (s.core c) chan

/-- The state with a message at the end of a core's inbound buffer, unless it is discarded there. -/
def inboxPut (c : CoreId) (m : Msg) (s : State) : State :=
  if discarded c m.hdr s then s else s.modCore c fun k => { k with inbox := k.inbox ++ [m] }

/-- Messages the dispatcher's inbound buffer holds (03 R67, R89; log 22). -/
def dispRoom (s : State) : Bool := decide (s.disp.inbox.length < 16)

/-- A message into the dispatcher's inbound buffer: its descriptor is read, and messages of one clk stand in
the order of R89; one from the firmware is as a window launch (R83). -/
def dispPut (m : Msg) (key : Nat) (s : State) : State :=
  let d := if isLaunch m.hdr then descBytes m s else ([], s)
  let x : Launch := { msg := m, desc := d.1, clk := s.clk, key := key }
  let late := fun (y : Launch) => y.clk == s.clk && decide (key < y.key)
  let s := d.2
  { s with disp := { s.disp with
    inbox := s.disp.inbox.filter (fun y => !late y) ++ [x] ++ s.disp.inbox.filter late } }

/-- The window's oldest message leaves its buffer. -/
def windowTaken (s : State) : State :=
  { s with pkg := { s.pkg with window := s.pkg.window.tail, windowNext := s.clk + 1 } }

/-- WINDOW_PASS_MESSAGE: the oldest buffered message passes once its destination accepts it, at most one
in a clk; one whose destination is gone by then is refused (R67, R68). -/
def execWindowPassMessage (s : State) : Host.Outcome State Fault Refusal :=
  .next <|
    match s.pkg.window with
    | [] => s
    | m :: _ =>
      if s.clk < s.pkg.windowNext then s
      else if !hostMaySend m.hdr s then refuseWindow 2 m (windowTaken s)
      else match hDest m.hdr with
        | none =>
          if dispRoom s then dispPut m 0 (windowTaken s) else s
        | some c =>
          if discarded c m.hdr s || pathOpen c (hChan m.hdr) s then inboxPut c m (windowTaken s) else s

/-! ### The record window (03 R66) -/

/-- BAR4_WRITE: the host's bytes, performed at their homes. -/
def execBar4Write (off : Nat) (data : List Byte) (s : State) : Host.Outcome State Fault Refusal :=
  .next <|
    if off + data.length ≤ 0x4000000 then storeBytes (s.pkg.eopra.recordBase + off) data s else s

/-- BAR4_READ: the bytes as the homes hold them. -/
def execBar4Read (off len : Nat) (s : State) : Host.Outcome State Fault Refusal :=
  .next <|
    if off + len ≤ 0x4000000 then
      let r := homeRead (s.pkg.eopra.recordBase + off) len s
      { r.2 with pkg := { r.2.pkg with hostRead := r.1 } }
    else s

/-! ### BAR2 as the host reads it (03 Table 03-3) -/

/-- A doubleword of BAR2 as the host reads it: 0 in the submission area and the reserved part, and in the
receive queue word 0 of an entry is its message's header and words 1 to 7 its payload; what an entry holds
beyond its message is free (R66, R67, R69; log 73). An unaligned offset reads 0. DESIGN CHOICE (log 87). -/
def bar2Read (off : Nat) (s : State) : Word :=
  if off % 8 ≠ 0 || off < 0x80000 || 0x100000 ≤ off then 0
  else
    let e := (off - 0x80000) / 64
    let i := off % 64 / 8
    match FMap.get? s.pkg.hrq e with
    | none => Config.queueWord (e * 8 + i)
    | some m =>
      if i = 0 then m.hdr
      else match m.pay[i - 1]? with
        | some w => w
        | none => Config.queueWord (e * 8 + i)

/-! ### BAR0 registers (03 Table 03-2; 15 R357; 17 Table 17-3) -/

/-- 256 bits with doubleword i replaced. -/
def setQuarter (v : BitVec 256) (i : Nat) (w : Word) : BitVec 256 :=
  BitVec.ofNat 256 (setField v.toNat (64 * i) 64 w.toNat)

/-- FEATACK's doubleword i written: the value AND FEATCAP, unless locked (R71). -/
def writeFeatack (i : Nat) (v : Word) (s : State) : State :=
  if s.pkg.featLock then s
  else { s with pkg := { s.pkg with
    featAck := setQuarter s.pkg.featAck i (v &&& quarter s.pkg.fuses.featcap i) } }

/-- FEATACK_WRITE. -/
def execFeatackWrite (i : Fin 4) (v : Word) (s : State) : Host.Outcome State Fault Refusal :=
  .next (writeFeatack i.val v s)

/-- FEATLOCK written: bit 0, unless it is set already; it stays 0 in *recovery* (R71; 17 R378). -/
def writeFeatlock (v : Word) (s : State) : State :=
  if s.pkg.featLock || s.pkg.boot == .recovery then s
  else { s with pkg := { s.pkg with featLock := wbit v 0 } }

/-- FEATLOCK_WRITE. -/
def execFeatlockWrite (v : Word) (s : State) : Host.Outcome State Fault Refusal := .next (writeFeatlock v s)

/-- HRQHEAD written: it moves to an entry from the old HRQHEAD to HRQTAIL (R69). -/
def writeHrqhead (v : Word) (s : State) : State :=
  let n := v.toNat
  let h := s.pkg.hrqHead
  if n < 8192 ∧ (n + 8192 - h) % 8192 ≤ (s.pkg.hrqTail + 8192 - h) % 8192 then
    { s with pkg := { s.pkg with hrqHead := n } }
  else s

/-- HRQHEAD_WRITE. -/
def execHrqheadWrite (v : Word) (s : State) : Host.Outcome State Fault Refusal := .next (writeHrqhead v s)

/-- PWRCAP written: at most the fused limit (17 R372). -/
def writePwrcap (v : Word) (s : State) : State :=
  { s with pkg := { s.pkg with pwrCap := ofN (min v.toNat s.pkg.fuses.power) } }

/-- PWRCAP_WRITE. -/
def execPwrcapWrite (v : Word) (s : State) : Host.Outcome State Fault Refusal := .next (writePwrcap v s)

/-- LINKSTAT written: a 1 asks the restore of a failed link (17 R381). -/
def writeLinkstat (v : Word) (s : State) : State :=
  { s with pkg := { s.pkg with
    linkAsk := s.pkg.linkAsk.mapIdx fun i a => a || (wbit v i && (s.pkg.linkFail[i]?).getD false) } }

/-- LINKSTAT_WRITE. -/
def execLinkstatWrite (v : Word) (s : State) : Host.Outcome State Fault Refusal := .next (writeLinkstat v s)

/-- The state with a die's error log changed. -/
def modLog (die : Nat) (f : ErrLog → ErrLog) (s : State) : State :=
  { s with pkg := { s.pkg with logs := s.pkg.logs.modify die f } }

/-- LOGTAIL written: bit 63 clears OVF (15 R357). -/
def writeLogtail (die : Nat) (v : Word) (s : State) : State :=
  if wbit v 63 then modLog die (fun l => { l with ovf := false }) s else s

/-- LOGTAIL_OVF_CLEAR. -/
def execLogtailOvfClear (die : Fin 4) (v : Word) (s : State) : Host.Outcome State Fault Refusal :=
  .next (writeLogtail die.val v s)

/-- Sixteen routes of NVROUTE written by one doubleword, from peer p (17 Table 17-3). -/
def writeRoutes (p : Nat) (v : Word) (s : State) : State :=
  { s with pkg := { s.pkg with
    nvRoute := s.pkg.nvRoute.mapIdx fun i r =>
      if p ≤ i ∧ i < p + 16 then wbits v (4 * (i - p) + 3) (4 * (i - p)) else r } }

/-- A doubleword written to an aligned offset of BAR0: each register takes it by its access code; a
register that is read only ignores it (00 R11, R12). At an offset that is no multiple of 8, or that no table lists, the
write has no effect and a read gives 0. DESIGN CHOICE (log 87). -/
def bar0Write (off : Nat) (v : Word) (s : State) : State :=
  if off % 8 ≠ 0 then s
  else if 0x20 ≤ off ∧ off < 0x40 then writeFeatack ((off - 0x20) / 8) v s
  else if off = 0x40 then writeFeatlock v s
  else if off = 0x50 then writeHrqhead v s
  else if off = 0x1008 then writePwrcap v s
  else if off = 0x1028 then writeLinkstat v s
  else if 0x1030 ≤ off ∧ off < 0x10B0 then writeRoutes ((off - 0x1030) * 2) v s
  else if 0x3000 ≤ off ∧ off < 0x3040 then
    if off % 16 = 0 then modLog ((off - 0x3000) / 16) (fun l => { l with head := v }) s
    else writeLogtail ((off - 0x3000) / 16) v s
  else s

/-- REGISTER_WRITE. -/
def execRegisterWrite (off : Nat) (v : Word) (s : State) : Host.Outcome State Fault Refusal :=
  .next (bar0Write off v s)

/-- The error counter of a unit (15 R355). -/
def State.errCount (s : State) (u : Nat) : Word := FMap.getD s.pkg.errCnt u 0

/-- A doubleword of BAR0 as the host reads it (00 R11; 03 Table 03-2; 15 R355, R357; 17 Table 17-3); 0 at an offset that is
no multiple of 8, or that no table lists. DESIGN CHOICE (log 87). -/
def bar0Read (off : Nat) (s : State) : Word :=
  let p := s.pkg
  if off % 8 ≠ 0 then 0
  else if off < 0x20 then quarter p.fuses.featcap (off / 8)
  else if off < 0x40 then quarter p.featAck (off / 8 - 4)
  else if off = 0x40 then ofN (b2n p.featLock)
  else if off = 0x48 then p.hmwErr
  else if off = 0x50 then ofN p.hrqHead
  else if off = 0x58 then ofN p.hrqTail
  else if off = 0x1000 then ofN p.bootstat
  else if off = 0x1008 then p.pwrCap
  else if off = 0x1010 then p.pwrNow
  else if off = 0x1018 then p.tempMax
  else if off = 0x1020 then p.tripCnt
  else if off = 0x1028 then ofN ((List.range 4).foldl (fun m i => m + b2n ((p.linkFail[i]?).getD false) * 2 ^ i) 0)
  else if 0x1030 ≤ off ∧ off < 0x10B0 then
    let q := (off - 0x1030) * 2
    ofN ((List.range 16).foldl (fun m i => m + ((p.nvRoute[q + i]?).getD 0) * 16 ^ i) 0)
  else if off = 0x10B0 then p.eopra.nvPeers
  else if 0x2000 ≤ off ∧ off < 0x3000 then
    let o := off - 0x2000
    match p.logs[o / 0x400]? with
    | some l =>
      let r := FMap.getD l.recs (o % 0x400 / 16) { w0 := 0, w1 := 0 }
      if o % 16 = 0 then r.w0 else r.w1
    | none => 0
  else if 0x3000 ≤ off ∧ off < 0x3040 then
    match p.logs[(off - 0x3000) / 16]? with
    | some l => if off % 16 = 0 then l.head else ofN (l.tail % 2 ^ 63 + b2n l.ovf * 2 ^ 63)
    | none => 0
  else if 0x8000 ≤ off ∧ off < 0x8000 + 8 * 3844 then s.errCount ((off - 0x8000) / 8)
  else 0

end Sys2Proof.Machine
end

