-- ==== Sys2Proof/Machine/Placer.lean ====
section
/-!
DEFINITION. How work is placed: the dispatcher's queues, the fit test, rectangles, passes, back-fill,
ageing and reservations, and the holdings of a placed share (04 R89-R97, R392).
-/

namespace Sys2Proof.Machine

/-! ### What a cluster has free (04 Table 04-1, R392) -/

/-- The shares that hold resources of a cluster. -/
def State.holders (s : State) (cl : Nat) : List Share :=
  (FMap.vals s.shares).filter fun sh => sh.cl == cl && s.holds sh

/-- The numbers below n that a list does not hold. -/
def freeBelow (n : Nat) (used : List Nat) : List Nat := (List.range n).filter fun i => !used.contains i

/-- The user cores of a cluster (01 R17). -/
def State.userCores (s : State) (cl : Nat) : List Nat :=
  (List.range 32).filter fun c => !s.supervisorCore (.scalar cl c)

/-- The free user cores of a cluster. -/
def State.freeCores (s : State) (cl : Nat) : List Nat :=
  (s.userCores cl).filter fun c => !((s.holders cl).any fun sh => sh.cores.contains c)

/-- The free wave slots of a wide engine. -/
def State.freeWaveSlots (s : State) (cl e : Nat) : List Nat :=
  (List.range 16).filter fun sl => !((s.holders cl).any fun sh => sh.slots.contains (e, sl))

/-- The lowest multiple of 4 KiB from which n bytes of scratchpad are free. -/
def State.freeSpad (s : State) (cl n : Nat) : Option Nat :=
  ((List.range 512).map (· * 4096)).find? fun a =>
    decide (a + n ≤ 0x200000) &&
    (s.holders cl).all fun sh => decide (a + n ≤ sh.spadBase) || decide (sh.spadBase + sh.spadSize ≤ a) ||
      n == 0 || sh.spadSize == 0

/-- The free timelines of a cluster. -/
def State.freeTls (s : State) (cl : Nat) : List Nat :=
  freeBelow 64 ((s.holders cl).flatMap fun sh => sh.tls.map (·.phys))

/-- The free barrier ids of a cluster's barrier node. -/
def State.freeBars (s : State) (cl : Nat) : List Nat :=
  freeBelow 64 ((s.holders cl).flatMap (·.barIds))

/-- The free physical bays of a cluster. -/
def State.freeBays (s : State) (cl : Nat) : List Nat := freeBelow 8 (heldBays cl s)

/-- Slots taken alternately from the wide engines, engine e next (04 R392). -/
def pickSlots : Nat → Nat → List Nat → List Nat → List (Nat × Nat)
  | 0, _, _, _ => []
  | n + 1, e, a, b =>
    match a, b with
    | [], [] => []
    | x :: a', [] => (0, x) :: pickSlots n 1 a' []
    | [], y :: b' => (1, y) :: pickSlots n 0 [] b'
    | x :: a', y :: b' =>
      if e = 0 then (0, x) :: pickSlots n 1 a' (y :: b') else (1, y) :: pickSlots n 0 (x :: a') b'

/-- The whole cores a share's contexts take. -/
def Desc.ncores (d : Desc) : Nat := cdiv d.ctx 4

/-- The valid bay entries of a gang or, when it is restored, of one of its shares. -/
def validBays (es : List Word) : Nat := (es.filter fun e => wbit e 44).length

/-! ### The fit test (04 R93) -/

/-- The shares of unit k of a gang in rank order. -/
def State.unitShares (s : State) (g k : Nat) : List Share := (s.sharesOf g).filter (·.unit == k)

/-- Waves a saved share has on an engine. -/
def savedWaves (sh : Share) (e : Nat) : Nat :=
  match sh.saved with
  | some x => (x.waves.filter fun w => w.1 == e).length
  | none => 0

/-- The wave slots a share gets on a cluster: those its saved waves need on their engines, where the plain choice has
too few of one, and the rest alternately (04 R392; 15 R351). -/
def slotsFor (n : Nat) (old : Option Share) (cl : Nat) (s : State) : List (Nat × Nat) :=
  let a := s.freeWaveSlots cl 0
  let b := s.freeWaveSlots cl 1
  let need := fun (e : Nat) => (old.map fun sh => savedWaves sh e).getD 0
  let plain := pickSlots n 0 a b
  if (List.range 2).all fun e => decide (need e ≤ (plain.filter fun x => x.1 == e).length) then plain
  else (a.take (need 0)).map (fun x => (0, x)) ++ (b.take (need 1)).map (fun x => (1, x)) ++
    pickSlots (n - need 0 - need 1) 0 (a.drop (need 0)) (b.drop (need 1))

/-- Whether a cluster can take the share at position j of unit k of a gang: the rows of Table 04-1; a
restored share needs its own core numbers, and slots for its waves on their engines (15 R351). -/
def canTake (g : Gang) (k j cl : Nat) (s : State) : Bool :=
  let d := g.desc
  let old := if g.restoring then (s.unitShares g.id k)[j]? else none
  let a := s.freeWaveSlots cl 0
  let b := s.freeWaveSlots cl 1
  (match old with
   | some sh => sh.cores.all fun c => (s.freeCores cl).contains c
   | none => decide (d.ncores ≤ (s.freeCores cl).length)) &&
  decide (d.waves ≤ a.length + b.length) &&
  (match old with
   | some sh => decide (savedWaves sh 0 ≤ a.length) && decide (savedWaves sh 1 ≤ b.length)
   | none => true) &&
  (s.freeSpad cl (d.scratch * 4096)).isSome &&
  decide ((match old with
   | some sh => (sh.bays.filter Option.isSome).length
   | none => validBays g.bays) ≤ (s.freeBays cl).length) &&
  (!d.bank || (s.holders cl).all fun sh => !sh.bank) &&
  decide (d.ntl ≤ (s.freeTls cl).length) &&
  decide (d.nbar ≤ (s.freeBars cl).length) &&
  !((s.sharesOf g.id).any fun sh => sh.cl == cl && s.holds sh)

/-! ### Rectangles (04 R92, R94) -/

/-- A rectangle of a unit: die, top row, left column. -/
structure Rect where
  die : Nat
  top : Nat
  left : Nat
  deriving DecidableEq, Repr

/-- The clusters of a rectangle, by row and column. -/
def rectCells (d : Desc) (r : Rect) : List Nat :=
  (List.range d.rows).flatMap fun i => (List.range d.cols).map fun j =>
    r.die * 48 + (r.top + i) * 8 + r.left + j

/-- Every rectangle of a gang's shape on a list of dies, by die, top row and left column. -/
def allRects (d : Desc) (dies : List Nat) : List Rect :=
  dies.flatMap fun die => (List.range (7 - d.rows)).flatMap fun t =>
    (List.range (9 - d.cols)).map fun l => { die := die, top := t, left := l }

/-- The dies permitted for unit k (04 R94). -/
def State.unitDies (s : State) (d : Desc) (k : Nat) : List Nat :=
  if d.homedir then [s.homeDie (d.homearg + k * d.homestride)] else [0, 1, 2, 3]

/-- The highest temperature of a list of clusters. -/
def State.maxTemp (s : State) (cells : List Nat) : Nat := cells.foldl (fun m c => max m (s.cluster c).temp) 0

/-- The first of a list with the least key. -/
def leastBy {α : Type} (key : α → Nat) : List α → Option α
  | [] => none
  | x :: xs =>
    match leastBy key xs with
    | some y => some (if key y < key x then y else x)
    | none => some x

/-- Whether unit k may take a rectangle, given the excluded clusters (04 R92). A cluster of a fenced die is no candidate,
though it stays eligible, and so a reservation that holds one stands. DESIGN CHOICE (log 98). -/
def rectFits (g : Gang) (k : Nat) (excl : List Nat) (s : State) (r : Rect) : Bool :=
  (rectCells g.desc r).zipIdx.all fun c =>
    (s.cluster c.1).eligible && !s.pkg.fenced.contains (c.1 / 48) && !excl.contains c.1 && canTake g k c.2 c.1 s

/-- The rectangles chosen for n units from unit k on, and whether every unit found one (04 R92). -/
def tryUnits (g : Gang) (s : State) : Nat → Nat → List Nat → Bool × List Rect
  | 0, _, _ => (true, [])
  | n + 1, k, excl =>
    let cs := (allRects g.desc (s.unitDies g.desc k)).filter (rectFits g k excl s)
    match leastBy (fun r => s.maxTemp (rectCells g.desc r)) cs with
    | none => (false, [])
    | some r =>
      let x := tryUnits g s n (k + 1) (excl ++ rectCells g.desc r)
      (x.1, r :: x.2)

/-- try(g, excl) (04 R92). -/
def tryGang (g : Gang) (excl : List Nat) (s : State) : Bool × List Rect :=
  tryUnits g s g.desc.nunits 0 excl

/-! ### The holdings of a placed share (04 R392) -/

/-- The bays of a new share, bound to free physical bays in ascending bay index. -/
def bindBays : List Word → List Nat → List (Option Bay)
  | [], _ => []
  | e :: es, free =>
    if wbit e 44 then
      match free with
      | n :: ns => some (bayOf n e) :: bindBays es ns
      | [] => none :: bindBays es []
    else none :: bindBays es free

/-- The bays of a restored share, bound afresh. -/
def rebindBays : List (Option Bay) → List Nat → List (Option Bay)
  | [], _ => []
  | none :: bs, free => none :: rebindBays bs free
  | some b :: bs, free =>
    match free with
    | n :: ns => some { b with phys := n } :: rebindBays bs ns
    | [] => some b :: rebindBays bs []

/-- A timeline at launch. -/
def Timeline.blank (phys : Nat) : Timeline :=
  { phys := phys, v := 0, i := 0, f := 0, fcause := 0, fails := [], early := [], trigs := [] }

/-- A new share on a cluster. -/
def newShare (g : Gang) (rank unit cl : Nat) (s : State) : Share where
  gang := g.id
  rank := rank
  unit := unit
  launch := cl
  cl := cl
  cores := (s.freeCores cl).take g.desc.ncores
  nctx := g.desc.ctx
  slots := slotsFor g.desc.waves none cl s
  spadBase := (s.freeSpad cl (g.desc.scratch * 4096)).getD 0
  spadSize := g.desc.scratch * 4096
  bank := g.desc.bank
  barIds := (s.freeBars cl).take g.desc.nbar
  tls := ((s.freeTls cl).take g.desc.ntl).map Timeline.blank
  bays := bindBays ((List.range 8).map fun i => (g.bays[i]?).getD 0) (s.freeBays cl)
  bars := List.replicate g.desc.nbar BarShare.blank
  tvec := Config.trapRoutine
  gtimeout := 2048
  decode := List.replicate 256 0
  lay := List.replicate 64 (0, 0)
  tab := List.replicate 16 HEntry.blank
  spill := []
  stopped := false
  saved := none

/-- The cluster number of a share that is saved: none of the device's. -/
def nowhere : Nat := 192

/-- A saved share placed on a cluster again: core numbers kept, the rest afresh (04 R392; 15 R351). -/
def Share.replace (sh : Share) (g : Gang) (cl : Nat) (s : State) : Share :=
  { sh with
    cl := cl
    slots := slotsFor g.desc.waves (some sh) cl s
    spadBase := (s.freeSpad cl sh.spadSize).getD 0
    barIds := (s.freeBars cl).take g.desc.nbar
    tls := (sh.tls.zip (s.freeTls cl)).map fun x => { x.1 with phys := x.2 }
    bays := rebindBays sh.bays (s.freeBays cl) }

/-- The cells of a gang's rectangles as (cluster, unit, position in the unit). -/
def placeCells (d : Desc) (rs : List Rect) : List (Nat × Nat × Nat) :=
  sortBy (·.1) (rs.zipIdx.flatMap fun r => (rectCells d r.1).zipIdx.map fun c => (c.1, r.2, c.2))

/-- A gang placed on rectangles: its shares take their holdings, with ranks by die, row and column for a
new gang and kept ranks for a restored one (01 R16; 03 R80 step 4; 15 R351). -/
def placeGang (g : Gang) (rs : List Rect) (s : State) : State :=
  let cells := placeCells g.desc rs
  let olds := (List.range g.desc.nunits).map fun k => s.unitShares g.id k
  let s := s.modGang g.id fun g => { g with phase := .placed, released := [] }
  cells.zipIdx.foldl (fun s c =>
    let cl := c.1.1
    let u := c.1.2.1
    if g.restoring then
      match (olds[u]?).bind fun l => l[c.1.2.2]? with
      | some sh => { s with shares := FMap.put s.shares (shareKey g.id sh.rank) (sh.replace g cl s) }
      | none => s
    else { s with shares := FMap.put s.shares (shareKey g.id c.2) (newShare g c.2 u cl s) }) s

/-! ### Queues, reservations and passes (04 R89-R91, R96, R97) -/

/-- The head of queue q. -/
def State.head? (s : State) (q : Nat) : Option Gang :=
  ((s.disp.queues[q]?).bind List.head?).bind s.gang?

/-- The state with the dispatcher changed. -/
def modDisp (f : Disp → Disp) (s : State) : State := { s with disp := f s.disp }

/-- A pass is to start, in the first clk after this one (04 R90). -/
def needPass (s : State) : State :=
  modDisp (fun d => match d.pass with
    | some c => { d with again := d.again || decide (c < s.clk) }
    | none => { d with pass := some s.clk }) s

/-- Whether a pass starts in this clk (04 R90). -/
def passDue (s : State) : Bool :=
  match s.disp.pass with
  | some c => decide (c < s.clk)
  | none => false

/-- Queue q has a new head, or none. -/
def newHead (q : Nat) (s : State) : State :=
  modDisp (fun d => { d with headSince := d.headSince.set q s.clk, bf := d.bf.set q 0 }) s

/-- A gang at the end of its queue, if it has room (04 R89). -/
def enterQueue (g q : Nat) (s : State) : State :=
  let empty := (s.disp.queues[q]?).getD [] == []
  let s := needPass (modDisp (fun d => { d with queues := d.queues.modify q (· ++ [g]) }) s)
  if empty then newHead q s else s

/-- Whether queue q has room. -/
def queueRoom (q : Nat) (s : State) : Bool := decide (((s.disp.queues[q]?).getD []).length < 256)

/-- The head of queue q leaves it; its reservation ends (04 R97). -/
def leaveQueue (g q : Nat) (s : State) : State :=
  newHead q (modDisp (fun d =>
    { d with queues := d.queues.modify q List.tail, resv := d.resv.filter (·.1 != g),
             aged := d.aged.filter (· != g) }) s)

/-- The clusters reserved for gangs other than g. -/
def reservedFor (g : Nat) (s : State) : List Nat :=
  (s.disp.resv.filter (·.1 != g)).flatMap (·.2)

/-- Whether the head of queue q qualifies for a reservation (04 R96). -/
def qualifies (q : Nat) (g : Gang) (s : State) : Bool :=
  !(s.disp.resv.any (·.1 == g.id)) &&
  (decide (8 ≤ (s.disp.bf[q]?).getD 0) || decide (110000 ≤ s.clk - (s.disp.headSince[q]?).getD 0))

/-- Whether unit k may reserve a rectangle (04 R96). -/
def mayReserve (g : Gang) (taken : List Nat) (s : State) (r : Rect) : Bool :=
  (rectCells g.desc r).all fun c =>
    (s.cluster c).eligible && !s.pkg.fenced.contains (c / 48) && !taken.contains c

/-- The clusters of a rectangle that fail the fit test for unit k. -/
def failCount (g : Gang) (k : Nat) (s : State) (r : Rect) : Nat :=
  ((rectCells g.desc r).zipIdx.filter fun c => !canTake g k c.2 c.1 s).length

/-- The clusters reserve(h) picks for n units from unit k on (04 R96). -/
def reserveUnits (g : Gang) (s : State) : Nat → Nat → List Nat → Option (List Nat)
  | 0, _, _ => some []
  | n + 1, k, taken =>
    let cs := (allRects g.desc (s.unitDies g.desc k)).filter (mayReserve g taken s)
    match leastBy (fun r => failCount g k s r * 100000 + s.maxTemp (rectCells g.desc r)) cs with
    | none => none
    | some r =>
      let cells := rectCells g.desc r
      (reserveUnits g s n (k + 1) (taken ++ cells)).map (cells ++ ·)

/-- The reservation of the head of queue q, if it qualifies and finds one; it starts a pass (04 R90,
R96). -/
def reserveHead (q : Nat) (s : State) : State :=
  match s.head? q with
  | none => s
  | some g =>
    if !qualifies q g s then s
    else match reserveUnits g s g.desc.nunits 0 (reservedFor g.id s) with
      | none => s
      | some cells => needPass (modDisp (fun d => { d with resv := d.resv ++ [(g.id, cells)] }) s)

/-- Queues 7 down to 0. -/
def queueOrder : List Nat := [7, 6, 5, 4, 3, 2, 1, 0]

/-- One more gang has passed over each blocked head of a queue above q (04 R91). -/
def countBackfill (blocked : List Nat) (s : State) : State :=
  blocked.foldl (fun s q => modDisp (fun d => { d with bf := d.bf.modify q (· + 1) }) s) s

/-- Queue q served in a pass, at most n gangs; `blocked` are the queues above whose heads are blocked and
`tent` the clusters of their tentative rectangles (04 R91). -/
def serveQueue (q : Nat) : Nat → List Nat × List Nat → State → (List Nat × List Nat) × State
  | 0, b, s => (b, s)
  | n + 1, b, s =>
    match s.head? q with
    | none => (b, s)
    | some g =>
      let r := tryGang g (reservedFor g.id s ++ b.2) s
      if r.1 then
        serveQueue q n b (countBackfill b.1 (leaveQueue g.id q (placeGang g r.2 s)))
      else ((b.1 ++ [q], b.2 ++ r.2.flatMap (rectCells g.desc)), s)

/-- Reservations that hold an ineligible cluster are dropped (04 R97). -/
def dropReservations (s : State) : State :=
  modDisp (fun d => { d with resv := d.resv.filter fun r => r.2.all fun c => (s.cluster c).eligible }) s

/-- DISPATCHER_PASS (R91). -/
def execDispatcherPass (s : State) : Host.Outcome State Fault Refusal :=
  .next <|
    if !passDue s then s
    else
      let s := dropReservations (modDisp (fun d =>
        { d with pass := if d.again then some s.clk else none, again := false }) s)
      let s := queueOrder.foldl (fun s q => reserveHead q s) s
      (queueOrder.foldl (fun (bs : (List Nat × List Nat) × State) q => serveQueue q 257 bs.1 bs.2)
        (([], []), s)).2

/-- Whether the head of queue q has waited 110,000 clk and has not yet started a pass for it (04 R90). -/
def ageDue (q : Nat) (s : State) : Bool :=
  match s.head? q with
  | none => false
  | some g => !s.disp.aged.contains g.id && decide (110000 ≤ s.clk - (s.disp.headSince[q]?).getD 0)

/-- HEAD_AGEING_TIMEOUT: a head that has waited 110,000 clk starts a pass, once (R90, R96). -/
def execHeadAgeingTimeout (q : Fin 8) (s : State) : Host.Outcome State Fault Refusal :=
  .next <|
    match s.head? q.val with
    | none => s
    | some g =>
      if ageDue q.val s then needPass (modDisp (fun d => { d with aged := d.aged ++ [g.id] }) s) else s

end Sys2Proof.Machine
end

