-- ==== Sys2Proof/Machine/Launch.lean ====
section
/-!
DEFINITION. How work is launched: the checks of a launch message, its descriptor and its image, the
loading of a placed gang, and its release (01 R29, R30, R389; 03 R79-R82).
-/

namespace Sys2Proof.Machine

/-! ### The descriptor (03 Table 03-8) -/

/-- n bytes at an offset of a byte string, as a number. -/
def fieldOf (b : List Byte) (o n : Nat) : Nat := leNat ((b.drop o).take n)

/-- The descriptor in 128 bytes. -/
def descOf (b : List Byte) : Desc where
  strict := fieldOf b 0 4 % 2 == 1
  homedir := fieldOf b 0 4 / 2 % 2 == 1
  compqValid := fieldOf b 0 4 / 4 % 2 == 1
  queue := fieldOf b 4 1
  nunits := fieldOf b 5 1
  rows := fieldOf b 6 1
  cols := fieldOf b 7 1
  ctx := fieldOf b 8 1
  waves := fieldOf b 9 1
  bank := fieldOf b 0xA 1 == 1
  ntl := fieldOf b 0xB 1
  scratch := fieldOf b 0xC 2
  nbar := fieldOf b 0xE 1
  template := fieldOf b 0xF 1
  image := fieldOf b 0x10 8
  entry := fieldOf b 0x18 4
  entryn := fieldOf b 0x1C 1
  arg0 := ofN (fieldOf b 0x20 8)
  arg1 := ofN (fieldOf b 0x28 8)
  homearg := fieldOf b 0x30 8
  homestride := fieldOf b 0x38 8
  save := fieldOf b 0x40 8
  compl := fieldOf b 0x48 8
  compq := ofN (fieldOf b 0x50 8)
  cookie := ofN (fieldOf b 0x58 8)
  barmask := (List.range 16).map fun i => fieldOf b (0x60 + 2 * i) 2

/-- Whether a range of n bytes lies in one region of DRAM. -/
def State.rangeInDram (s : State) (pa n : Nat) : Bool :=
  s.inDram pa && s.inDram (pa + n - 1) && s.pinnedDie? pa == s.pinnedDie? (pa + n - 1)

/-- Whether n bytes from an address lie in the host record region (03 R66). -/
def State.inRecords (s : State) (pa n : Nat) : Bool :=
  decide (s.pkg.eopra.recordBase ≤ pa) && decide (pa + n ≤ s.pkg.eopra.recordBase + 0x4000000)

/-- Whether a COMPQ header is accepted: R72 and R79, without the fields the dispatcher sets itself. -/
def compqOk (h : Word) : Bool :=
  !badHeader (ofN (h.toNat % 2 ^ 48 / 4 * 4 - (hFmt h) * 2 ^ 9 - hCount h * 2 ^ 6 - b2n (wbit h 41) * 2 ^ 41)) &&
    hAgent h != 2 && decide (hChan h < 14)

/-- Whether the image region of a descriptor and its other fields keep their ranges (03 Table 03-8; 04
R94). -/
def descRangesOk (b : List Byte) (s : State) : Bool :=
  let d := descOf b
  decide (fieldOf b 0 4 < 8) && (!d.compqValid || s.pkg.featAck.getLsbD 4) &&
  decide (d.queue ≤ 7) && decide (1 ≤ d.nunits) && decide (d.nunits ≤ 16) && decide (d.ctx ≤ 124) &&
  decide (d.waves ≤ 32) && decide (fieldOf b 0xA 1 ≤ 1) && decide (d.ntl ≤ 64) && decide (d.scratch ≤ 512) &&
  decide (d.nbar ≤ 16) && decide (d.template ≤ 15) && s.inRecords d.image 1 && decide (d.entry % 4 = 0) &&
  decide (d.entryn ≤ d.ctx) && fieldOf b 0x1D 3 == 0 && decide (d.ranks ≤ 192) &&
  (d.save == 0 || (d.save % 65536 == 0 && s.rangeInDram d.save (0x10000 + d.ranks * 0x800000))) &&
  d.compl % 64 == 0 && s.rangeInDram d.compl 64 && (!d.compqValid || compqOk d.compq) &&
  (d.barmask.zipIdx.all fun m => if m.2 < d.nbar then decide (m.1 < 2 ^ d.nunits) else m.1 == 0) &&
  (!d.homedir || (List.range d.nunits).all fun k => s.inDram (d.homearg + k * d.homestride))

/-! ### The image (01 R29, R30, R389) -/

/-- A section table entry (01 Table 01-6). -/
structure Sec where
  kind : Nat
  align : Nat
  gang : Nat
  off : Nat
  size : Nat
  vaddr : Nat
  deriving DecidableEq, Repr

/-- n bytes of memory as a number. -/
def State.mem (s : State) (pa n : Nat) : Nat := Memory.read s.dram pa n

/-- Section table entry i of an image. -/
def secAt (img i : Nat) (s : State) : Sec :=
  let e := img + 64 + 32 * i
  { kind := s.mem e 1, align := s.mem (e + 1) 1, gang := s.mem (e + 2) 1, off := s.mem (e + 8) 8,
    size := s.mem (e + 16) 8, vaddr := s.mem (e + 24) 8 }

/-- The sections of an image. -/
def sections (img : Nat) (s : State) : List Sec := (List.range (s.mem (img + 6) 2)).map fun i => secAt img i s

/-- Whether an entry of the section table keeps its ranges and lies in the image. -/
def secOk (img i : Nat) (s : State) : Bool :=
  let x := secAt img i s
  decide (1 ≤ x.kind) && decide (x.kind ≤ 8) && decide (2 ≤ x.align) && decide (x.align ≤ 16) &&
    (decide (x.gang ≤ 15) || x.gang == 255) && s.mem (img + 64 + 32 * i + 3) 5 == 0 &&
    decide (x.off + x.size ≤ s.mem (img + 16) 8)

/-- The sections of template k, in table order. -/
def ownSections (img k : Nat) (s : State) : List Sec :=
  (sections img s).filter fun x => x.gang == k || x.gang == 255

/-- The first section of a kind of template k, in table order. Where a template has several HANDLERS, DECODE,
LAYOUT or BAYS sections, its own and those of 0xFF, the manual does not say which is loaded: the first is.
Where it has none, the table is all zero. DESIGN CHOICE (log 69). -/
def firstSec (img k kind : Nat) (s : State) : Option Sec := (ownSections img k s).find? fun x => x.kind == kind

/-- Entry i of w bytes of a section. -/
def secWord (img : Nat) (x : Sec) (w i : Nat) (s : State) : Nat := s.mem (img + x.off + w * i) w

/-- Whether a LAYOUT entry keeps its ranges (01 Table 01-7). -/
def layEntryOk (v : Nat) : Bool :=
  decide (v % 256 ≤ 63) && decide (v / 256 ≤ 64) && decide (v % 256 + v / 256 ≤ 64)

/-- Whether the fields of a GANG template that a launch fills, IMAGE to COOKIE but ENTRY and ENTRYN, are 0
(01 Table 01-7; 03 R79). -/
def templateOk (a : Nat) (s : State) : Bool :=
  s.mem (a + 0x10) 8 == 0 && s.mem (a + 0x20) 0x40 == 0

/-- Whether a section's contents keep the ranges of its kind (01 Table 01-7; 03 R79). -/
def contentsOk (img : Nat) (x : Sec) (s : State) : Bool :=
  match x.kind with
  | 3 => x.size == 128 && templateOk (img + x.off) s
  | 4 => x.size == 128 && (List.range 16).all fun i =>
      let v := secWord img x 8 i s
      if 14 ≤ i then v == 0 else decide (v < 2 ^ 35) && v % 4 == 0
  | 5 => x.size == 512 && (List.range 256).all fun i =>
      let v := secWord img x 2 i s
      v == lowBits (sext v 12) 16
  | 6 => x.size == 128 && (List.range 64).all fun i => layEntryOk (secWord img x 2 i s)
  | 7 => x.size == 64 && (List.range 8).all fun i => !bayEntryBad (ofN (secWord img x 8 i s))
  | _ => true

/-- The BAYS entries of a template; none valid where it has no such section. -/
def bayEntries (img k : Nat) (s : State) : List Word :=
  match firstSec img k 7 s with
  | some x => (List.range 8).map fun i => ofN (secWord img x 8 i s)
  | none => List.replicate 8 0

/-- The bytes [lo, hi) of the scratchpad a valid BAYS entry takes. -/
def bayRange (e : Word) : Nat × Nat :=
  (wbits e 31 0, wbits e 31 0 + (wbits e 43 36 + 1) * 2 ^ wbits e 35 32)

/-- Whether no two valid entries overlap. -/
def baysApart (es : List Word) : Bool :=
  let v := (es.filter fun e => wbit e 44).zipIdx
  v.all fun a => v.all fun b => a.2 == b.2 ||
    decide ((bayRange a.1).2 ≤ (bayRange b.1).1) || decide ((bayRange b.1).2 ≤ (bayRange a.1).1)

/-- Whether an image is accepted for template k (01 R29, R30; 03 R79): header, section table, the tables
of that template, and its extent in the host record region. A TEMPLATE that is not below NGANG, or for which
the image does not hold exactly one GANG section, fails: the manual does not say what becomes of such a
launch. DESIGN CHOICE (log 68). -/
def imageOk (img k : Nat) (s : State) : Bool :=
  let size := s.mem (img + 16) 8
  let nsec := s.mem (img + 6) 2
  s.inRecords img 64 && s.mem img 4 == 0x34564C4F && s.mem (img + 4) 2 == 1 && decide (1 ≤ nsec) &&
  decide (nsec ≤ 64) && decide (1 ≤ s.mem (img + 8) 4) && decide (s.mem (img + 8) 4 ≤ 16) &&
  decide (s.mem (img + 12) 4 < 2) && s.mem (img + 0x18) 40 == 0 && decide (64 + 32 * nsec ≤ size) &&
  s.inRecords img size && (List.range nsec).all (fun i => secOk img i s) && decide (k < s.mem (img + 8) 4) &&
  ((sections img s).filter fun x => x.kind == 3 && x.gang == k).length == 1 &&
  (ownSections img k s).all (fun x => contentsOk img x s) && baysApart (bayEntries img k s)

/-! ### Possible placements (03 Table 03-4 code 7) -/

/-- The units a die can hold when the clusters of its left columns, c of them, are left out. -/
def dieRoom (d : Desc) (c : Nat) : Nat := 6 / d.rows * ((8 - c) / d.cols)

/-- Whether there is room on the dies for every unit, where die 0 leaves out c left columns. -/
def roomFor (d : Desc) (c : Nat) (s : State) : Bool :=
  let room := fun die => dieRoom d (if die = 0 then c else 0)
  if d.homedir then
    (List.range 4).all fun die =>
      decide (((List.range d.nunits).filter fun k => (s.unitDies d k).contains die).length ≤ room die)
  else decide (d.nunits ≤ room 0 + room 1 + room 2 + room 3)

/-- Whether the contexts of a share exceed what the clusters of every possible placement give (01 R16,
R17): every cluster but those of die 0, column 0 gives the cores below the pager cores, and those give
fewer (log 24). -/
def holdingsExceed (d : Desc) (s : State) : Bool :=
  let plain := 32 - s.pkg.eopra.pagers
  decide (plain < d.ncores) ||
    (decide (plain - s.pkg.eopra.column < d.ncores) && roomFor d 0 s && !roomFor d 1 s)

/-! ### Launch step 1 (03 R80) -/

/-- The refusal code of a launch message, or 0 (03 R79, Table 03-9 step 1). A launch by the firmware meets
the checks of a window launch, FEATLOCK first (R68, R83). -/
def launchCode (x : Launch) (s : State) : Nat :=
  let pa := (recWord x.msg.pay 0).toNat
  let d := descOf x.desc
  if !s.pkg.featLock then 3
  else if !isLaunch x.msg.hdr then 1
  else if pa % 128 ≠ 0 || !s.inRecords pa 128 then 4
  else if 6 < d.rows ∨ 8 < d.cols then 6
  else if d.rows = 0 ∨ d.cols = 0 then 4
  else if !descRangesOk x.desc s then 4
  else if !imageOk d.image d.template s then 5
  else if (bayEntries d.image d.template s).any fun e => wbit e 44 && decide (d.scratch * 4096 < (bayRange e).2)
    then 4
  else if holdingsExceed d s then 7
  else 0

/-- The GANGID after n that no gang holds (03 R80); the second number bounds the search. -/
def nextId (s : State) : Nat → Nat → Nat
  | 0, n => n
  | k + 1, n =>
    let m := if n + 1 < 2 ^ 32 then n + 1 else 1
    if (s.gang? m).isSome then nextId s k m else m

/-- The completion record of launch step 1: the GANGID and zeros (16 R370). -/
def launchRecord (id : Nat) : List Byte := List.replicate 0x2C 0 ++ leBytes 4 id ++ List.replicate 16 0

/-- A gang that has passed the checks. -/
def newGang (id : Nat) (x : Launch) (s : State) : Gang where
  id := id
  desc := descOf x.desc
  bays := bayEntries (descOf x.desc).image (descOf x.desc).template s
  phase := .queued
  restoring := false
  released := []
  root := 0
  text := 0
  summary := Summary.blank

/-- A launch that passes: its GANGID, its record, its place in the queue (03 R80). -/
def acceptLaunch (x : Launch) (s : State) : State :=
  let id := nextId s (s.gangs.length + 1) s.disp.ctr
  let g := newGang id x s
  let s := storeBytes g.desc.compl (launchRecord id)
    { s with gangs := FMap.put s.gangs id g, disp := { s.disp with ctr := id } }
  enterQueue id g.desc.queue s

/-- Whether a message of the dispatcher's buffer can be taken: not one whose launch waits for its queue (04 R89). Whether
later messages may pass such a launch the manual does not say; they may. DESIGN CHOICE (log 96). -/
def takable (s : State) (x : Launch) : Bool :=
  launchCode x s != 0 || queueRoom (descOf x.desc).queue s

/-- GANG_LAUNCH: the dispatcher takes its oldest message that no full queue holds up, refuses it or queues
the gang (R79, R80; 04 R89; log 96). -/
def execGangLaunch (s : State) : Host.Outcome State Fault Refusal :=
  .next <|
    match (s.disp.inbox.filter fun x => decide (x.clk < s.clk)).find? (takable s) with
    | none => s
    | some x =>
      let s := modDisp (fun d => { d with inbox := d.inbox.erase x }) s
      match launchCode x s with
      | 0 => acceptLaunch x s
      | c => refuse c x.msg x.desc s

/-! ### Launch steps 3-6 (03 R80) -/

/-- The load addresses of the sections of a kind, in order: each at the next multiple of its alignment
(01 R389). -/
def secAddrs : Nat → List Sec → List (Nat × Sec)
  | _, [] => []
  | a, x :: xs =>
    let b := cdiv a (2 ^ x.align) * 2 ^ x.align
    (b, x) :: secAddrs (b + x.size) xs

/-- The sections of a kind of a template with their addresses; `base` is the driver's where the first
VADDR is 0 (01 R389). -/
def loadPlan (img k kind base : Nat) (s : State) : List (Nat × Sec) :=
  match (ownSections img k s).filter (fun x => x.kind == kind) with
  | [] => []
  | x :: xs =>
    let a := if x.vaddr = 0 then base else x.vaddr
    (a, x) :: secAddrs (a + x.size) xs

/-- The TEXT base of a template. -/
def textBase (img k base : Nat) (s : State) : Nat :=
  match firstSec img k 1 s with
  | some x => if x.vaddr = 0 then base else x.vaddr
  | none => base

/-- The physical address of a virtual one through a translation root, for the loader. -/
def loadPhys (root va : Nat) (s : State) : Option (Nat × Word) :=
  match s.walk root (ofN va) with
  | .leaf pte _ up => some (physOf pte up (ofN va), pte)
  | .fail _ _ => none

/-- Whether every page of n bytes from va is mapped; the first number bounds the pages. -/
def mapped (root : Nat) (s : State) : Nat → Nat → Nat → Bool
  | 0, _, _ => true
  | k + 1, va, n =>
    if n = 0 then true
    else
      let m := min n (0x10000 - va % 0x10000)
      (loadPhys root va s).isSome && mapped root s k (va + m) (n - m)

/-- The homes of n lines note whether the page they were stored through is honoured as CMP (09 R209). -/
def noteLines (pte : Word) (line n : Nat) (s : State) : State :=
  (List.range n).foldl (fun s i => noteCmp (s.targetOf ((line + i) * 128) pte) s) s

/-- Bytes loaded at a virtual address, page by page. -/
def loadBytes (root : Nat) : Nat → Nat → List Byte → State → State
  | 0, _, _, s => s
  | k + 1, va, bs, s =>
    if bs.isEmpty then s
    else
      let m := 0x10000 - va % 0x10000
      let s := match loadPhys root va s with
        | some x => noteLines x.2 (x.1 / 128) ((x.1 % 128 + min m bs.length + 127) / 128) (storeBytes x.1 (bs.take m) s)
        | none => s
      loadBytes root k (va + m) (bs.drop m) s

/-- The sections of a plan loaded from an image. -/
def loadSections (img root : Nat) (plan : List (Nat × Sec)) (s : State) : State :=
  plan.foldl (fun s x =>
    let bs := Memory.readBytes s.dram (img + x.2.off) x.2.size
    loadBytes root (x.2.size / 0x10000 + 2) x.1 bs s) s

/-- Whether the pages of a plan are mapped. -/
def planMapped (root : Nat) (plan : List (Nat × Sec)) (s : State) : Bool :=
  plan.all fun x => mapped root s (x.2.size / 0x10000 + 2) x.1 x.2.size

/-- The lines of the first 64 KiB of TEXT, from executable pages (03 R80 step 3). -/
def preload (g root : Nat) (plan : List (Nat × Sec)) (s : State) : List Line :=
  match plan.head?, plan.getLast? with
  | some x, some y =>
    let lo := x.1 / 128
    let hi := (min (x.1 + 0x10000) (y.1 + y.2.size) + 127) / 128
    (List.range (hi - lo)).filterMap fun i =>
      match loadPhys root ((lo + i) * 128) s with
      | some p => if wbit p.2 3 && !wbit p.2 63
          then some { gang := g, tag := lo + i, data := homeLine s (p.1 / 128) } else none
      | none => none
  | _, _ => []

/-- The handler table of HANDLERS, its offsets from the TEXT base (01 Table 01-7; 03 R77). -/
def handlersOf (img k base : Nat) (s : State) : List HEntry :=
  match firstSec img k 4 s with
  | none => List.replicate 16 HEntry.blank
  | some x => (List.range 16).map fun i =>
      let v := secWord img x 8 i s
      if 14 ≤ i then HEntry.blank
      else { pc := ofN (base + v % 2 ^ 32), prio := v / 2 ^ 32 % 4, en := v / 2 ^ 34 % 2 == 1 }

/-- The decode table of DECODE. -/
def decodeOfImage (img k : Nat) (s : State) : List (BitVec 16) :=
  match firstSec img k 5 s with
  | none => List.replicate 256 0
  | some x => (List.range 256).map fun i => BitVec.ofNat 16 (secWord img x 2 i s)

/-- The layout table of LAYOUT. -/
def layoutOfImage (img k : Nat) (s : State) : List (Nat × Nat) :=
  match firstSec img k 6 s with
  | none => List.replicate 64 (0, 0)
  | some x => (List.range 64).map fun i =>
      (secWord img x 2 i s % 256, secWord img x 2 i s / 256)

/-- The contexts of a share as (core, context), counted core by core (03 R80 step 6). -/
def Share.contexts (sh : Share) : List (Nat × Nat) :=
  (List.range sh.nctx).filterMap fun i => (sh.cores[i / 4]?).map fun c => (c, i % 4)

/-- A context at launch: the i-th of its share (03 R80 step 6). -/
def launchThread (g : Gang) (rank i base : Nat) (lay : List (Nat × Nat)) : Thread :=
  let t := { Thread.blank with gang := g.id, rank := rank, lay := lay }
  if i < g.desc.entryn then
    { t with pc := ofN (base + g.desc.entry), x := (t.x.set 2 g.desc.arg0).set 3 g.desc.arg1 }
  else t

/-- One share loaded: tables, cores, contexts, bank, instruction cache (03 R80 steps 3, 5, 6; 12 R271). -/
def loadShare (g : Gang) (base : Nat) (tab : List HEntry) (dec : List (BitVec 16)) (lay : List (Nat × Nat))
    (lines : List Line) (sh : Share) (s : State) : State :=
  let s := s.modShare sh.gang sh.rank fun x => { x with tab := tab, decode := dec, lay := lay }
  let s := sh.cores.foldl (fun s c =>
    s.modCore (.scalar sh.cl c) fun k => { Core.blank with tab := tab, lay := lay, inbox := k.inbox }) s
  let s := sh.contexts.zipIdx.foldl (fun s c =>
    s.setThread (.ctx sh.cl c.1.1 c.1.2) (launchThread g sh.rank c.2 base lay)) s
  s.modCluster sh.cl fun c =>
    { c with
      ic := (lines ++ c.ic.filter (·.gang != g.id)).take 512
      bank := if sh.bank then Bank.blank (unitPos sh s).1 (unitPos sh s).2 else c.bank }

/-- GANG_LOAD: a placed gang is loaded with the translation root the firmware gives it, and the TEXT and DATA
bases the driver chose for sections with VADDR 0. It waits until the root maps the image's pages (R80
steps 3-6; 15 R340). -/
def execGangLoad (g root text data : Nat) (s : State) : Host.Outcome State Fault Refusal :=
  .next <|
    match s.gang? g with
    | none => s
    | some x =>
      let img := x.desc.image
      let k := x.desc.template
      let tp := loadPlan img k 1 text s
      let dp := loadPlan img k 2 data s
      if x.phase ≠ .placed || x.restoring || !planMapped root (tp ++ dp) s then s
      else
        let base := textBase img k text s
        let tab := handlersOf img k base s
        let dec := decodeOfImage img k s
        let lay := layoutOfImage img k s
        let s := loadSections img root (tp ++ dp) s
        let lines := preload g root tp s
        let s := s.modGang g fun y => { y with phase := .loaded, root := root, text := base }
        (s.sharesOf g).foldl (fun s sh => loadShare x base tab dec lay lines sh s) s

/-! ### Release (03 R81) -/

/-- The entry contexts of a share start. -/
def startEntries (n : Nat) (sh : Share) (s : State) : State :=
  (sh.contexts.take n).foldl (fun s c =>
    s.modThread (.ctx sh.cl c.1 c.2) fun t => { t with run := .running }) s

/-- The dies that hold a share of a gang. -/
def State.gangDies (s : State) (g : Nat) : List Nat :=
  (List.range 4).filter fun d => (s.sharesOf g).any fun sh => sh.cl / 48 == d

end Sys2Proof.Machine
end

