-- ==== Sys2Proof/Machine/MessageEv.lean ====
section
/-!
DEFINITION. Messages under way: their delivery, the start of handlers, MREQ replies, RPUT arrivals and lends
(03 R75-R78, R85; 14 R321; 15 R346, R350; 19 R384).
-/

namespace Sys2Proof.Machine

/-! ### Where a parcel goes -/

/-- The share a parcel is for, by gang and rank, where it is bound to one. -/
def Parcel.home (x : Parcel) : Option (Nat × Nat) :=
  match x.bound with
  | some a => some a
  | none => x.rank.map fun r => (x.gang, r)

/-- The core a message goes to now: by the rank it was sent to, or by its physical position
(15 R352). -/
def parcelCore (x : Parcel) (h : Word) (s : State) : Option CoreId :=
  match hDest h, x.home with
  | some (.scalar _ c), some a => (s.share? a.1 a.2).map fun sh => .scalar sh.cl c
  | d, _ => d

/-- The share a parcel is for, if it is for one. -/
def parcelShare (x : Parcel) (s : State) : Option Share :=
  match x.cargo with
  | .msg m =>
    (match hDest m.hdr, x.home with
     | some (.scalar _ _), some a => s.share? a.1 a.2
     | some (.scalar cl c), none => s.shareOfCore? cl c
     | _, _ => none)
  | .rput d _ _ =>
    (match d, x.rank with
     | .ctx _ _ _, some r => s.share? x.gang r
     | _, _ => none)
  | .mreq _ => none

/-- Whether a parcel is a lend: channel 15 and AGENT 1 from a gang's thread in supervisor mode
(19 R384). -/
def parcelLend (x : Parcel) : Bool :=
  match x.cargo with
  | .msg m => isLend m.hdr && x.gang != 0 && x.rank.isSome
  | .rput _ _ _ => false
  | .mreq _ => false

/-- Where a parcel is to arrive: its agent, 4 for a lend, which the dispatcher takes; the share, by gang and rank, or
none; and a core, or a core and a context of it. -/
def destOf (x : Parcel) (s : State) : Nat × Option (Nat × Nat) × Option CoreId × Option Nat :=
  let sh := (parcelShare x s).map fun sh => (sh.gang, sh.rank)
  match x.cargo with
  | .msg m => if parcelLend x then (4, none, none, none)
    else if 2 ≤ hAgent m.hdr then (hAgent m.hdr, none, none, none) else (0, sh, parcelCore x m.hdr s, none)
  | .rput d _ _ => if sh.isSome then (1, sh, some (.scalar nowhere d.coreNum), some d.ctxNum) else (1, none, none, some d.key)
  | .mreq _ => (5, none, none, none)

/-- Whether two parcels go to one destination, so that the second must follow the first, whatever name each has for it
(03 R75; 14 R321). -/
def sameDest (s : State) (x y : Parcel) : Bool :=
  match x.cargo, y.cargo with
  | .mreq _, _ => false
  | _, .mreq _ => false
  | _, _ => destOf x s == destOf y s

/-- Whether a parcel must follow another that the same thread sent before it to the same destination, whatever
queue that one lies in (03 R75; 14 R321). -/
def behind (x : Parcel) (s : State) : Bool :=
  x.src.isSome && s.queued.any fun y => y.src == x.src && decide (y.n < x.n) && sameDest s y x

/-- Whether a parcel's destination die is fenced (13 R317). -/
def parcelLost (x : Parcel) (s : State) : Bool :=
  match x.cargo with
  | .msg m =>
    (match parcelCore x m.hdr s with
     | some (.scalar cl _) => s.pkg.fenced.contains (cl / 48)
     | some (.landing l _) => s.pkg.fenced.contains (l / 2)
     | none => false)
  | .rput d _ _ =>
    match parcelShare x s with
    | some sh => s.pkg.fenced.contains (sh.cl / 48)
    | none => s.pkg.fenced.contains d.die
  | .mreq m => s.pkg.fenced.contains m.place.die

/-! ### Spill queues (15 R350) -/

/-- The core a spilled parcel is for, as a number of the share's cluster. -/
def spillCore (x : Parcel) : Nat :=
  match x.cargo with
  | .msg m => hCore m.hdr
  | .rput d _ _ => d.coreNum
  | .mreq m => m.place.coreNum

/-- Whether a spill queue has room. -/
def spillRoom (sh : Share) : Bool := decide (sh.spill.length < 4096)

/-- The address of a share's block in its gang's save area (15 R353). -/
def blockOf (g : Gang) (rank : Nat) : Nat := g.desc.save + 0x10000 + rank * 0x800000

/-- n bytes the manual gives no layout for: free values. -/
def freeBytes (n : Nat) (s : State) : List Byte × State :=
  ((List.range n).map fun i => Config.freeByte s.frees i, { s with frees := s.frees + 1 })

/-- A region of the block written with what the device keeps there (log 27). -/
def writeFree (pa n : Nat) (s : State) : State :=
  let b := freeBytes n s
  storeBytes pa b.1 b.2

/-- A parcel at the end of a share's spill queue, and, where the share has been saved, in the spill region of its
block (15 R350, R353). -/
def spillPut (sh : Share) (x : Parcel) (s : State) : State :=
  let s := match sh.saved.bind fun _ => s.gang? sh.gang with
    | some g => writeFree (blockOf g sh.rank + 0x150000 + sh.spill.length * 64) 64 s
    | none => s
  s.modShare sh.gang sh.rank fun sh => { sh with spill := sh.spill ++ [x] }

/-- An RPUT's value written at a context (14 R321). -/
def writeQ (p : Place) (idx : Nat) (v : Word) (s : State) : State :=
  s.modThread p fun t => { t with q := t.q.set (Fin.ofNat 32 idx) v, qpres := setBit t.qpres (idx % 32) true }

/-- An RPUT's or a gatherer reply's arrival at a context; an outstanding register's reply has then come
(08 R189). -/
def landQ (reply : Bool) (p : Place) (idx : Nat) (v : Word) (s : State) : State :=
  let s := writeQ p idx v s
  if reply then s.modThread p fun t => { t with qgot := setBit t.qgot (idx % 32) (t.qout.getLsbD (idx % 32)) } else s

/-- The spilled parcels of a live share that now go to their cores, in arrival order; those left: one that finds no room
holds up what came after it (15 R350). -/
def unspill (sh : Share) : List Parcel → State → List Parcel × State
  | [], s => ([], s)
  | x :: xs, s =>
    match x.cargo with
    | .mreq _ => unspill sh xs s
    | .rput d i v => unspill sh xs (landQ x.reply (.ctx sh.cl d.coreNum d.ctxNum) i v s)
    | .msg m =>
      let c : CoreId := .scalar sh.cl (hCore m.hdr)
      if discarded c m.hdr s || inboxRoom (s.core c) (hChan m.hdr) then unspill sh xs (inboxPut c m s)
      else (x :: xs, s)

/-- A live share's spill queue emptied as far as its cores have room. -/
def drainSpill (g r : Nat) (s : State) : State :=
  match s.share? g r with
  | none => s
  | some sh =>
    if sh.spill.isEmpty || !s.live sh then s
    else
      let x := unspill sh sh.spill s
      x.2.modShare g r fun sh => { sh with spill := x.1 }

/-! ### Delivery (03 R69, R76; 15 R346) -/

/-- What becomes of a message at the head of its queue: it cannot leave yet, or it leaves with an
effect. -/
inductive Landed
  | wait
  | leaves (s : State)

/-- A message into a core's inbound buffer, if it has room. -/
def intoCore (c : CoreId) (m : Msg) (s : State) : Landed :=
  if discarded c m.hdr s || pathOpen c (hChan m.hdr) s then .leaves (inboxPut c m s)
  else .wait

/-- A message for a scalar core: it waits for a share not yet released, joins the spill queue of a saved
one, and follows what is spilled for the share (03 R81; 15 R350). -/
def intoShare (x : Parcel) (c : CoreId) (m : Msg) (sh : Share) (s : State) : Landed :=
  if sh.saved.isSome then (if spillRoom sh then .leaves (spillPut sh x s) else .wait)
  else if !s.live sh || !sh.spill.isEmpty then .wait
  else intoCore c m s

/-- The place of a dispatcher message among those of its clk (04 R89). Core numbers count per cluster, so
firmware-column messages of one clk go by cluster, then core, then context. DESIGN CHOICE (log 74). -/
def dispKey (x : Parcel) : Nat :=
  match x.src with
  | some p => p.key + 1
  | none => 1

/-- The contexts of a landing core that are lent, as (context, gang). -/
def lentOn (l c : Nat) (s : State) : List (Nat × Nat) :=
  (List.range 4).filterMap fun k =>
    (s.lent.find? fun e => e.1 == Place.key (.lctx l c k)).map fun e => (k, e.2.1)

/-- The context a lend takes now, if it need not wait (19 R384). -/
def lendCtx (x : Parcel) (h : Word) (l c : Nat) (s : State) : Option Nat :=
  let on := lentOn l c s
  if on.any fun e => e.2 != x.gang then none
  else if hCtx h = 4 then (List.range 4).find? fun k => !on.any fun e => e.1 == k
  else if on.any fun e => e.1 == hCtx h then none else some (hCtx h)

/-- A lend as it reaches the dispatcher, which notes whether it must wait. -/
def Parcel.arrived (x : Parcel) (s : State) : Parcel :=
  match x.cargo with
  | .msg m =>
    (match hDest m.hdr with
     | some (.landing l c) => { x with waits := (lendCtx x m.hdr l c s).isNone }
     | _ => x)
  | .rput _ _ _ => x
  | .mreq _ => x

/-- A message that leaves its queue now, if it can. -/
def landMsg (x : Parcel) (m : Msg) (s : State) : Landed :=
  if parcelLost x s then .leaves s
  else match hAgent m.hdr with
    | 3 => if s.hrqFull then .wait else .leaves (hrqPut m s)
    | 2 => if dispRoom s then .leaves (dispPut m (dispKey x) s) else .wait
    | _ =>
      if parcelLend x then .leaves (modDisp (fun d => { d with lends := d.lends ++ [x.arrived s] }) s)
      else match parcelCore x m.hdr s with
        | none => .leaves s
        | some c =>
          match parcelShare x s with
          | some sh => intoShare x c m sh s
          | none => intoCore c m s

/-- The state with a parcel taken out of a queue. -/
def dropParcel (q : OutQ) (x : Parcel) (s : State) : State :=
  match q with
  | .core c => s.modCore c fun k => { k with outq := k.outq.erase x }
  | .eng cl e => s.modCluster cl fun c => { c with engOut := c.engOut.modify e (·.erase x) }
  | .mesh i => { s with mesh := s.mesh.eraseIdx i }

/-- The first message or MREQ of a queue that can leave, with what its leaving does; one that must follow an
earlier message to the same destination cannot (03 R75, R76). -/
def firstMsg (s : State) : List Parcel → List Parcel → Option (Parcel × State)
  | _, [] => none
  | seen, x :: xs =>
    match x.cargo with
    | .rput _ _ _ => firstMsg s seen xs
    | .mreq m => some (x, { s with mreqs := s.mreqs ++ [m] })
    | .msg m =>
      if seen.any (sameDest s x) || behind x s then firstMsg s (x :: seen) xs
      else match landMsg x m s with
        | .leaves s' => some (x, s')
        | .wait => firstMsg s (x :: seen) xs

/-- Whether the i-th parcel of the mesh follows an earlier one to the same destination. -/
def meshBehind (i : Nat) (s : State) : Bool :=
  match s.mesh[i]? with
  | some x => (s.mesh.take i).any (sameDest s x)
  | none => true

/-- MESSAGE_DELIVERY: a message leaves a queue (R76). -/
def execMessageDelivery (src : OutQ) (s : State) : Host.Outcome State Fault Refusal :=
  .next <|
    match src with
    | .mesh i =>
      if meshBehind i s then s
      else match firstMsg s [] (s.outq src) with
        | some (x, s') => dropParcel src x s'
        | none => s
    | q =>
      match firstMsg s [] (s.outq q) with
      | some (x, s') => dropParcel q x s'
      | none => s

/-! ### Handler selection (03 R78) -/

/-- Whether a message is for context k. -/
def forCtx (m : Msg) (k : Nat) : Bool := hCtx m.hdr == k || hCtx m.hdr == 4

/-- The first message on a channel that context k may take. -/
def oldest (k ch : Nat) (inbox : List Msg) : Option Msg := inbox.find? fun m => hChan m.hdr == ch && forCtx m k

/-- Whether a channel-14 message carries a hardware operation (15 R346). -/
def hwOp (m : Msg) : Bool := hChan m.hdr == 14 && (hTag m.hdr == 1 || hTag m.hdr == 2)

/-- The channels whose handlers may start for context k (03 R78). -/
def candidates (c : CoreId) (k : Nat) (s : State) : List Nat :=
  let x := s.core c
  (List.range 15).filter fun ch =>
    ((x.tab[ch]?).getD HEntry.blank).en &&
    (if ch = 14 then s.pagerCore c && (x.inbox.any fun m => hChan m.hdr == 14 && !hwOp m && forCtx m k)
     else (oldest k ch x.inbox).isSome)

/-- The channel selected: highest priority, then the first from hptr on (03 R78). -/
def selectChan (c : CoreId) (k : Nat) (s : State) : Option Nat :=
  let cand := candidates c k s
  let x := s.core c
  let prio := fun ch => ((x.tab[ch]?).getD HEntry.blank).prio
  let top := cand.foldl (fun m ch => max m (prio ch)) 0
  ((List.range 16).map fun i => (x.hptr + i) % 16).find? fun ch => cand.contains ch && prio ch == top

/-- Whether context k of a core is one that selection may start: idle, and held by a released share, lent, or a
context of a supervisor core (03 R78; 19 R384). -/
def mayStart (c : CoreId) (k : Nat) (s : State) : Bool :=
  (s.thread (c.place k)).run == .idle &&
  (match c with
   | .scalar cl n =>
     s.supervisorCore c ||
     (match s.shareOfCore? cl n with
      | some sh => sh.holdsCtx n k && s.live sh
      | none => false)
   | .landing _ _ => s.lent.any fun e => e.1 == (c.place k).key)

/-- Whether selection would start something on context k. -/
def hasWork (c : CoreId) (k : Nat) (s : State) : Bool :=
  mayStart c k s && ((oldest k 15 (s.core c).inbox).isSome || !(candidates c k s).isEmpty)

/-- Whether context k is the one whose selection comes next: no lower idle context has one to make. -/
def selects (c : CoreId) (k : Nat) (s : State) : Bool :=
  mayStart c k s && (List.range k).all fun j => !hasWork c j s

/-- A thread that starts on a message: x1 to x8, the pc and the mode, and the stall of its start (03 R78;
05 R105). -/
def Thread.startMsg (t : Thread) (clk : Nat) (hdr : Word) (pay : List Word) (pc : Word) (sup : Bool) : Thread :=
  { t with
    x := Vector.ofFn fun i =>
      if i.val = 1 then hdr else if 2 ≤ i.val ∧ i.val ≤ 8 then recWord pay (i.val - 2) else t.x[i]
    pc := pc
    mode := sup
    run := .running
    pace := []
    fetch := []
    lastPc := none
    ready := clk + 3 }

/-- A message taken from a core's inbound buffer; what is spilled for the core follows (15 R350). -/
def takeInbox (c : CoreId) (m : Msg) (s : State) : State :=
  let s := s.modCore c fun k => { k with inbox := k.inbox.erase m }
  match c with
  | .scalar cl n =>
    (match s.shareOfCore? cl n with
     | some sh => drainSpill sh.gang sh.rank s
     | none => s)
  | .landing _ _ => s

/-- A context starts on a message, with the acquire of R78. What it has loaded lands first, as older writes of
x1 to x8 do (02 R61). -/
def startOn (c : CoreId) (k : Nat) (m : Msg) (hdr : Word) (pay : List Word) (pc : Word) (s : State) : State :=
  let p := c.place k
  let s := takeInbox c m (settleMerges p (forceLoads p s))
  let s := s.modThread p fun t => t.startMsg s.clk hdr pay pc (s.supervisorCore c)
  noteAcquire p (acquireAt (s.agent p) .pkg s)

/-- HANDLER_START: selection starts a handler on an idle context, which nothing else stops (R78; 01 R21). -/
def execHandlerStart (c : CoreId) (k : Fin 4) (s : State) : Host.Outcome State Fault Refusal :=
  .next <|
    if !selects c k s || (oldest k 15 (s.core c).inbox).isSome then s
    else match selectChan c k s with
      | none => s
      | some ch =>
        match (s.core c).inbox.find? fun m => hChan m.hdr == ch && !hwOp m && forCtx m k with
        | none => s
        | some m =>
          let e := (((s.core c).tab)[ch]?).getD HEntry.blank
          let s := s.modCore c fun x => { x with hptr := (ch + 1) % 16 }
          startOn c k m m.hdr m.pay e.pc s

/-- DIRECT_START: a channel-15 message starts an idle context, its presence bits cleared (R78; 14
R319) and, on a landing core, its layout table (05 R118). A payload word that a COUNT below 3 leaves out reads as 0, for which the manual gives no value.
DESIGN CHOICE (log 75). -/
def execDirectStart (c : CoreId) (k : Fin 4) (s : State) : Host.Outcome State Fault Refusal :=
  .next <|
    if !selects c k s then s
    else match oldest k 15 (s.core c).inbox with
      | none => s
      | some m =>
        (startOn c k m m.hdr [recWord m.pay 1, recWord m.pay 2] (recWord m.pay 0) s).modThread (c.place k)
          fun t => { t with
            qpres := 0
            lay := match c with
              | .scalar _ _ => t.lay
              | .landing _ _ => List.replicate 64 (0, 0) }

/-! ### MREQ replies (03 R85) -/

/-- The agent that reads for an MREQ: its thread, as it was at issue. -/
def mreqAgent (m : MReq) (s : State) : Agent where
  gang := m.gang
  rank := m.rank
  cl := m.place.cluster?
  die := m.place.die
  user := m.user
  direct := m.place.engine == .landing
  col := s.colOf m.place

/-- What the reads of an MREQ come to. -/
inductive MreqAns
  | words (ws : List Word)
  | failed
  | missed (va : Word) (reason level : Nat)
  | held
  deriving DecidableEq, Repr

/-- n doublewords from va for an MREQ, each as LD.D with hint 0. -/
def mreqRead (g : Agent) : Nat → Word → List Word → State → MreqAns × State
  | 0, _, acc, s => (.words acc.reverse, s)
  | n + 1, va, acc, s =>
    match route g va 8 .read s with
    | (.bad _, s) => (.failed, s)
    | (.missed r l, s) => (.missed va r l, s)
    | (.held, s) => (.held, s)
    | (.to t, s) =>
      if dataBad s t then (.failed, s)
      else
        let r := readTarget g va t 8 .normal false s
        mreqRead g n (va + 8) (ofN r.1 :: acc) r.2

/-- The reply message of an MREQ, with COUNT words: those read, or ERR and words of 0 (R85; log 25). -/
def mreqMsg (m : MReq) (sh : Share) (ws : Option (List Word)) (src : Nat) : Msg :=
  let n := rqCount m.ctl
  let h := mkHeader 1 (wbits m.ctl 3 0) n 0 (wbits m.ctl 15 4) (.scalar sh.launch (rqCore m.ctl)) (rqCtx m.ctl)
  let h := if ws.isSome then h else setBit h 41 true
  { hdr := withSrc h src, pay := ws.getD (List.replicate n 0) }

/-- An MREQ's reply is sent to its share; SRCID, which the manual does not give, is free. -/
def mreqSend (m : MReq) (ws : Option (List Word)) (s : State) : State :=
  let s := dropMiss (.mreq m.n) { s with mreqs := s.mreqs.filter (·.n != m.n) }
  match s.share? m.gang m.rank with
  | none => s
  | some sh =>
    let f := freshWord s
    meshSend { gang := m.gang, src := none, rank := some m.rank,
               cargo := .msg (mreqMsg m sh ws (f.1.toNat % 65536)) } f.2

/-- MREQ_REPLY: the words of an MREQ are read after the thread's earlier stores to them, and sent (R85); a
failed walk goes to the pager. -/
def execMreqReply (n : Nat) (s : State) : Host.Outcome State Fault Refusal :=
  .next <|
    match s.mreqs.find? (·.n == n) with
    | none => s
    | some m =>
      let k := rqCount m.ctl
      if !s.shareLive m.gang m.rank then s
      else
        let go := fun (s : State) =>
          let s := drain (fun e => e.place == m.place && meets e.va.toNat e.size m.addr.toNat (8 * k)) (fun _ => 3) s
          match mreqRead (mreqAgent m s) k m.addr [] s with
          | (.words ws, s) => mreqSend m (some ws) s
          | (.failed, s) => mreqSend m none s
          | (.missed va r l, s) => addMiss (mreqAgent m s) (.mreq n) va .read r l s
          | (.held, s) => s
        match s.missOf (.mreq n) with
        | none => go s
        | some x =>
          match x.st with
          | .killed => mreqSend m none s
          | .fresh => s
          | .token _ => s

/-! ### RPUT arrivals (14 R321) -/

/-- The order in which writes of one clk are applied, by sender (14 R321). A thread that has been saved since it sent
its write stands in it at its launch cluster. DESIGN CHOICE (log 93). -/
def senderKey (s : State) (x : Parcel) : Nat :=
  let on := fun (cl : Nat) => if cl < 1000 then cl else ((s.share? x.gang (cl - 1000)).map (·.launch)).getD 0
  match x.src with
  | some (.ctx cl c k) => on cl * 100000 + c * 4 + k
  | some (.lane cl e sl ln) => on cl * 100000 + 1000 + (e * 16 + sl) * 64 + ln
  | some (.lctx l c k) => 20000000 + (l * 48 + c) * 4 + k
  | none => 0

/-- Whether an RPUT can arrive: its share is there, or its spill queue has room beside `n` more of the same clk. -/
def rputReady (n : Nat) (x : Parcel) (s : State) : Bool :=
  parcelLost x s ||
  (match parcelShare x s with
   | some sh => if sh.saved.isSome then decide (sh.spill.length + n < 4096) else s.live sh && sh.spill.isEmpty
   | none => true)

/-- The first RPUT of a queue that can arrive. -/
def firstRput (acc : List Parcel) (s : State) : List Parcel → List Parcel → Option Parcel
  | _, [] => none
  | seen, x :: xs =>
    match x.cargo with
    | .msg _ => firstRput acc s seen xs
    | .mreq _ => firstRput acc s seen xs
    | .rput _ _ _ =>
      let n := (acc.filter fun y => (destOf y s).2.1 == (destOf x s).2.1).length
      if seen.any (sameDest s x) || behind x s || !rputReady n x s then firstRput acc s (x :: seen) xs else some x

/-- The RPUTs that a list of queues gives up in one clk. -/
def takeRputs : List OutQ → List Parcel → State → List Parcel × State
  | [], acc, s => (acc, s)
  | q :: qs, acc, s =>
    match firstRput acc s [] (s.outq q) with
    | some x => takeRputs qs (acc ++ [x]) (dropParcel q x s)
    | none => takeRputs qs acc s

/-- An RPUT arrives. -/
def landRput (x : Parcel) (s : State) : State :=
  if parcelLost x s then s
  else match x.cargo with
    | .msg _ => s
    | .mreq _ => s
    | .rput d i v =>
      match parcelShare x s with
      | some sh =>
        if sh.saved.isSome then spillPut sh x s else landQ x.reply (.ctx sh.cl d.coreNum d.ctxNum) i v s
      | none => if (s.thread d).gang = x.gang then landQ x.reply d i v s else s

/-- RPUT_ARRIVAL: RPUTs and gatherer replies of these queues arrive in one clk (R321). -/
def execRputArrival (srcs : List OutQ) (s : State) : Host.Outcome State Fault Refusal :=
  .next <|
    let r := takeRputs srcs [] s
    (sortBy (senderKey s) r.1).foldl (fun s x => landRput x s) r.2

/-! ### Lends (19 R384) -/

/-- A landing-core context lent to a gang and rank and started directly, with the acquire of a start (03 R78). -/
def lendStart (x : Parcel) (m : Msg) (r l c k : Nat) (s : State) : State :=
  let p : Place := .lctx l c k
  let s := settleMerges p s
  let s := if (lentOn l c s).isEmpty then s.modCore (.landing l c) fun y =>
      { y with tab := List.replicate 16 HEntry.blank, hptr := 0, owner := x.gang } else s
  let s := { s with lent := s.lent ++ [(p.key, x.gang, r)] }
  let s := s.modThread p fun t =>
    { t.startMsg s.clk (withSrc m.hdr hostSrc) [recWord m.pay 1, recWord m.pay 2] (recWord m.pay 0) false
      with gang := x.gang, rank := r, qpres := 0, lay := List.replicate 64 (0, 0) }
  noteAcquire p (acquireAt (s.agent p) .pkg s)

/-- The lends that can be served: one that had to wait follows the lends of its landing core that still wait
(19 R384). -/
def readyLends (s : State) : List (Nat × Nat) → List Parcel → List (Parcel × Msg × Nat × Nat × Nat × Nat)
  | _, [] => []
  | seen, x :: xs =>
    match x.cargo, x.rank with
    | .msg m, some r =>
      (match hDest m.hdr with
       | some (.landing l c) =>
         if x.waits && seen.contains (l, c) then readyLends s seen xs
         else match lendCtx x m.hdr l c s with
           | some k => (x, m, r, l, c, k) :: readyLends s seen xs
           | none => readyLends s ((l, c) :: seen) xs
       | _ => readyLends s seen xs)
    | _, _ => readyLends s seen xs

/-- The first lend that can be served. -/
def nextLend (s : State) (seen : List (Nat × Nat)) (xs : List Parcel) :
    Option (Parcel × Msg × Nat × Nat × Nat × Nat) := (readyLends s seen xs).head?

/-- LEND: the dispatcher serves a waiting lend (R384). -/
def execLend (s : State) : Host.Outcome State Fault Refusal :=
  .next <|
    match nextLend s [] s.disp.lends with
    | none => s
    | some (x, m, r, l, c, k) =>
      lendStart x m r l c k (modDisp (fun d => { d with lends := d.lends.erase x }) s)

end Sys2Proof.Machine
end

