-- ==== Sys2Proof/Machine/MemEv.lean ====
section
/-!
DEFINITION. The memory path's events: requests at a home, acknowledgements and replies, writebacks and
compression, captured rows, and the moves of stores and copies (09 R204-R212; 13 R302-R312).
-/

namespace Sys2Proof.Machine

/-! ### Requests at the home (09 R207) -/

/-- The requester number a request from a place and address has at a landing (09 Table 09-4). -/
def requesterNum (p : Place) (va : Word) : Nat :=
  match p with
  | .lctx l c _ => 256 + l * 48 + c
  | .ctx cl _ _ => cl / 48 * 64 + sliceOf va.toNat
  | .lane cl _ _ _ => cl / 48 * 64 + sliceOf va.toNat

/-- The requester number of a request on the memory path. -/
def reqNum (s : State) (r : MemReq) : Nat :=
  match r with
  | .load p n =>
    (match (s.thread p).loads.find? (·.n == n) with
     | some a => requesterNum p a.va
     | none => 0)
  | .store n =>
    match s.stores.find? (·.n == n) with
    | some e => requesterNum e.place e.va
    | none => 0

/-- The requester numbers of the host and of Novilo (09 Table 09-4). -/
def hostNum : Nat := 640
/-- Novilo's. -/
def noviloNum : Nat := 641

/-- The place of a requester among those of a clk: from the rotating pointer upwards (09 R207). -/
def ptrOrder (clk n : Nat) : Nat := (n + 642 - clk % 642) % 642

/-- The order of a request among those of one clk. -/
def reqOrder (s : State) (r : MemReq) : Nat := ptrOrder s.clk (reqNum s r)

/-- Whether store n may move on: it stands at the stage, and no store that goes before it stands there or behind
(13 R304). -/
def mayMove (n : Nat) (st : Stage) (s : State) : Bool :=
  match s.stores.find? (fun e => e.n == n && e.stage == st) with
  | none => false
  | some e => s.stores.all fun x => !x.before e

/-- Perform the accesses that lower lanes of the same word have under way to the same bytes, in their order (09 R218,
R219). -/
def performLanes (p : Place) (a : Access) (s : State) : State :=
  let xs := (s.places.filter fun q => q.crew == p.crew && q != p).flatMap fun q =>
    ((s.thread q).loads.filter fun x =>
      x.clk == a.clk && decide (x.n < a.n) && x.val.isNone && x.touches a.va a.tgt a.size).map fun x => (q, x)
  (sortBy (·.2.n) xs).foldl (fun s x => performAccess x.1 x.2 (performOlder x.1 x.2 s)) s

/-- One request performed at its home. -/
def performReq (s : State) (r : MemReq) : State :=
  match r with
  | .load p n =>
    (match (s.thread p).loads.find? (·.n == n) with
     | some a => performAccess p a (performOlder p a (performLanes p a s))
     | none => s)
  | .store n => if mayMove n .slice s then toHome n s else s

/-- HOME_REQUEST: the requests that reach their homes in this clk, one after another from the rotating
pointer (R207). -/
def execHomeRequest (rs : List MemReq) (s : State) : Host.Outcome State Fault Refusal :=
  .next ((sortBy (reqOrder s) rs).foldl performReq s)

/-- INVALIDATION_ACKNOWLEDGE: a die acknowledges the invalidation of a store (R205). -/
def execInvalidationAcknowledge (n : Nat) (die : Fin 4) (s : State) : Host.Outcome State Fault Refusal :=
  .next (ackStore n die.val s)

/-- MEMORY_REPLY: a performed result lands in its register, or a store's acknowledgement reaches its slice
(R205, R218). -/
def execMemoryReply (r : MemReq) (s : State) : Host.Outcome State Fault Refusal :=
  .next <|
    match r with
    | .load p n => landAccess p n s
    | .store n => acknowledge n s

/-! ### Writebacks and compression (09 R209) -/

/-- The compressed bit string of a line with k delta bits, bursts of 32 bytes (09 R209). -/
def lineString (d : BitVec 1024) : Nat :=
  let k := deltaBits d
  (List.range 31).foldl (fun v j => v + lowBits (lineDelta d (j + 1)) k * 2 ^ (40 + j * k))
    (k + lineWordAt d 0 * 256)

/-- Word j that a bit string of a line gives back (09 R209). -/
def stringWord (v j : Nat) : Nat :=
  let k := v % 256
  let w0 := v / 256 % 2 ^ 32
  if j = 0 then w0 else lowBits ((w0 : Int) + sext (v / 2 ^ (40 + (j - 1) * k)) k) 32

/-- LINE_WRITEBACK (R209). -/
def execLineWriteback (l : Fin 8) (line : Nat) (s : State) : Host.Outcome State Fault Refusal :=
  .next (if s.homeLanding (line * 128) = l.val then writeBack l.val line s else s)

/-! ### Captured rows (09 R211, R212) -/

/-- The lines of a row of a landing. -/
def rowLines (l row : Nat) (s : State) : List Nat :=
  ((List.range 64).map fun i => row * 64 + i).filter (fun n => s.rowOf n == row && s.homeLanding (n * 128) == l) ++
  ((List.range 16).map fun i => row * 16 + i).filter fun n => s.rowOf n == row && s.homeLanding (n * 128) == l

/-- The oldest capture of a landing released: its changed lines are written back, and they stay cached under the
ordinary replacement (09 R212). -/
def releaseRow (l : Nat) (s : State) : State :=
  match (s.landing l).pinned with
  | [] => s
  | row :: rows =>
    let s := (rowLines l row s).foldl (fun s n => writeBack l n s) s
    s.modLanding l fun d => { d with pinned := rows, rel := d.rel + 1 }

/-- A row captured: its lines are read into the memory-side cache and pinned there, the oldest capture released where
the reserve is full (09 R211-R213). -/
def captureRow (l row : Nat) (s : State) : State :=
  let s := s.modLanding l fun d => { d with capt := d.capt + 1 }
  if (s.landing l).pinned.contains row then s
  else
    let s := if 4096 ≤ (s.landing l).pinned.length then releaseRow l s else s
    let s := (rowLines l row s).foldl (fun s n => (homeServe n s).2.2) s
    s.modLanding l fun d => { d with pinned := d.pinned ++ [row] }

/-- ROW_CAPTURE: an activation of a row completes; the one that brings its count in the window to 512 makes
it a capture (R211). -/
def execRowCapture (l : Fin 8) (row : Nat) (s : State) : Host.Outcome State Fault Refusal :=
  .next <|
    let n := FMap.getD (s.landing l.val).rows row 0 + 1
    let s := s.modLanding l.val fun d => { d with rows := FMap.put d.rows row n }
    if n = 512 then captureRow l.val row s else s

/-- REFRESH_WINDOW_START: the counts are cleared (R211). -/
def execRefreshWindowStart (l : Fin 8) (s : State) : Host.Outcome State Fault Refusal :=
  .next (s.modLanding l.val fun d => { d with rows := [] })

/-! ### Moves -/

/-- A move inside the memory path: a store goes on, a copy is replaced or dropped (09 R196, R204). -/
def moveStep (m : Move) (s : State) : State :=
  match m with
  | .toPort n => if mayMove n .issued s then toPort n s else s
  | .toSlice n => if mayMove n .port s then toSlice n s else s
  | .dropL1 cl g t => s.modCluster cl fun c => { c with l1 := c.l1.filter fun l => !(l.gang == g && l.tag == t) }
  | .dropIc cl g t => s.modCluster cl fun c => { c with ic := c.ic.filter fun l => !(l.gang == g && l.tag == t) }
  | .dropSlice die line => { s with slices := FMap.del s.slices (copyKey line die) }
  | .dropTlb die slice g va =>
    { s with tlb := s.tlb.filter fun e => !(e.die == die && e.slice == slice && e.gang == g && e.va == va) }
  | .dropMsc l line => s.modLanding l fun d =>
      { d with msc := if FMap.get? d.msc line = some false ∧ d.pinned.contains (s.rowOf line) = false
                      then FMap.del d.msc line else d.msc }

end Sys2Proof.Machine
end

