-- ==== Sys2Proof/Machine/PagerEv.lean ====
section
/-!
DEFINITION. Page faults at the pager cores: tokens, fault messages and replies (15 R344-R347).
-/

namespace Sys2Proof.Machine

/-- The requester code of a failed walk (15 Table 15-4). -/
def askerCode : Asker → Nat
  | .thread p => if p.engine = .landing then 3 else 0
  | .mreq _ => 0
  | .stream _ _ => 1
  | .copy _ => 1
  | .bank _ => 2

/-- The failed walks of a cluster that hold a token. -/
def outstanding (cl : Nat) (s : State) : List Miss :=
  s.misses.filter fun m => m.cl == cl &&
    match m.st with
    | .token _ => true
    | .fresh => false
    | .killed => false

/-- The fault message of a failed walk under a token; the requester detail is free (15 Table 15-4). -/
def faultMsg (m : Miss) (tok core : Nat) (detail : Word) : Msg :=
  { hdr := withSrc (mkHeader 3 14 4 0 3 (.scalar m.cl core) 4) hostSrc
    pay := [m.va,
            ofN (tok % 2 ^ 32 + m.access % 4 * 2 ^ 32 + m.reason % 4 * 2 ^ 34 + m.level % 4 * 2 ^ 36 +
              b2n m.user * 2 ^ 38),
            ofN (m.gang % 2 ^ 32 + m.rank % 2 ^ 16 * 2 ^ 32),
            ofN (askerCode m.asker + detail.toNat % 2 ^ 62 * 4)] }

/-- The first of a list that satisfies a test, changed. -/
def changeFirst {α : Type} (p : α → Bool) (f : α → α) : List α → List α
  | [] => []
  | x :: xs => if p x then f x :: xs else x :: changeFirst p f xs

/-- Whether a failed walk waits for a token on a cluster. -/
def freshOn (cl : Nat) (m : Miss) : Bool := m.cl == cl && m.st == MissSt.fresh

/-- FAULT_TOKEN_ASSIGN: the oldest failed walk of a cluster that waits for a token receives one, and its
fault message goes to the next pager core (R344). -/
def execFaultTokenAssign (cl : Nat) (s : State) : Host.Outcome State Fault Refusal :=
  .next <|
    match s.misses.find? (freshOn cl) with
    | none => s
    | some m =>
      if 256 ≤ (outstanding cl s).length then s
      else
        let c := s.cluster cl
        let n := s.pkg.eopra.pagers
        let core := 32 - n + c.pagerTurn % n
        let f := freshWord s
        let s := { f.2 with misses := changeFirst (freshOn cl) (fun m => { m with st := .token c.tokCtr }) s.misses }
        let s := s.modCluster cl fun c =>
          { c with tokCtr := (c.tokCtr + 1) % 2 ^ 32, pagerTurn := (c.pagerTurn + 1) % n }
        meshSend { gang := 0, src := none, rank := none, cargo := .msg (faultMsg m c.tokCtr core f.1) } s

/-- The hardware operation with a TAG that stands first among a core's channel-14 messages
(15 R346). -/
def hwHead (c : CoreId) (tag : Nat) (s : State) : Option Msg :=
  match (s.core c).inbox.find? fun m => hChan m.hdr == 14 with
  | some m => if hTag m.hdr = tag then some m else none
  | none => none

/-- Whether a hardware operation's header has the form its rule gives: KIND 3 and COUNT 2. -/
def hwForm (m : Msg) : Bool := hKind m.hdr == 3 && hCount m.hdr == 2

/-- Whether a failed walk of a cluster stands under a token. -/
def tokenOn (cl t : Nat) (m : Miss) : Bool := m.cl == cl && m.st == MissSt.token t

/-- A pager's verdict on a token: *retry* lets the access walk again, *kill* fails it, anything else has no
effect (15 R345). -/
def pagerVerdict (cl t v : Nat) (s : State) : State :=
  if v = 1 then { s with misses := s.misses.filter fun m => !tokenOn cl t m }
  else if v = 2 then { s with misses := changeFirst (tokenOn cl t) (fun m => { m with st := .killed }) s.misses }
  else s

/-- PAGER_REPLY: the hardware of a scalar core takes a pager's reply (R345, R346). -/
def execPagerReply (cl c : Nat) (s : State) : Host.Outcome State Fault Refusal :=
  .next <|
    match hwHead (.scalar cl c) 2 s with
    | none => s
    | some m =>
      let s := takeInbox (.scalar cl c) m s
      if hwForm m then pagerVerdict cl (recWord m.pay 0).toNat (recWord m.pay 1).toNat s else s

end Sys2Proof.Machine
end

