-- ==== Sys2Proof/Machine/Preempt.lean ====
section
/-!
DEFINITION. Pre-emption and restore: the command, the save of a share and its save block, the restore from
it, and the release of a launch or restore (03 R81; 15 R347-R353).
-/

namespace Sys2Proof.Machine

/-! ### The command (15 R348) -/

/-- PREEMPTION_COMMAND: the hardware of a scalar core takes a pre-emption command; it stops the share of the
gang it names on that cluster. One for a gang with SAVE = 0, with a lent context (19 R384) or with no such
share is discarded; one for a gang not yet released waits (R348). -/
def execPreemptionCommand (cl c : Nat) (s : State) : Host.Outcome State Fault Refusal :=
  .next <|
    match hwHead (.scalar cl c) 1 s with
    | none => s
    | some m =>
      let g := (recWord m.pay 1).toNat
      let go := takeInbox (.scalar cl c) m s
      if !hwForm m || recWord m.pay 0 != 1 then go
      else match s.gang? g, (s.sharesOf g).find? fun sh => sh.cl == cl && sh.saved.isNone with
        | some x, some sh =>
          if x.desc.save = 0 || s.lent.any (·.2.1 == g) then go
          else match x.phase with
            | .placed => s
            | .loaded => s
            | .queued => go
            | .saved => go
            | .running => (go.modGang g fun x => { x with phase := .saving }).modShare g sh.rank
                fun y => { y with stopped := true }
            | .saving => go.modShare g sh.rank fun y => { y with stopped := true }
        | _, _ => go

/-! ### The places of a saved share -/

/-- The cluster number under which a saved share's places stand. -/
def virtualCl (rank : Nat) : Nat := 1000 + rank

/-- A place moved from a cluster to another, its wave slot by a function. -/
def movePlace (old new : Nat) (slot : Nat → Nat → Nat) (p : Place) : Place :=
  match p with
  | .ctx cl c k => if cl = old then .ctx new c k else p
  | .lane cl e sl ln => if cl = old then .lane new e (slot e sl) ln else p
  | .lctx _ _ _ => p

/-- The places that a gang's bays, triggers, MREQs and parcels on their way name, moved: later messages of a thread
still follow its earlier ones (03 R75; 14 R321). -/
def moveRefs (g : Nat) (f : Place → Place) (s : State) : State :=
  let bay := fun (y : Bay) => { y with fifo := y.fifo.map fun w => { w with place := f w.place } }
  let tl := fun (t : Timeline) => { t with trigs := t.trigs.map fun x => { x with src := f x.src } }
  let s := (s.sharesOf g).foldl (fun s sh => s.modShare g sh.rank fun sh =>
    { sh with bays := sh.bays.map fun o => o.map bay, tls := sh.tls.map tl }) s
  moveSenders (fun x => x.gang == g) f
    { s with mreqs := s.mreqs.map fun m => if m.gang = g then { m with place := f m.place } else m }

/-- The places where a share's threads stand. -/
def State.sharePlaces (s : State) (sh : Share) : List Place :=
  s.places.filter fun p => p.cluster? == some sh.cl && (s.thread p).gang == sh.gang && (s.thread p).rank == sh.rank

/-! ### What is saved of a thread (15 R349, Table 15-7) -/

/-- How a saved thread goes on: a word in a named state issues again, except where it has had an effect that
issuing it again would repeat, and a place in a FIFO or among the waits for a seal is kept; a thread that ends
goes on ending (15 R349; 11 R261). -/
def savedRun : Run → Run
  | .fetchSleep => .running
  | .wait (.exit d) w => .wait (.exit d) w
  | .wait i w =>
    match w with
    | .waiting 2 _ => .running
    | .posting 0 => .running
    | .sleep => .running
    | .sending => .running
    | .queuing _ => .running
    | .migrating _ => .running
    | w => .wait i w
  | r => r

/-- STATE of a context record. -/
def stateCode : Run → Nat
  | .running => 0
  | .idle => 1
  | .retired => 9
  | .fetchSleep => 8
  | .wait _ w =>
    match w with
    | .waiting _ _ => 2
    | .sending => 3
    | .allocating _ => 4
    | .queuing _ => 5
    | .posting _ => 6
    | .draining => 7
    | .migrating _ => 2
    | .sleep => 8
    | .answered _ _ _ => 2

/-- A thread as it is saved: pending writes complete, nothing fetched ahead. -/
def Thread.saved (t : Thread) : Thread :=
  { t.landAll with
    run := savedRun t.run
    fetch := []
    ready := 0
    busy := []
    lastPc := none
    yieldUntil := 0
    yieldFor := []
    strm := t.strm.map fun o => o.map fun m => { m with ahead := [] } }

/-- The reply target as its word of SYS (log 27). -/
def replyWord (r : Option Reply) : Nat :=
  match r with
  | none => 0
  | some x => 1 + x.core * 2 ^ 8 + x.ctx * 2 ^ 16 + x.idx * 2 ^ 24

/-- The binding of stream register i. -/
def Thread.strmAt (t : Thread) (i : Nat) : Option Strm := (t.strm[i]?).getD none

/-- The bytes of a context record up to its reserved part (15 Table 15-7). -/
def contextRecord (t : Thread) (run : Run) : List Byte :=
  ((List.range 32).flatMap fun i => leBytes 8 (t.x.toList.getD i 0).toNat) ++
  ((List.range 32).flatMap fun i => leBytes 4
    (if 28 ≤ i && (t.strmAt (i - 28)).isSome then 0 else (t.f.toList.getD i 0).toNat)) ++
  leBytes 16 t.p.toNat ++
  ((List.range 32).flatMap fun i => leBytes 8 (t.q.toList.getD i 0).toNat) ++
  leBytes 8 (t.qpres.toNat + t.qout.toNat * 2 ^ 32) ++ leBytes 8 t.pc.toNat ++ leBytes 8 (stateCode run) ++
  ([t.fmode, t.fflags.setWidth 64, t.nbv, t.mgrec, t.guardst, t.status, t.cause, t.epc, t.eval, t.eguard,
    t.escr, ofN (replyWord t.reply)].flatMap fun w => leBytes 8 w.toNat) ++
  (List.range 4).flatMap fun i =>
    match t.strmAt i with
    | some m => ((List.range 8).flatMap fun j => leBytes 8 (recWord m.record j).toNat) ++ leBytes 16 m.pos
    | none => List.replicate 80 0

/-- The reply target that its word of SYS gives. -/
def replyOf (w : Word) : Option Reply :=
  if wbit w 0 then some { core := wbits w 15 8, ctx := wbits w 23 16, idx := wbits w 31 24 } else none

/-- How a thread goes on by the STATE of its context record; one in a named state is at its instruction. -/
def runOf (code : Nat) (r : Run) : Run :=
  match code, r with
  | 0, _ => .running
  | 1, _ => .idle
  | 9, _ => .retired
  | _, .wait i w => .wait i w
  | _, _ => .running

/-- The binding that a STRM field gives: its record and its position, with what the device keeps of the
binding beside them. -/
def strmOf (ws : List Word) (pos : Nat) (o : Option Strm) : Option Strm :=
  if ws.all (· == 0) then none
  else match o with
    | some m => some { m with record := ws, pos := pos }
    | none => some { record := ws, pos := pos, ahead := [], push := [], base := 0, sealed := true, failAt := none,
                     stale := false }

/-- A thread with what its context record holds, reserved fields read as 0 (00 R12; 15 R351). -/
def readContext (a : Nat) (t : Thread) (s : State) : Thread :=
  let w := fun (o n : Nat) => Memory.read s.dram (a + o) n
  let sys := fun (i : Nat) => ofN (w (0x2A8 + 8 * i) 8)
  let strm := (List.range 4).map fun i =>
    strmOf ((List.range 8).map fun j => ofN (w (0x308 + 80 * i + 8 * j) 8)) (w (0x348 + 80 * i) 16) (t.strmAt i)
  { t with
    run := runOf (w 0x2A0 1) t.run
    strm := strm
    reply := replyOf (sys 11)
    x := Vector.ofFn fun i => ofN (w (8 * i.val) 8)
    f := Vector.ofFn fun i => BitVec.ofNat 32 (w (0x100 + 4 * i.val) 4)
    p := BitVec.ofNat 96 (w 0x180 16)
    q := Vector.ofFn fun i => ofN (w (0x190 + 8 * i.val) 8)
    qpres := BitVec.ofNat 32 (w 0x290 4)
    qout := BitVec.ofNat 32 (w 0x294 4)
    pc := ofN (w 0x298 8)
    fmode := sys 0 &&& 15
    fflags := (sys 1).setWidth 5
    nbv := sys 2 &&& 3
    mgrec := sys 3
    grem := wbits (sys 4) 4 1
    gcnd := wbit (sys 4) 0
    mode := wbit (sys 5) 0
    pmode := wbit (sys 5) 1
    cause := sys 6
    epc := sys 7
    eval := sys 8
    eguard := sys 9 &&& 31
    escr := sys 10 }

/-! ### The share block (15 Table 15-6) -/

/-- The address of a context record. -/
def contextAt (block core ctx : Nat) : Nat := block + 0x10000 + (core * 4 + ctx) * 0x800

/-- The regions of a block without a layout, as the share's holdings use them. -/
def freeRegions (sh : Share) (waves : List (Nat × Nat × List Nat)) (spills : Nat) : List (Nat × Nat) :=
  [(0, 0x1000)] ++ sh.cores.map (fun c => (0x1000 + c * 0x400, 0x400)) ++
  (waves.flatMap fun w => (0x50000 + (w.1 * 16 + w.2.1) * 0x8000, 0x1000) ::
    w.2.2.map fun ln => (0x50000 + (w.1 * 16 + w.2.1) * 0x8000 + 0x1000 + 448 * ln, 448)) ++
  [(0x150000, spills * 64), (0x190000, 0x10000)] ++
  (if sh.bank then [(0x430000, 0x10000)] else [])

/-- A bank's registers written to a block: bits, NSEG, TAG, EXP and accumulators. -/
def writeBankBlock (a : Nat) (b : Bank) (s : State) : State :=
  let s := (List.range 16).foldl (fun s i =>
    let z := b.z.toList.getD i ZVal.blank
    let side := a + 0x220000 + i * 0x19000
    let s := storeBytes (a + 0x200000 + i * 0x2000) (leBytes 8192 z.bits.toNat) s
    let s := storeBytes side (leBytes 8 z.nseg) s
    let s := storeBytes (side + 0x1000) ((List.range 32768).map fun j => BitVec.ofNat 8 (FMap.getD z.tag j 0)) s
    storeBytes (side + 0x9000) ((List.range 32768).flatMap fun j => leBytes 2 (FMap.getD z.exp j 0)) s) s
  storeBytes (a + 0x3B0000) ((List.range 65536).flatMap fun j => leBytes 8 (FMap.getD b.acc j 0).toNat) s

/-- The entries of a map of n values that are not 0. -/
def sparse (n : Nat) (v : Nat → Nat) : FMap Nat :=
  (List.range n).filterMap fun j => if v j = 0 then none else some (j, v j)

/-- A bank with the registers a block holds. -/
def readBankBlock (a : Nat) (b : Bank) (s : State) : Bank :=
  let w := fun (o n : Nat) => Memory.read s.dram (a + o) n
  { b with
    z := Vector.ofFn fun i =>
      let side := 0x220000 + i.val * 0x19000
      { bits := BitVec.ofNat 65536 (w (0x200000 + i.val * 0x2000) 8192)
        nseg := w side 8
        tag := sparse 32768 fun j => w (side + 0x1000 + j) 1
        exp := sparse 32768 fun j => w (side + 0x9000 + 2 * j) 2 }
    acc := (sparse 65536 fun j => w (0x3B0000 + 8 * j) 8).map fun e => (e.1, ofN e.2) }

/-- The fault summary at offset 0x100 of the gang header: FENCED, then the completion record's bytes 0x04 to
0x1F (16 R371). -/
def summaryBytes (m : Summary) : List Byte :=
  leBytes 4 (b2n m.fenced) ++ leBytes 4 m.count ++ leBytes 8 m.epc.toNat ++ leBytes 8 m.eval.toNat ++
  leBytes 2 m.cause ++ leBytes 2 m.rank ++ leBytes 1 m.core ++ leBytes 1 m.ctx ++ leBytes 1 m.lane ++
  leBytes 1 m.eng

/-- The fault summary that a gang header holds. -/
def readSummary (a : Nat) (s : State) : Summary :=
  let w := fun (o n : Nat) => Memory.read s.dram (a + o) n
  { fenced := w 0 4 % 2 == 1
    count := w 4 4
    epc := ofN (w 8 8)
    eval := ofN (w 16 8)
    cause := w 24 2
    rank := w 26 2
    core := w 28 1
    ctx := w 29 1
    lane := w 30 1
    eng := w 31 1 }

/-! ### The save (15 R349) -/

/-- Whether a share's streams and bank let it be saved: pushes performed, and no bank operation under way but
a rotation that waits on a neighbour (15 R349 step 5; 12 R287). -/
def saveReady (sh : Share) (s : State) : Bool :=
  (s.sharePlaces sh).all (fun p => !(s.thread p).pushing) &&
  (!sh.bank ||
    let b := s.bankOf sh.cl
    b.tail.isEmpty &&
    (match b.run with
     | none => true
     | some _ => rotWaits sh.cl sh s))

/-- A bank as it is saved, its clks counted from the save. -/
def Bank.saved (b : Bank) (f : Place → Place) (clk : Nat) : Bank :=
  let op := fun (o : BankOp) => { o with place := f o.place }
  { b with
    queue := b.queue.map op
    run := b.run.map fun r => { r with op := op r.op, ends := r.ends - clk, till := r.till - clk }
    dueA := b.dueA - clk
    dueB := b.dueB - clk
    wd := b.wd.map fun c => clk - c }

/-- A bay with its watchdog's count taken from the save, or set going again. -/
def Bay.shift (y : Bay) (clk : Nat) : Bay := { y with wd := y.wd.map fun c => clk - c }

/-- A bucket as it is saved: its remaining timeout (08 R195). -/
def Bucket.saved (b : Bucket) (f : Place → Place) (clk : Nat) : Bucket :=
  { b with
    t0 := 0
    tmo := b.t0 + b.tmo - clk
    entries := b.entries.map fun e => { e with place := f e.place } }

/-- Whether an asker's walk is one of a share's. -/
def askerOf (sh : Share) (cur : Option Copy) (s : State) : Asker → Bool
  | .thread p => (s.sharePlaces sh).contains p
  | .stream p _ => (s.sharePlaces sh).contains p
  | .bank cl => sh.bank && cl == sh.cl
  | .mreq n => s.mreqs.any fun m => m.n == n && m.gang == sh.gang && m.rank == sh.rank
  | .copy u =>
    u == .cluster sh.cl &&
    match cur with
    | some c => c.gang == sh.gang && c.rank == sh.rank
    | none => false

/-- Requests and posts of a share's threads that no unit has taken, dropped: their words issue again. -/
def dropPosted (ps : List Place) (s : State) : State :=
  { s with clusters := s.clusters.map fun e => (e.1, { e.2 with
      gal := e.2.gal.filter fun q => !ps.contains q.place
      steals := e.2.steals.filter fun x => !ps.contains x.thief
      posts := e.2.posts.filter fun q => !ps.contains q.entry.place }) }

/-- The inbound messages of a share's cores, as parcels to it; hardware operations stay with the core, whose hardware
takes them (15 R346). -/
def inboundOf (sh : Share) (s : State) : List Parcel :=
  sh.cores.flatMap fun c => ((s.core (.scalar sh.cl c)).inbox.filter fun m => !hwOp m).map fun m =>
    { gang := sh.gang, src := none, rank := some sh.rank, cargo := .msg m }

/-- The undelivered messages that name a share's cores by their physical position go to its spill queue as well
(03 R76). -/
def bindShare (sh : Share) (s : State) : State :=
  let mine := fun (x : Parcel) =>
    match x.cargo with
    | .msg m =>
      (match hDest m.hdr with
       | some (.scalar cl c) => x.rank.isNone && x.bound.isNone && decide (hAgent m.hdr < 2) && !hwOp m &&
           cl == sh.cl && sh.holdsCore c
       | _ => false)
    | .rput _ _ _ => false
    | .mreq _ => false
  mapParcels (fun x => if mine x then { x with bound := some (sh.gang, sh.rank) } else x) s

/-- The inbound messages of a share's cores, moved to its spill queue before what stands in it: that arrived later.
What has then no room there is in the mesh again, and so is what the cores have still to send (15 R349 step 4,
R350). -/
def spillInboxes (sh : Share) (s : State) : State :=
  let q := inboundOf sh s ++ sh.spill
  let out := sh.cores.flatMap fun c => (s.core (.scalar sh.cl c)).outq
  ({ s with mesh := q.drop 4096 ++ s.mesh ++ out }).modShare sh.gang sh.rank fun y => { y with spill := q.take 4096 }

/-- The accesses in flight of other threads to a share's scratchpad, performed there before the share leaves its
cluster (01 R28). -/
def settleInto (sh : Share) (s : State) : State :=
  let here := fun (a : Access) =>
    match a.tgt with
    | .spad cl _ _ g r => cl == sh.cl && g == sh.gang && r == sh.rank
    | _ => false
  s.places.foldl (fun s p =>
    ((s.thread p).loads.filter here).foldl (fun s a => performAccess p a (performOlder p a s)) s) s

/-- The waves of a share as (engine, slot, wave). -/
def State.shareWaves (s : State) (sh : Share) : List (Nat × Nat × Wave) :=
  sh.slots.filterMap fun x =>
    match s.wave? sh.cl x.1 x.2 with
    | some w => if w.gang = sh.gang then some (x.1, x.2, w) else none
    | none => none

/-- What pre-emption holds of a share whose accesses have been performed. -/
def savedOf (sh : Share) (s : State) : Saved :=
  let f := movePlace sh.cl (virtualCl sh.rank) fun _ sl => sl
  { threads := (s.sharePlaces sh).map fun p => (f p, (s.thread p).saved)
    waves := (s.shareWaves sh).map fun w => (w.1, w.2.1, { w.2.2 with fetch := [], lastPc := none, yieldUntil := 0, yieldFor := [] })
    cores := sh.cores.foldl (fun m c =>
      FMap.put m c { s.core (.scalar sh.cl c) with inbox := [], outq := [], divFree := 0, fdivFree := 0, nextIssue := 0 }) []
    bank := if sh.bank then some ((s.bankOf sh.cl).saved f s.clk) else none
    buckets := (((s.cluster sh.cl).buckets.filter fun b => b.st != .free && b.gang == sh.gang).map
      fun b => b.saved f s.clk)
    copies := (((s.cluster sh.cl).copies.filter fun c => c.gang == sh.gang && c.rank == sh.rank).map
      fun c => { c with place := f c.place }) }

/-- The poison marks of n bytes at one address put on those at another: bad data does not become good when it is
copied (15 R356). Both start a line. -/
def moveMarks (src dst n : Nat) (s : State) : State :=
  let old := fun (l : Nat) => decide (dst / 128 ≤ l) && decide (l < (dst + n) / 128)
  let new := s.pkg.poison.filter fun e => decide (src / 128 ≤ e.1) && decide (e.1 < (src + n) / 128)
  let kept := s.pkg.poison.filter fun e => !old e.1
  { s with pkg := { s.pkg with
      poison := new.foldl (fun m e => FMap.put m (e.1 - src / 128 + dst / 128) e.2) kept } }

/-- The block of a share written (15 R349 step 6, R353). -/
def writeBlock (g : Gang) (sh : Share) (s : State) : State :=
  let a := blockOf g sh.rank
  let waves := (s.shareWaves sh).map fun w => (w.1, w.2.1, (s.lanes sh.cl w.1 w.2.1).map (·.laneNum))
  let s0 := s
  let s := (freeRegions sh waves (min sh.spill.length 4096)).foldl (fun s r => writeFree (a + r.1) r.2 s) s
  let s := sh.contexts.foldl (fun s c =>
    let t := s0.thread (.ctx sh.cl c.1 c.2)
    storeBytes (contextAt a c.1 c.2) (contextRecord t.saved t.run) s) s
  let s := if sh.bank then writeBankBlock a (s.bankOf sh.cl) s else s
  moveMarks (spadMark sh.cl sh.spadBase) (a + 0x600000) sh.spadSize
    (storeBytes (a + 0x600000) (Memory.readBytes (s.cluster sh.cl).spad sh.spadBase sh.spadSize) s)

/-- A core that no share holds any more: the hardware operations in its inbound buffer stay (15 R346). -/
def bareCore (c : CoreId) (s : State) : State :=
  match (s.core c).inbox.filter hwOp with
  | [] => { s with cores := FMap.del s.cores c.key }
  | ms => { s with cores := FMap.put s.cores c.key { Core.blank with inbox := ms } }

/-- The share's holdings released (15 R349 step 7): its threads, waves, cores, buckets, copies and bank leave
the cluster, and no L1 line of the gang stays. -/
def releaseHoldings (sh : Share) (s : State) : State :=
  let ps := s.sharePlaces sh
  let ws := s.shareWaves sh
  let s := ps.foldl (fun s p => s.delThread p) s
  let s := ws.foldl (fun s w => { s with waves := FMap.del s.waves (waveKey sh.cl w.1 w.2.1) }) s
  let s := sh.cores.foldl (fun s c => bareCore (.scalar sh.cl c) s) s
  let mine := fun (b : Bucket) => b.st != .free && b.gang == sh.gang
  let n := ((s.cluster sh.cl).buckets.filter mine).length
  needPass (servePostings sh.cl n (s.modCluster sh.cl fun c =>
    { c with
      l1 := c.l1.filter (·.gang != sh.gang)
      buckets := c.buckets.map fun b => if mine b then Bucket.blank else b
      copies := c.copies.filter fun x => !(x.gang == sh.gang && x.rank == sh.rank)
      bank := if sh.bank then Bank.blank 0 0 else c.bank }))

/-- Whether every share of a gang has been saved. -/
def allSaved (g : Nat) (s : State) : Bool := (s.sharesOf g).all fun sh => sh.saved.isSome

/-- SHARE_SAVE: the share of a stopped gang is saved to its block once its streams and bank let it, and its
holdings are released; every store under way is performed, those its threads have acquired among them (R347,
R349-R353; 13 R314). The gang header has no layout but its fault summary. -/
def execShareSave (g rank : Nat) (s : State) : Host.Outcome State Fault Refusal :=
  .next <|
    match s.gang? g, s.share? g rank with
    | some x, some sh =>
      if !sh.stopped || sh.saved.isSome || !saveReady sh s then s
      else
        let ps := s.sharePlaces sh
        let cur := currentCopy (s.copies (.cluster sh.cl))
        let s := expireBuckets sh.cl s
        let s := { s with misses := s.misses.filter fun m => !askerOf sh cur s m.asker }
        let s := ps.foldl (fun s p => releaseStores p .sys true s) s
        let s := drain (fun _ => true) (fun _ => 3) (settleInto sh s)
        let s := bindShare ((s.share? g rank).getD sh) s
        let s := dropPosted ps (spillInboxes ((s.share? g rank).getD sh) s)
        let s := writeBlock x ((s.share? g rank).getD sh) s
        let sv := savedOf sh s
        let s := releaseHoldings sh s
        let s := s.modShare g rank fun y =>
          { y with
            saved := some sv
            stopped := false
            cl := nowhere
            bays := y.bays.map fun o => o.map fun b => b.shift s.clk }
        let s := moveRefs g (movePlace sh.cl (virtualCl rank) fun _ sl => sl) s
        if allSaved g s then
          storeBytes (x.desc.save + 0x100) (summaryBytes (((s.gang? g).getD x).summary))
            (writeFree x.desc.save 0x10000 <| s.modGang g fun y => { y with phase := .saved, released := [] })
        else s
    | _, _ => s

/-! ### The restore (15 R351) -/

/-- A placed share filled from its block: scratchpad, registers of its contexts, bank (15 R351). -/
def reloadShare (g : Gang) (sh : Share) (s : State) : State :=
  let a := blockOf g sh.rank
  let s := s.modCluster sh.cl fun c =>
    { c with spad := Memory.copyFrom c.spad sh.spadBase s.dram (a + 0x600000) sh.spadSize }
  let s := moveMarks (a + 0x600000) (spadMark sh.cl sh.spadBase) sh.spadSize s
  s.modShare g.id sh.rank fun y => { y with saved := y.saved.map fun v =>
    { v with
      threads := v.threads.map fun pt =>
        match pt.1 with
        | .ctx _ c k => (pt.1, readContext (contextAt a c k) pt.2 s)
        | .lane _ _ _ _ => pt
        | .lctx _ _ _ => pt
      bank := v.bank.map fun b => readBankBlock a b s } }

/-- Whether a thread has an end still before it. -/
def Thread.unended (t : Thread) : Bool :=
  match t.run with
  | .idle => false
  | .retired => false
  | .wait _ .draining => false
  | .wait _ _ => true
  | .running => true
  | .fetchSleep => true

/-- Whether bytes of DRAM from a carry a poison mark (15 R356). -/
def damaged (a n : Nat) (s : State) : Bool :=
  s.pkg.poison.any fun e => decide (a / 128 ≤ e.1) && decide (e.1 ≤ (a + n - 1) / 128)

/-- Whether what a block holds of a saved thread carries a poison mark: its own record, its core's or wave's, what is
spilled for its core, or what the whole share has: header, bays, timelines, queues and bank (15 Table 15-6). -/
def damagedAt (a : Nat) (sh : Share) (p : Place) (s : State) : Bool :=
  (match p with
   | .ctx _ c k => damaged (contextAt a c k) 0x800 s || damaged (a + 0x1000 + c * 0x400) 0x400 s ||
       sh.spill.zipIdx.any fun x => spillCore x.1 == c && damaged (a + 0x150000 + x.2 * 64) 64 s
   | .lane _ e sl ln =>
     let w := a + 0x50000 + (e * 16 + sl) * 0x8000
     damaged w 0x1000 s || damaged (w + 0x1000 + 448 * ln) 448 s
   | .lctx _ _ _ => false) ||
  damaged a 0x1000 s || damaged (a + 0x190000) 0x10000 s || (sh.bank && damaged (a + 0x200000) 0x240000 s)

/-- The entry of a thread that has ended leaves the FIFO of every bay of its gang (11 R259, R261). -/
def leaveFifos (g : Nat) (p : Place) (s : State) : State :=
  (s.sharesOf g).foldl (fun s sh => s.modShare sh.gang sh.rank fun sh =>
    { sh with bays := sh.bays.map fun o => o.map fun y => { y with fifo := y.fifo.filter fun w => w.place != p } }) s

/-- The fault of a saved thread recorded in its gang's summary (15 R356; 16 R371). -/
def recordSaved (g : Nat) (rank cause : Nat) (pt : Place × Thread) (s : State) : State :=
  s.modGang g fun x => { x with summary := x.summary.add pt.1 rank pt.2.pc 0 cause }

/-- The threads of a reloaded share whose saved state has an uncorrectable error end with data-error fault
(15 R356). -/
def endDamaged (g : Gang) (sh : Share) (s : State) : State :=
  let bad := fun (pt : Place × Thread) => pt.2.unended && damagedAt (blockOf g sh.rank) sh pt.1 s
  match (s.share? g.id sh.rank).bind (·.saved) with
  | none => s
  | some v =>
    let s := (v.threads.filter bad).foldl (fun s pt => leaveFifos g.id pt.1 (recordSaved g.id sh.rank Cause.dataError pt s)) s
    s.modShare g.id sh.rank fun y => { y with saved := some { v with
      threads := v.threads.map fun pt => if bad pt then
        (pt.1, { pt.2 with ending := some (endValue Cause.dataError), run := .wait (.exit 0) .draining }) else pt } }

/-- GANG_RESTORE: a saved gang is submitted to its queue; once placed, its shares are reloaded (R351). -/
def execGangRestore (g : Nat) (s : State) : Host.Outcome State Fault Refusal :=
  .next <|
    match s.gang? g with
    | none => s
    | some x =>
      match x.phase with
      | .saved =>
        if queueRoom x.desc.queue s then
          enterQueue g x.desc.queue (s.modGang g fun y => { y with phase := .queued, restoring := true })
        else s
      | .placed =>
        if x.restoring then
          (s.sharesOf g).foldl (fun s sh => endDamaged x sh (reloadShare x sh s))
            (s.modGang g fun y => { y with phase := .loaded, summary := readSummary (x.desc.save + 0x100) s })
        else s
      | .queued => s
      | .loaded => s
      | .running => s
      | .saving => s

/-- The slot a saved wave of engine e and slot sl gets: the share's slots of that engine in order. -/
def newSlot (sh : Share) (ws : List (Nat × Nat × Wave)) (e sl : Nat) : Nat :=
  let olds := sortBy id ((ws.filter fun w => w.1 == e).map fun w => w.2.1)
  let news := sortBy id ((sh.slots.filter fun x => x.1 == e).map fun x => x.2)
  match olds.findIdx? (· == sl) with
  | some i => (news[i]?).getD 0
  | none => 0

/-- The waves of a share put into their new slots, in the order of their launch numbers. The stalls of PACE and of a
redirect count in a restored wave from the clk of the restore (02 R58; 07 R166). DESIGN CHOICE (log 100). -/
def installWaves (sh : Share) (ws : List (Nat × Nat × Wave)) (s : State) : State :=
  (sortBy (fun w => w.2.2.num) ws).foldl (fun s w =>
    let num := ((s.cluster sh.cl).waveNum[w.1]?).getD 0
    let x := { w.2.2 with num := num, lastClk := s.clk }
    let s := { s with waves := FMap.put s.waves (waveKey sh.cl w.1 (newSlot sh ws w.1 w.2.1)) x }
    s.modCluster sh.cl fun c => { c with waveNum := c.waveNum.set w.1 (num + 1) }) s

/-- Saved buckets put into free ones of a cluster, their timeouts going on: each in turn into the lowest-numbered (08 R195).
DESIGN CHOICE (log 101). -/
def installBuckets : List Bucket → (Place → Place) → Nat → List Bucket → List Bucket
  | [], _, _, bs => bs
  | x :: xs, f, clk, bs =>
    match bs.findIdx? (·.st == BSt.free) with
    | some n => installBuckets xs f clk
        (bs.set n { x with t0 := clk, entries := x.entries.map fun e => { e with place := f e.place } })
    | none => bs

/-- A saved bank that goes on, its clks counted from the restore. -/
def Bank.restored (b : Bank) (f : Place → Place) (clk : Nat) : Bank :=
  let op := fun (o : BankOp) => { o with place := f o.place }
  { b with
    queue := b.queue.map op
    run := b.run.map fun r => { r with op := op r.op, ends := r.ends + clk, till := r.till + clk }
    dueA := b.dueA + clk
    dueB := b.dueB + clk
    wd := b.wd.map fun c => clk - c }

/-- A reloaded share's threads, waves, cores, bank, buckets and copies put on its cluster (15 R351). -/
def installShare (sh : Share) (v : Saved) (s : State) : State :=
  let f := movePlace (virtualCl sh.rank) sh.cl (newSlot sh v.waves)
  let s := installWaves sh v.waves s
  let s := v.threads.foldl (fun s pt => s.setThread (f pt.1) pt.2) s
  let s := v.cores.foldl (fun s c => s.modCore (.scalar sh.cl c.1) fun k => { c.2 with inbox := k.inbox }) s
  let s := s.modCluster sh.cl fun c =>
    { c with
      l1 := c.l1.filter (·.gang != sh.gang)
      bank := match v.bank with
        | some b => b.restored f s.clk
        | none => c.bank
      buckets := installBuckets v.buckets f s.clk c.buckets
      copies := c.copies ++ v.copies.map fun x => { x with place := f x.place } }
  let s := moveRefs sh.gang f s
  s.modShare sh.gang sh.rank fun y =>
    { y with saved := none, bays := y.bays.map fun o => o.map fun b => b.shift s.clk }

/-- Whether the saved buckets of a share find free ones on its cluster. -/
def bucketsFit (sh : Share) (s : State) : Bool :=
  match sh.saved with
  | some v => decide (v.buckets.length ≤ ((s.cluster sh.cl).buckets.filter fun b => b.st == .free).length)
  | none => true

/-! ### Release (03 R81) -/

/-- One share released: its entry contexts start, or its saved threads go on. -/
def releaseShare (n : Nat) (sh : Share) (s : State) : State :=
  match sh.saved with
  | some v => installShare sh v s
  | none => startEntries n sh s

/-- GANG_RELEASE: the release message of one die starts every entry context there, or lets a restored gang's
threads go on; spilled messages are delivered (R81; 15 R350, R351). -/
def execGangRelease (g : Nat) (die : Fin 4) (s : State) : Host.Outcome State Fault Refusal :=
  .next <|
    match s.gang? g with
    | none => s
    | some x =>
      let here := (s.sharesOf g).filter fun sh => sh.cl / 48 == die.val
      if x.phase ≠ .loaded || x.released.contains die.val || here.isEmpty || !here.all (fun sh => bucketsFit sh s) then s
      else
        let s := here.foldl (fun s sh => releaseShare x.desc.entryn sh s) s
        let done := (s.gangDies g).all fun d => d == die.val || x.released.contains d
        let s := s.modGang g fun y =>
          { y with
            released := y.released ++ [die.val]
            phase := if done then .running else .loaded
            restoring := y.restoring && !done }
        here.foldl (fun s sh => drainSpill g sh.rank s) s

end Sys2Proof.Machine
end

