-- ==== Sys2Proof/Machine/Package.lean ====
section
/-!
DEFINITION. The package: heat, power and eligibility, boot and reset, Novilo frames received and SPDM
(03 R71; 04 R95; 17 R372-R380).
-/

namespace Sys2Proof.Machine

/-- The package changed. -/
def modPkg (f : Package → Package) (s : State) : State := { s with pkg := f s.pkg }

/-! ### Heat (17 R374; 04 R95) -/

/-- The state with the hottest sensor noted (17 Table 17-3; log 28). -/
def noteHottest (s : State) : State :=
  let m := (FMap.vals s.clusters).foldl (fun m c => max m c.temp) 0
  let m := (FMap.vals s.landings).foldl (fun m l => max m l.temp) m
  modPkg (fun p => { p with tempMax := ofN m }) s

/-- Thermal trip: every clock stops (17 R374). -/
def trip (s : State) : State := modPkg (fun p => { p with boot := .tripped, tripCnt := p.tripCnt + 1 }) s

/-- The 1 µs interval that holds a clk, counted from 1. -/
def micro (clk : Nat) : Nat := clk / 1100 + 1

/-- A cluster after a sample of t tenths of a degree in clk `clk`: throttling, eligibility, and what the
clean-window rule sees (17 R374; 04 R95). -/
def Cluster.sampled (c : Cluster) (t clk : Nat) : Cluster :=
  let bad := decide (16 ≤ c.droops.sum)
  let loses := decide (950 ≤ t) || bad
  let cool := if c.eligible && loses then none else c.coolSince
  { c with
    temp := t
    hot := if 1000 ≤ t then true else if t < 970 then false else c.hot
    eligible := c.eligible && !loses
    coolSince := if t < 890 && cool.isNone then some clk else cool
    winClean := c.winClean && decide (t < 890) && !bad
    lastSample := micro clk }

/-- A cluster at the end of a 1 µs interval: where nothing has sampled it there, its sensor still reads what it last
read, and the next sub-interval of droop events begins (04 R95; log 7). -/
def Cluster.endMicro (c : Cluster) (clk : Nat) : Cluster :=
  let c := if c.lastSample = micro clk then c else c.sampled c.temp clk
  { c with winClean := c.winClean && decide (c.droops.sum < 16), droops := 0 :: c.droops.take 9 }

/-- The last clk of a 1 µs interval ends: every cluster has been sampled in it (04 R95). -/
def endMicro (s : State) : State :=
  let t := { s with clusters := s.clusters.map fun e => (e.1, e.2.endMicro s.clk) }
  if t.clusters.map (fun e => e.2.eligible) = s.clusters.map (fun e => e.2.eligible) then t else needPass t

/-- TEMPERATURE_SAMPLE: a cluster's sensor (0 to 191) or a landing's (192 to 199) reads t tenths of a
degree, once in a 1 µs interval (R374, R95). -/
def execTemperatureSample (sensor t : Nat) (s : State) : Host.Outcome State Fault Refusal :=
  .next <|
    let now := micro s.clk
    if (if sensor < 192 then (s.cluster sensor).lastSample else (s.landing (sensor - 192)).lastSample) = now then s
    else if sensor < 192 then
      let was := (s.cluster sensor).eligible
      let s := noteHottest (s.modCluster sensor fun c => c.sampled t s.clk)
      let s := if (s.cluster sensor).eligible = was then s else needPass s
      if 1100 ≤ t then trip s else s
    else if sensor < 200 then
      let s := noteHottest (s.modLanding (sensor - 192) fun l => { l with temp := t, lastSample := now })
      if 1050 ≤ t then trip s else s
    else s

/-- A cluster at the end of a window that began in clk `start`: eligible again after a clean window that
began after the first cool sample (04 R95). -/
def Cluster.windowEnd (c : Cluster) (start : Nat) : Cluster :=
  let cool := match c.coolSince with
    | some k => decide (k < start)
    | none => false
  { c with eligible := c.eligible || (c.winClean && cool), winClean := true }

/-- Whether the window of the eligibility timer has ended (04 R95). -/
def windowDue (s : State) : Bool := decide (s.disp.winStart + 110000 ≤ s.clk)

/-- ELIGIBILITY_WINDOW_END: the 100 µs window of the eligibility timer ends (R95). -/
def execEligibilityWindowEnd (s : State) : Host.Outcome State Fault Refusal :=
  .next <|
    let start := s.disp.winStart
    if !windowDue s then s
    else
      let gain := (FMap.vals s.clusters).any fun c => !c.eligible && (c.windowEnd start).eligible
      let s := { s with clusters := s.clusters.map fun e => (e.1, e.2.windowEnd start) }
      let s := modDisp (fun d => { d with winStart := start + 110000 }) s
      if gain then needPass s else s

/-! ### Power (17 R373) -/

/-- POWER_SAMPLE: the package controller samples rail current and package power, once in a 1 µs interval (R372,
R373). -/
def execPowerSample (amps watts : Nat) (s : State) : Host.Outcome State Fault Refusal :=
  .next <| modPkg (fun p =>
    let cap := p.pwrCap.toNat
    let now := micro s.clk
    if p.lastSample = now then p
    else
    let p := { p with pwrNow := ofN watts, lastSample := now }
    if 9000 < amps || cap < watts then { p with skip := true, cleanSamples := 0 }
    else if !p.skip then p
    else if amps * 100 < 9000 * 95 && watts * 100 < cap * 95 then
      if 7 ≤ p.cleanSamples then { p with skip := false, cleanSamples := 0 }
      else { p with cleanSamples := p.cleanSamples + 1 }
    else { p with cleanSamples := 0 }) s

/-- DROOP_EVENT: a cluster skips issue for 8 clk, and the event counts for eligibility (R373, R95). -/
def execDroopEvent (cl : Nat) (s : State) : Host.Outcome State Fault Refusal :=
  .next <|
    if cl < 192 then
      s.modCluster cl fun c => { c with
        skipUntil := s.clk + 8
        droops := (c.droops.headD 0 + 1) :: c.droops.tail }
    else s

/-! ### Boot (17 R378) -/

/-- The device enters *recovery* with a cause: FEATLOCK is 0, so that every launch is refused (17 R378). -/
def recover (cause : Nat) (s : State) : State :=
  modPkg (fun p => { p with boot := .recovery, bootstat := cause, featLock := false }) s

/-- The cores of the firmware column: those of the six clusters of die 0, column 0 (01 R17). -/
def columnCores (s : State) : List CoreId :=
  ([0, 8, 16, 24, 32, 40].flatMap fun cl => (List.range 32).map fun c => CoreId.scalar cl c).filter s.columnCore

/-- A thread that the boot ROM starts, in supervisor mode (02 R50). -/
def Thread.booted (t : Thread) (clk : Nat) (pc : Word) : Thread :=
  { t with pc := pc, mode := true, run := .running, fetch := [], lastPc := none, ready := clk + 3 }

/-- The boot ROM starts the firmware column (17 R378): context 0 of every core of it, at an address that the firmware
fixes. Which contexts start, and where, the manual does not say. DESIGN CHOICE (log 95). -/
def startColumn (s : State) : State :=
  (columnCores s).foldl (fun s c =>
    match c with
    | .scalar cl n => s.modThread (c.place 0) fun t => t.booted s.clk (Config.columnStart cl n)
    | .landing _ _ => s) s

/-- EOPRA_BOOT: the boot ROM reads the table, or fails to; it verifies both signatures and the version, and
loads the settings or enters *recovery* (R378, Table 17-3). -/
def execEopraBoot (flash : Option BootFlash) (ecdsa lms : Bool) (s : State) : Host.Outcome State Fault Refusal :=
  .next <|
    if s.pkg.boot ≠ .unbooted then s
    else match flash with
      | none => recover 3 s
      | some ⟨t, image⟩ =>
        if !(ecdsa && lms) then recover 1 s
        else if t.version < s.pkg.fuses.version then recover 2 s
        else if t.wf then
          startColumn (modPkg (fun p => { p with boot := .running, bootstat := 0, eopra := t, firmware := image }) s)
        else s

/-- DRAM that holds the listed bytes. -/
def dramOf (mem : List (Nat × Byte)) : Memory := mem.foldl (fun m x => Memory.setByte m x.1 x.2) []

/-- A state whose scratchpads hold the listed bytes, of those of a cluster's 2 MiB (01 R22). -/
def fillSpads (spads : List (Nat × Nat × Byte)) (s : State) : State :=
  spads.foldl (fun s x =>
    if x.1 < 192 && x.2.1 < 0x200000 then s.modCluster x.1 fun c => { c with spad := Memory.setByte c.spad x.2.1 x.2.2 }
    else s) s

/-- DEVICE_RESET: FEATLOCK is cleared and every gang ends; fuses and TRIPCNT stay, and DRAM and the scratchpads hold
free values (R71; 17 R374; log 29). The schedule, which is the model's own, goes on. -/
def execDeviceReset (s : State) : Host.Outcome State Fault Refusal :=
  .next <| fillSpads (Config.resetSpads s.frees) { State.reset with
    turn := s.turn
    agenda := s.agenda
    draws := s.draws
    frees := s.frees + 1
    pkg := { Package.reset with fuses := s.pkg.fuses, pwrCap := ofN s.pkg.fuses.power, tripCnt := s.pkg.tripCnt }
    dram := dramOf (Config.resetDram s.frees) }

/-- Whether an instruction is a device reset. -/
def isReset : Instr → Bool
  | .deviceReset => true
  | _ => false

/-- Whether the trip has stopped every clock: only device reset then acts (17 R374). -/
def clockStopped (s : State) : Bool :=
  s.pkg.boot == .tripped &&
  (match s.turn with
   | .act i => !isReset i
   | .tick => true
   | .issue _ _ => true
   | .resume _ => true
   | .move _ => true)

/-! ### Novilo (17 R376, R377) -/

/-- Whether n bytes from a physical address lie in the interleaved region. -/
def inInterleaved (pa n : Nat) (s : State) : Bool :=
  s.inDram pa && s.inDram (pa + n - 1) && (s.pinnedDie? pa).isNone && (s.pinnedDie? (pa + n - 1)).isNone

/-- The writes of a frame performed at their homes; an offset outside the interleaved region names none (17 R377). -/
def noviloWrites (ws : List (Nat × List Byte)) (s : State) : State :=
  ws.foldl (fun s w => if inInterleaved w.1 w.2.length s then storeBytes w.1 w.2 s else s) s

/-- A frame of copy data answered: its acknowledgement leaves by the port it came by (17 R377). -/
def answerFrame (f : NvFrame) (s : State) : State :=
  let a : NvFrame := { f with etherType := s.pkg.eopra.etherType, body := .ack }
  modNovilo (fun xs => xs ++ [{ frame := a, reg := none, left := true, acked := false }]) s

/-- A frame that has come in its turn taken as received. -/
def countFrame (f : NvFrame) (s : State) : State :=
  modPkg (fun p => { p with nvGot := FMap.put p.nvGot (f.port * 256 + f.peer) (f.number + 1) }) s

/-- Whether a frame sent by this package is the one that an acknowledgement names. -/
def NvSent.answered (x : NvSent) (f : NvFrame) : Bool :=
  x.left && x.frame.port == f.port && x.frame.peer == f.peer && x.frame.number == f.number &&
  (match x.frame.body with
   | .data _ => true
   | .messages _ => false
   | .ack => false)

/-- NOVILO_FRAME_RECEIVE: a frame with the EtherType of the Eopra table arrives on a port. The writes of copy data are
performed at their homes, and acknowledged; messages are delivered in order; an acknowledgement marks the frame it names.
A frame that came before is not delivered again, and one that has overtaken another is left to be sent again: each is
delivered once and in order (R376, R377; log 37). -/
def execNoviloFrameReceive (head : NvHead) (body : NvBody) (s : State) : Host.Outcome State Fault Refusal :=
  .next <|
    let f : NvFrame := ⟨head, body⟩
    let due := FMap.getD s.pkg.nvGot (f.port * 256 + f.peer) 0
    if !f.wf || f.etherType != s.pkg.eopra.etherType then s
    else match f.body with
      | .data ws =>
        if f.number = due then answerFrame f (noviloWrites ws (countFrame f s))
        else if f.number < due then answerFrame f s
        else s
      | .messages ms =>
        if f.number = due then
          modPkg (fun p => { p with nvIn := p.nvIn ++ ms.map fun m => (f.port, f.peer, m) }) (countFrame f s)
        else s
      | .ack => modNovilo (fun xs => xs.map fun x => if x.answered f then { x with acked := true } else x) s

/-! ### SPDM (17 R380) -/

/-- What a response carries the measurements of, in order: the boot ROM version, the Eopra table, the firmware image and
FEATCAP (17 R380). -/
def Package.measured (p : Package) : List Measured :=
  [.bootRom p.fuses.rom, .eopra p.eopra, .firmware p.firmware, .featcap p.fuses.featcap]

/-- SPDM_REQUEST: a response to a nonce is sent, with four measurements, signed with the identity key (R380; log 63). -/
def execSpdmRequest (nonce : Nat) (s : State) : Host.Outcome State Fault Refusal :=
  .next (modPkg (fun p =>
    let ms := p.measured.map Config.measure
    { p with spdm := p.spdm ++
      [{ nonce := nonce, measured := ms, sig := Config.sign (Config.identityKey p.fuses.secret) nonce ms }] }) s)

end Sys2Proof.Machine
end

