-- ==== Sys2Proof/Machine/Errors.lean ====
section
/-!
DEFINITION. Errors, their log, the Lafold links, and the fencing of dies (13 R316-R318; 15 R355-R357;
17 R375).
-/

namespace Sys2Proof.Machine

/-! ### Counters and the log (15 R355, R357) -/

/-- An event of a unit counted, and its record held unless the unit holds one already (15 R355, R357). -/
def countError (unit kind addr : Nat) (s : State) : State :=
  modPkg (fun p =>
    let n := FMap.getD p.errCnt unit 0 + 1
    let r : LogRec :=
      { w0 := ofN (unit % 65536 + (Config.errorKind kind).toNat * 2 ^ 16 + n.toNat % 2 ^ 40 * 2 ^ 24)
        w1 := ofN addr }
    { p with
      errCnt := FMap.put p.errCnt unit n
      errPend := if (FMap.get? p.errPend unit).isSome then p.errPend else FMap.put p.errPend unit r }) s

/-- A line of DRAM marked as bad until it is rewritten in full (15 R356). -/
def markPoison (addr : Nat) (s : State) : State :=
  if s.inDram addr then modPkg (fun p => { p with poison := FMap.put p.poison (addr / 128) 0 }) s else s

/-- ERROR_EVENT: a unit detects an event; kind 1 at a landing is an uncorrectable error, whose line keeps a
poison mark (R355, R356). -/
def execErrorEvent (unit kind addr : Nat) (s : State) : Host.Outcome State Fault Refusal :=
  .next <|
    if !unitOk unit then s
    else
      let s := countError unit kind addr s
      if kind = 1 ∧ 3072 ≤ unit ∧ unit < 3584 then markPoison addr s else s

/-- The die in whose log a unit's records stand; a link's stand in that of its lower die (log 30). -/
def unitDie (u : Nat) : Nat :=
  if u < 3072 then u / 16 / 48
  else if u < 3584 then (u - 3072) / 128
  else if u < 3840 then (u - 3584) / 64
  else if u = 3842 then 1
  else if u = 3843 then 2
  else 0

/-- A log with one more record, or without it and marked when it holds 64 (15 R357). -/
def ErrLog.capture (l : ErrLog) (r : LogRec) (clk : Nat) : ErrLog :=
  if 64 ≤ (l.tail + 2 ^ 63 - l.head.toNat % 2 ^ 63) % 2 ^ 63 then { l with ovf := true, next := clk + 1 }
  else { l with recs := FMap.put l.recs (l.tail % 64) r, tail := (l.tail + 1) % 2 ^ 63, next := clk + 1 }

/-- ERROR_LOG_CAPTURE: the pending record of a die's lowest unit enters its log, one in a clk (R357). -/
def execErrorLogCapture (die : Fin 4) (s : State) : Host.Outcome State Fault Refusal :=
  .next <|
    match s.pkg.errPend.find? (fun e => unitDie e.1 == die.val), s.pkg.logs[die.val]? with
    | some e, some l =>
      if s.clk < l.next then s
      else modLog die.val (fun l => l.capture e.2 s.clk)
        (modPkg (fun p => { p with errPend := FMap.del p.errPend e.1 }) s)
    | _, _ => s

/-! ### Threads taken out of a wait -/

/-- What a waiting thread has asked of other units withdrawn; a bay that no thread waits for any longer stops its
watchdog (11 R262). -/
def abandon (p : Place) (s : State) : State :=
  let t := s.thread p
  let s := dropMiss (.thread p) (dropPosted [p] s)
  (s.sharesOf t.gang).foldl (fun s sh => s.modShare sh.gang sh.rank fun sh =>
    { sh with bays := sh.bays.map fun o => o.map fun y =>
        { y with fifo := y.fifo.filter fun w => w.place != p }.watch s.clk false }) s

/-- The thread at p ended by an ending fault (15 R332). -/
def endWith (cause : Nat) (eval : Word) (p : Place) (s : State) : State :=
  let s := abandon p (forceLoads p s)
  startEnding p (endValue cause) (recordFault p (s.thread p).pc eval cause s)

/-! ### Data errors (15 R356) -/

/-- Whether the word a thread stands at reads a register: it is fetched, not guarded off, and no decode fault comes
first (02 R55; 15 R336). -/
def readsRegister (p : Place) (s : State) : Bool :=
  match s.nextWord p.crew p (s.thread p).pc with
  | .word w =>
    !((s.thread p).off && !isControl (instrOf w)) &&
      (decodeFault (instrOf w) p (s.thread p)).isNone && !(readRegs (instrOf w) p s).isEmpty
  | .none => false
  | .bad _ => false
  | .routine => false

/-- A data error in what a thread uses: precise at its word, where it stands in the word itself a fetch fault, and in
a register after the faults that come first; ending where the thread is being saved; a context without a thread, and a
word that reads nothing, meet none. -/
def threadDataError (p : Place) (a : Word) (s : State) : State :=
  let t := s.thread p
  if (s.thread? p).isNone || !t.unended then s
  else if s.interrupted p then endWith Cause.dataError a p s
  else if t.run == .running && a == t.pc then fetchFault Cause.dataError p s
  else if t.run == .running && !readsRegister p s then s
  else
    let s := abandon p (forceLoads p s)
    trapEnter p Cause.dataError a t.pc s

/-- A data error in what a copy reads: it fails (15 R356; 10 R240). -/
def copyDataError (u : CopyUnit) (a : Word) (s : State) : State :=
  match currentCopy (s.copies u) with
  | some c =>
    if c.started && c.fin.isNone then
      dropMiss (.copy u) (setCopy u c (fun c => { c with report := false, fin := some (Cause.dataError, a) }) s)
    else s
  | none => s

/-- A data error in what a stream reads: the next element carries it (15 R356; 10 R230). -/
def streamDataError (p : Place) (i : Nat) (a : Word) (s : State) : State :=
  match ((s.thread p).strm[i]?).getD none with
  | some m =>
    if m.writes || !m.sealed || decide (64 ≤ m.ahead.length) then s
    else modStrm p i (fun o => o.map fun m => { m with ahead := m.ahead ++ [.bad Cause.dataError a] }) s
  | none => s

/-- A data error in the bank of a gang that is halted to be saved: its share's threads end (15 R356). -/
def haltedBankDataError (cl : Nat) (a : Word) (s : State) : State :=
  match s.bankShare? cl with
  | some sh =>
    if sh.stopped then
      ((s.sharePlaces sh).filter fun p => (s.thread p).unended).foldl (fun s p => endWith Cause.dataError a p s) s
    else s
  | none => s

/-- A data error in what a bank's started operation uses while its occupancy lasts: it fails, a rotation once its step
has been made, so that the other banks of its rectangle stay in step (15 R356; 12 R285, R294); in a bank without one the data
belongs to no instruction. -/
def bankDataError (cl : Nat) (a : Word) (s : State) : State :=
  match (s.bankOf cl).run with
  | some r =>
    if decide (r.stage ≤ 1 ∨ s.clk < r.ends) && r.fail.isNone then
      dropMiss (.bank cl) (modRun cl (fun r => if r.stage = 1 then { r with fail := some (Cause.dataError, a) }
        else { r with stage := 2, ends := s.clk, fail := some (Cause.dataError, a) }) s)
    else s
  | none => haltedBankDataError cl a s

/-- DATA_ERROR: an uncorrectable error in data that an access would use (R356). -/
def execDataError (a : Asker) (addr : Word) (s : State) : Host.Outcome State Fault Refusal :=
  .next <|
    match a with
    | .thread p => threadDataError p addr s
    | .stream p i => streamDataError p i addr s
    | .copy u => copyDataError u addr s
    | .bank cl => bankDataError cl addr s
    | .mreq n =>
      match s.mreqs.find? (·.n == n) with
      | some m => mreqSend m none s
      | none => s

/-! ### Which dies are reached (13 R316) -/

/-- The dies reached from a list of dies over one surviving link more. -/
def State.grow (s : State) (ds : List Nat) : List Nat :=
  (List.range 4).filter fun d =>
    ds.contains d ||
    (ds.contains (Nat.xor d 1) && s.linkUp d (Nat.xor d 1)) || (ds.contains (Nat.xor d 2) && s.linkUp d (Nat.xor d 2))

/-- The dies with a surviving path to die 0. -/
def State.reached (s : State) : List Nat := s.grow (s.grow (s.grow [0]))

/-! ### Fencing (13 R317) -/

/-- Whether a target lies on one of these dies. -/
def targetOn (fs : List Nat) (s : State) (t : Target) : Bool :=
  match t with
  | .dram pa _ _ _ => fs.contains (s.homeDie pa)
  | .spad cl _ _ _ _ => fs.contains (cl / 48)
  | .lreg l _ => fs.contains (l / 2)
  | .remote _ _ => false
  | .hole => false

/-- Accesses of surviving threads that have been sent to a fenced die are performed before it is fenced. -/
def settleTo (fs : List Nat) (s : State) : State :=
  let s := s.places.foldl (fun s p =>
    if fs.contains p.die then s
    else ((s.thread p).loads.filter fun a => targetOn fs s a.tgt).foldl (fun s a => settleAccess p a.n s) s) s
  drain (fun e => !fs.contains e.die && targetOn fs s e.tgt) (fun _ => 3) s

/-- Each store issued on a fenced die and not acknowledged is performed or not, as a free value has it
(R317 step 5). -/
def looseStores (fs : List Nat) (s : State) : State :=
  (s.stores.filter fun e => fs.contains e.die).foldl (fun s e =>
    let f := freshWord s
    if wbit f.1 0 then drain (fun x => x.n == e.n) (fun _ => 3) f.2
    else { f.2 with stores := f.2.stores.filter fun x => x.n != e.n || x.written }) s

/-- The homes stop waiting for a fenced die, and no surviving slice keeps a line homed there (R317 steps 1
and 2). -/
def fenceLines (fs : List Nat) (s : State) : State :=
  let s := s.stores.foldl (fun s e =>
    match e.line? with
    | some line => (e.acks.filter fun d => fs.contains d).foldl (fun s d => ackDie line d (dropCopy line d s)) s
    | none => s) s
  let s := s.sharers.foldl (fun s e => setSharers e.1 ((s.sharersOf e.1).filter fun d => !fs.contains d) s) s
  { s with
    slices := s.slices.filter fun e => !fs.contains (s.homeDie (e.1 / 4 * 128))
    aside := s.aside.filter fun e => !fs.contains e.2 && !fs.contains (s.homeDie (e.1 * 128)) }

/-- A thread on a fenced die is ended where it stands (R317 step 4). -/
def killHere (p : Place) (s : State) : State :=
  let t := s.thread p
  let s := if t.unended then recordFault p t.pc 0 Cause.dieFence s else s
  let s := (abandon p s).modThread p fun t =>
    { t with loads := [], strm := [none, none, none, none], qout := 0, fetch := [] }
  match p with
  | .ctx _ _ _ => endThread p s
  | .lane _ _ _ _ => endThread p s
  | .lctx _ _ _ => if t.run = .retired then s else endThread p s

/-- What the units of a fenced cluster hold is lost: requests, posts, buckets, messages; its copies and its
bank's operations fail. -/
def fenceCluster (cl : Nat) (s : State) : State :=
  let c := s.cluster cl
  let s := c.copies.foldl (fun s x => if x.failed then s else copyReport (.cluster cl) x Cause.dieFence s) s
  let s := (c.bank.ops).foldl (fun s o => withReg o.reg (fun r s => tlFail r Cause.dieFence s) s) s
  s.modCluster cl fun c => { c with
    gal := []
    steals := []
    posts := []
    buckets := List.replicate 8 Bucket.blank
    trigQ := []
    engOut := [[], []]
    bank := if c.bank.ops.isEmpty then c.bank else { c.bank with
      queue := []
      run := none
      tail := []
      halt := true
      bfcause := Cause.dieFence
      wd := none } }

/-- The copies of a fenced landing fail. -/
def fenceLanding (l : Nat) (s : State) : State :=
  (s.landing l).copies.foldl (fun s x => if x.failed then s else copyReport (.landing l) x Cause.dieFence s) s

/-- Whether what an asker asks for lies on one of these dies. -/
def askerOn (fs : List Nat) (a : Asker) : Bool :=
  match a with
  | .thread p => fs.contains p.die
  | .stream p _ => fs.contains p.die
  | .copy (.cluster cl) => fs.contains (cl / 48)
  | .copy (.landing l) => fs.contains (l / 2)
  | .bank cl => fs.contains (cl / 48)
  | .mreq _ => false

/-- What is under way from fenced dies is lost. -/
def fenceTraffic (fs : List Nat) (s : State) : State :=
  { s with
    misses := s.misses.filter fun m => !askerOn fs m.asker && !fs.contains (m.cl / 48)
    mreqs := s.mreqs.filter fun m => !fs.contains m.place.die
    mesh := s.mesh.filter fun x =>
      match x.src with
      | some p => !fs.contains p.die
      | none => true
    cores := s.cores.map fun e =>
      if e.2.outq.any fun x =>
          match x.src with
          | some p => fs.contains p.die
          | none => false
      then (e.1, { e.2 with outq := [] }) else e }

/-- The threads of saved shares of an ended gang end with what was saved of them. -/
def dropSaved (g : Nat) (sh : Share) (s : State) : State :=
  match sh.saved with
  | none => s
  | some v =>
    let s := (v.threads.filter fun pt => pt.2.unended).foldl
      (fun s pt => recordSaved g sh.rank Cause.dieFence pt s) s
    let v := { v with threads := [], waves := [], bank := none, buckets := [], copies := [] }
    s.modShare g sh.rank fun y => { y with saved := some v }

/-- A gang that held a share on a fenced die is ended: each of its threads elsewhere takes die-fence fault
(R317 step 4; log 31). -/
def endGang (g : Nat) (s : State) : State :=
  let s := (s.places.filter fun p => (s.thread p).gang == g && (s.thread p).unended).foldl
    (fun s p => endWith Cause.dieFence 0 p s) s
  let s := (s.sharesOf g).foldl (fun s sh => dropSaved g sh s) s
  let s := (s.sharesOf g).foldl (fun s sh => s.modShare g sh.rank fun y => { y with stopped := false }) s
  s.modGang g fun x =>
    { x with phase := .running, restoring := false, released := [0, 1, 2, 3], summary := { x.summary with fenced := true } }

/-- Dies with no surviving path to die 0 are fenced, as one step (R316, R317). -/
def fenceDies (fs : List Nat) (s : State) : State :=
  if fs.isEmpty then s
  else
    let s := fenceLines fs (looseStores fs (settleTo fs s))
    let gs := ((FMap.vals s.shares).filter fun sh => fs.contains (sh.cl / 48)).map (·.gang)
    let s := ((List.range 192).filter fun cl => fs.contains (cl / 48)).foldl (fun s cl => fenceCluster cl s) s
    let s := ((List.range 8).filter fun l => fs.contains (l / 2)).foldl (fun s l => fenceLanding l s) s
    let s := (s.places.filter fun p => fs.contains p.die).foldl (fun s p => killHere p s) s
    let s := fenceTraffic fs s
    let s := (((FMap.vals s.gangs).map (·.id)).filter fun g => gs.contains g).foldl (fun s g => endGang g s) s
    modPkg (fun p => { p with fenced := p.fenced ++ fs }) s

/-- The dies that no path now joins to die 0, fenced. -/
def fenceLost (s : State) : State :=
  fenceDies ((List.range 4).filter fun d => !s.reached.contains d && !s.pkg.fenced.contains d) s

/-! ### Links (17 R375) -/

/-- A link declared failed: counted, logged, and what it cut off is fenced (17 R375; 13 R316). -/
def failLink (link : Nat) (s : State) : State :=
  if (s.pkg.linkFail[link]?).getD false then s
  else fenceLost (countError (3840 + link) 3 0 (modPkg (fun p =>
    { p with linkFail := p.linkFail.set link true, linkTry := p.linkTry.set link [] }) s))

/-- The failed retries of a flit of a link, one after another. -/
def linkTries (link flit : Nat) (s : State) : Nat := FMap.getD ((s.pkg.linkTry[link]?).getD []) flit 0

/-- LINK_FLIT_RETRY: a flit is sent again; its eighth failure in a row fails the link (R375). -/
def execLinkFlitRetry (link : Fin 4) (again : FlitRetry) (s : State) : Host.Outcome State Fault Refusal :=
  .next <|
    if (s.pkg.linkFail[link.val]?).getD false then s
    else
      let n := linkTries link.val again.flit s + 1
      let tries := fun (m : FMap Nat) => if again.ok then FMap.del m again.flit else FMap.put m again.flit n
      let s := countError (3840 + link.val) 2 0 (modPkg (fun p => { p with linkTry := p.linkTry.modify link.val tries }) s)
      if !again.ok && decide (8 ≤ n) then failLink link.val s else s

/-- LINK_ACK_TIMEOUT: no acknowledgement for 10 µs with flits outstanding fails the link (R375). -/
def execLinkAckTimeout (link : Fin 4) (s : State) : Host.Outcome State Fault Refusal := .next (failLink link.val s)

/-- A fenced die rejoins with every copy it held discarded, and every line the clusters cached while it was away: its
home's values come first (13 R318). -/
def rejoin (d : Nat) (s : State) : State :=
  let s := { s with
    slices := s.slices.filter fun e => e.1 % 4 != d
    sharers := s.sharers.filter fun e => s.homeDie (e.1 * 128) != d
    tlb := s.tlb.filter fun e => e.die != d
    clusters := s.clusters.map fun e => (e.1, { e.2 with l1 := [], ic := [] })
    threads := s.threads.map fun e =>
      if (placeOfKey e.1).die = d && e.2.gang == 0 then (e.1, Thread.blank) else e }
  needPass (modPkg (fun p => { p with fenced := p.fenced.filter (· != d) }) s)

/-- LINK_RESTORE: a failed link that supervisor software asked for comes back, and with it the fenced dies that
now have a path to die 0 (R375; 13 R318). -/
def execLinkRestore (link : Fin 4) (s : State) : Host.Outcome State Fault Refusal :=
  .next <|
    if !(s.pkg.linkFail[link.val]?).getD false || !(s.pkg.linkAsk[link.val]?).getD false then s
    else
      let s := modPkg (fun p =>
        { p with linkFail := p.linkFail.set link.val false, linkAsk := p.linkAsk.set link.val false }) s
      (s.pkg.fenced.filter fun d => s.reached.contains d).foldl (fun s d => rejoin d s) s

end Sys2Proof.Machine
end

