-- ==== Sys2Proof/Machine/Retire.lean ====
section
/-!
DEFINITION. How a gang retires: the conditions, the steps, the completion record and the completion message
(03 R82; 11 R264; 16 R367-R371).
-/

namespace Sys2Proof.Machine

/-! ### When (16 R367, R368) -/

/-- Whether a context's thread is over: idle or retired. -/
def Thread.over (t : Thread) : Bool :=
  match t.run with
  | .idle => true
  | .retired => true
  | .running => false
  | .fetchSleep => false
  | .wait _ _ => false

/-- The landing-core contexts lent to a gang, as (landing, core, context). -/
def lentPlaces (g : Nat) (s : State) : List (Nat × Nat × Nat) :=
  (s.lent.filter fun e => e.2.1 == g).filterMap fun e =>
    match placeOfKey e.1 with
    | .lctx l c k => some (l, c, k)
    | .ctx _ _ _ => none
    | .lane _ _ _ _ => none

/-- Whether a share is quiet: a thread in its trap handler is a running one (16 R366, R367). -/
def quietShare (sh : Share) (s : State) : Bool :=
  match sh.saved with
  | some v => v.threads.all fun pt => pt.2.over
  | none =>
    sh.contexts.all (fun c => (s.thread (.ctx sh.cl c.1 c.2)).over && !hasWork (.scalar sh.cl c.1) c.2 s) &&
    (s.shareWaves sh).isEmpty &&
    (s.cluster sh.cl).buckets.all (fun b => b.st == .free || b.gang != sh.gang)

/-- Whether the landing-core contexts lent to a gang are idle with nothing to start. -/
def quietLent (g : Nat) (s : State) : Bool :=
  (lentPlaces g s).all fun x =>
    (s.thread (.lctx x.1 x.2.1 x.2.2)).over && !hasWork (.landing x.1 x.2.1) x.2.2 s

/-- The parcels under way. -/
def State.parcels (s : State) : List Parcel :=
  s.mesh ++ ((FMap.vals s.cores).flatMap fun k => k.outq) ++
    (FMap.vals s.clusters).flatMap fun c => c.trigQ ++ c.engOut.flatten

/-- Whether a parcel was sent by or to a gang. -/
def parcelOf (g : Nat) (s : State) (x : Parcel) : Bool :=
  x.gang == g ||
  (match parcelShare x s with
   | some sh => sh.gang == g
   | none => false) ||
  (match x.cargo with
   | .msg m =>
     (match hDest m.hdr with
      | some (.landing l c) => (lentPlaces g s).any fun e => e.1 == l && e.2.1 == c
      | _ => false)
   | .rput _ _ _ => false
   | .mreq _ => false)

/-- Whether a copy is a gang's, or registered on one of its timelines. -/
def copyOf (g : Nat) (c : Copy) : Bool := c.gang == g || c.reg.gang == g

/-- Whether a gang's copies of a queue have all failed or are halted behind a failure; `seen` are the shares
that have one. -/
def copiesHalted (g : Nat) : List (Nat × Nat) → List Copy → Bool
  | _, [] => true
  | seen, c :: cs =>
    if c.failed then copiesHalted g ((c.gang, c.rank) :: seen) cs
    else if copyOf g c && !seen.contains (c.gang, c.rank) then false
    else copiesHalted g seen cs

/-- The copy queues of the device. -/
def State.copyQueues (s : State) : List (List Copy) :=
  (FMap.vals s.clusters).map (·.copies) ++ (FMap.vals s.landings).map (·.copies)

/-- The banks of a gang's shares. -/
def State.gangBanks (s : State) (g : Nat) : List Bank :=
  ((s.sharesOf g).filter fun sh => sh.bank && sh.saved.isNone).map fun sh => s.bankOf sh.cl

/-- Step 1: every store, merge, pushed element and access of the gang is performed. -/
def retireStores (g : Nat) (s : State) : State :=
  let s := (s.places.filter fun p => (s.thread p).gang == g).foldl (fun s p => pushAll p (forceLoads p s)) s
  drain (fun e => e.gang == g) (fun _ => 3) s

/-- Whether step 1 can be made: no pushed element of the gang waits for a translation (10 R233). -/
def storesGo (g : Nat) (s : State) : Bool :=
  let t := retireStores g s
  t.places.all fun p => (t.thread p).gang != g || !(t.thread p).pushing

/-- Whether a gang may retire now (16 R368). -/
def retires (g : Gang) (s : State) : Bool :=
  g.phase == .running && (s.sharesOf g.id).all (fun sh => quietShare sh s) && quietLent g.id s &&
  !s.parcels.any (parcelOf g.id s) && (readyLends s [] s.disp.lends).all (fun x => x.1.gang != g.id) && s.mreqs.all (fun m => m.gang != g.id) &&
  s.copyQueues.all (fun cs => copiesHalted g.id [] cs) &&
  (s.gangBanks g.id).all (fun b => b.halt || b.ops.isEmpty) && storesGo g.id s

/-! ### The steps (16 Table 16-1) -/

/-- Whether step 2 discards operations halted behind a fault (16 R369). -/
def anyHalted (g : Nat) (s : State) : Bool :=
  s.copyQueues.any (fun cs => cs.any fun c => copyOf g c && !c.failed) ||
  (s.gangBanks g).any fun b => !b.ops.isEmpty

/-- The messages of a list of parcels. -/
def messagesIn (l : List Parcel) : Nat :=
  (l.filter fun x =>
    match x.cargo with
    | .msg _ => true
    | .rput _ _ _ => false
    | .mreq _ => false).length

/-- The landing cores whose contexts were last lent to a gang, those whose contexts have all returned among them. -/
def lentCores (g : Nat) (s : State) : List (Nat × Nat) :=
  s.cores.filterMap fun e =>
    if e.1 < 10000 then none else if e.2.owner = g then some ((e.1 - 10000) / 48, (e.1 - 10000) % 48) else none

/-- The messages step 2 discards: in inbound buffers and spill queues, and lends that wait (16 Table 16-1;
19 R384). -/
def undelivered (g : Nat) (s : State) : Nat :=
  ((s.sharesOf g).map fun sh =>
    messagesIn sh.spill +
      (if sh.saved.isSome then 0
       else (sh.cores.map fun c => ((s.core (.scalar sh.cl c)).inbox.filter fun m => !hwOp m).length).sum)).sum +
  ((lentCores g s).map fun x => (s.core (.landing x.1 x.2)).inbox.length).sum +
  (s.disp.lends.filter fun x => x.gang == g).length

/-- What the sweep adds to the under-read total: the remaining counts of a share's slots (11 R264). -/
def shareUnread (sh : Share) : Nat :=
  (sh.bays.map fun o =>
    match o with
    | some y => (y.slots.map fun x => if x.st = .free then 0 else x.cnt).sum
    | none => 0).sum

/-- A gang's under-read total at the sweep. -/
def unread (g : Nat) (s : State) : Nat := ((s.sharesOf g).map shareUnread).sum

/-- The threads that still wait on a gang's bays take gallery fault (11 R264). -/
def sweepWaiters (g : Nat) (s : State) : State :=
  ((s.sharesOf g).flatMap fun sh => sh.bays.flatMap fun o =>
    match o with
    | some y => y.fifo
    | none => []).foldl (fun s w => answerWait w.place (.answered false (ofN Cause.gallery) 1) s) s

/-- Step 4: what the gang held is released (16 Table 16-1). -/
def retireHoldings (g : Nat) (s : State) : State :=
  let s := (lentPlaces g s).foldl (fun s x => endThread (.lctx x.1 x.2.1 x.2.2) s) s
  let s := (s.sharesOf g).foldl (fun s sh =>
    let s := if sh.saved.isSome then s else
      let s := (s.sharePlaces sh).foldl (fun s p => s.delThread p) s
      let s := sh.cores.foldl (fun s c => bareCore (.scalar sh.cl c) s) s
      if sh.bank then s.modCluster sh.cl fun c => { c with bank := Bank.blank 0 0 } else s
    { s with shares := FMap.del s.shares (shareKey g sh.rank) }) s
  needPass { s with
    gangs := FMap.del s.gangs g
    clusters := s.clusters.map fun e => (e.1, { e.2 with
      l1 := e.2.l1.filter (·.gang != g)
      ic := e.2.ic.filter (·.gang != g)
      copies := e.2.copies.filter fun c => !copyOf g c })
    landings := s.landings.map fun e => (e.1, { e.2 with copies := e.2.copies.filter fun c => !copyOf g c })
    cores := s.cores.map fun e => (e.1, { e.2 with ic := e.2.ic.filter (·.gang != g) })
    tlb := s.tlb.filter (·.gang != g)
    misses := s.misses.filter (·.gang != g)
    pkg := { s.pkg with novilo := s.pkg.novilo.map (·.strayOf g) }
    disp := { s.disp with
      lends := s.disp.lends.filter (·.gang != g)
      aged := s.disp.aged.filter (· != g) } }

/-- The inbound buffers of the landing cores lent to a gang emptied. -/
def clearLentInboxes (g : Nat) (s : State) : State :=
  (lentCores g s).foldl (fun s x => s.modCore (.landing x.1 x.2) fun k => { k with inbox := [], owner := 0 }) s

/-- STATUS of a completion record (16 Table 16-2). -/
def recordStatus (g : Gang) (halted : Bool) (under : Nat) : Nat :=
  b2n (g.summary.count != 0) + b2n (g.desc.strict && decide (0 < under)) * 2 + b2n halted * 4 +
    b2n g.summary.fenced * 8

/-- V of a timeline of rank 0, or 0. -/
def finalV (g i : Nat) (s : State) : Nat :=
  match s.tl? g 0 i with
  | some t => t.v
  | none => 0

/-- The completion record (16 Table 16-2). -/
def completionRecord (g : Gang) (halted : Bool) (under undel tlv0 tlv1 : Nat) : List Byte :=
  let m := g.summary
  leBytes 4 (recordStatus g halted under) ++ leBytes 4 m.count ++ leBytes 8 m.epc.toNat ++ leBytes 8 m.eval.toNat ++
  leBytes 2 m.cause ++ leBytes 2 m.rank ++ leBytes 1 m.core ++ leBytes 1 m.ctx ++ leBytes 1 m.lane ++
  leBytes 1 m.eng ++ leBytes 8 under ++ leBytes 4 undel ++ leBytes 4 g.id ++ leBytes 8 tlv0 ++ leBytes 8 tlv1

/-- The header of a completion message: to the host, or to the queue COMPQ names (03 R82). -/
def completionHeader (d : Desc) : Word :=
  if d.compqValid then
    ofN (3 + wbits d.compq 5 2 * 4 + 2 * 2 ^ 6 + wbits d.compq 40 11 * 2 ^ 11)
  else hostHeader 3 2 0

/-- Step 6: the completion message is sent (03 R82). -/
def sendCompletion (g : Gang) (s : State) : State :=
  meshSend { gang := 0, src := none, rank := none,
             cargo := .msg { hdr := withSrc (completionHeader g.desc) hostSrc
                             pay := [ofN g.desc.compl, g.desc.cookie] } } s

/-- GANG_RETIRE: a gang of which nothing is left to run retires: stores performed, halted operations and messages
left discarded, bays swept, holdings released, record and message (R368-R371, R264, R82). -/
def execGangRetire (g : Nat) (s : State) : Host.Outcome State Fault Refusal :=
  .next <|
    match s.gang? g with
    | none => s
    | some x =>
      if !retires x s then s
      else
        let s := retireStores g s
        let under := unread g s
        let bytes := completionRecord x (anyHalted g s) under (undelivered g s) (finalV g 0 s) (finalV g 1 s)
        let s := retireHoldings g (clearLentInboxes g (sweepWaiters g s))
        sendCompletion x (storeBytes x.desc.compl bytes s)

end Sys2Proof.Machine
end

