-- ==== Sys2Proof/Machine/Clock.lean ====
section
/-!
DEFINITION. The order of what happens in one clk. Each mover has a place in it; what the manual gives a clk of its
own must act in that clk, before anything that has a later place and before the clk advances. The places are the
model's way of keeping the orders the manual gives (log 77): arrivals, then selection and placement, then issue.
-/

namespace Sys2Proof.Machine

/-! ### Places in a clk -/

/-- The place of a mover: a phase of the clk and a number in it. -/
def phaseKey (phase sub : Nat) : Nat := phase * 2 ^ 21 + sub

/-- The place of a thread's words among those of a clk: scalar cores by core and context, wide engines, landing
cores (08 R183; 10 R242; 12 R282). -/
def issueKey (p : Place) : Nat := phaseKey 6 p.key

/-- The place of a crew's issue; a wide engine's waves share one (07 R166: a PACE word takes no issue cycle). -/
def crewKey : Crew → Nat
  | .ctx cl c k => issueKey (.ctx cl c k)
  | .lctx l c k => issueKey (.lctx l c k)
  | .wave cl e _ => issueKey (.lane cl e 0 0)

/-- The least and the greatest of a list of places, or the default for none. -/
def spanOf (d : Nat) (ks : List Nat) : Nat × Nat :=
  (ks.foldl min (ks.headD d), ks.foldl max (ks.headD d))

/-- The place of what arrives in a clk, in any order among themselves. -/
def arrivalKey : Nat × Nat × Bool := (phaseKey 3 0, phaseKey 3 0, false)

/-- A place that its mover takes once in a clk. -/
def once (k : Nat) : Nat × Nat × Bool := (k, k, true)

/-- A place that several movers may take. -/
def shared (k : Nat) : Nat × Nat × Bool := (k, k, false)

/-- The place of a request at its home, from the rotating pointer upwards (09 R207). -/
def homeKey (clk n : Nat) : Nat := phaseKey 3 (2 + ptrOrder clk n)

/-- The places an event takes, from the first to the last, and whether it takes the last once in a clk; none for one
that has no order within a clk. -/
def eventKey (s : State) : Instr → Option (Nat × Nat × Bool)
  | .eligibilityWindowEnd => some (once (phaseKey 0 0))
  | .dispatcherPass => some (once (phaseKey 1 0))
  | .headAgeingTimeout q => some (once (phaseKey 2 q.val))
  | .messageDelivery _ => some arrivalKey
  | .triggerMessageSend _ => some arrivalKey
  | .hostWindowMessage _ _ => some arrivalKey
  | .windowPassMessage => some arrivalKey
  | .submissionAreaBadWrite _ _ => some arrivalKey
  | .pagerReply _ _ => some arrivalKey
  | .preemptionCommand _ _ => some arrivalKey
  | .lend => some arrivalKey
  | .temperatureSample _ _ => some arrivalKey
  | .powerSample _ _ => some arrivalKey
  | .droopEvent _ => some arrivalKey
  | .rputArrival _ => some (once (phaseKey 3 1))
  | .homeRequest rs =>
    let r := spanOf 0 (rs.map (reqOrder s))
    some (phaseKey 3 (2 + r.1), phaseKey 3 (2 + r.2), false)
  | .bar4Write _ _ => some (shared (homeKey s.clk hostNum))
  | .bar4Read _ _ => some (shared (homeKey s.clk hostNum))
  | .noviloFrameReceive _ _ => some (shared (homeKey s.clk noviloNum))
  | .handlerStart c k => some (once (phaseKey 4 (c.place k.val).key))
  | .directStart c k => some (once (phaseKey 4 (c.place k.val).key))
  | .migrationPlacement cl => some (once (phaseKey 5 cl))
  | .waveLaunch cl _ => some (shared (phaseKey 5 (1000 + cl)))
  | .galleryHandout cl => some (once (phaseKey 5 (2000 + 2 * cl)))
  | .galleryRequest cl _ => some (once (phaseKey 5 (2001 + 2 * cl)))
  | .bayWatchdogExpiry _ _ _ => some (shared (phaseKey 5 3000))
  | .bankWatchdogReset _ => some (shared (phaseKey 5 3000))
  | .barrierPhasePropagate _ _ _ => some (shared (phaseKey 5 3000))
  | .bucketPostArrival cl n =>
    let r := spanOf 0 ((((s.cluster cl).posts.filter fun q => !q.queued).take n).map fun q => q.entry.place.key)
    some (phaseKey 6 r.1, phaseKey 6 r.2, false)
  | .stealRequest cl => some (once (phaseKey 7 cl))
  | .gangRetire g => some (shared (phaseKey 8 g))
  | _ => none

/-- The unit whose queue a thread in *queuing* can enter now: a bank by its cluster, a copy engine after them
(10 R247; 12 R282). -/
def unitRoom (s : State) (p : Place) : Option Nat :=
  match (s.thread p).run, p.cluster? with
  | .wait (.tcopy _ _) (.queuing r), _ =>
    let u := match copyUnitOf p with
      | .cluster cl => 1000 + cl
      | .landing l => 2000 + l
    if r.length = 33 || !copyRoom (copyUnitOf p) s then none
    else match tlRef p (cpTl r) s with
      | some (g, k, _) => if s.shareLive g k then some u else none
      | none => none
  | .wait _ (.queuing _), some cl =>
    let b := s.bankOf cl
    let wtl := recWord b.captured 7
    let held := match (if wbit wtl 32 then tlRef p (ofN (wbits wtl 31 0)) s else none) with
      | some (g, r, _) => !s.shareLive g r
      | none => false
    if 64 ≤ b.queue.length || held then none else some cl
  | _, _ => none

/-- Whether nothing that waits for the queue a thread waits for comes before it (10 R242; 12 R282). -/
def waitTurn (s : State) (p : Place) : Bool :=
  match unitRoom s p with
  | none => true
  | some u => s.places.all fun q => unitRoom s q != some u || decide (p.key ≤ q.key) || (decide (u < 1000) && (blockedWith p s).contains q)

/-- The threads in *queuing* that enter in this clk. -/
def dueWaits (s : State) : List Nat :=
  (s.places.filter fun p => (unitRoom s p).isSome && waitTurn s p).map issueKey

/-- Whether a thread waits for something that its turn looks at. -/
def Thread.waits (t : Thread) : Bool :=
  match t.run with
  | .wait _ _ => true
  | .fetchSleep => true
  | .running => false
  | .idle => false
  | .retired => false

/-- The places a mover takes. -/
def turnKey (s : State) : Turn → Option (Nat × Nat × Bool)
  | .tick => none
  | .issue u _ => some (shared (crewKey u))
  | .resume p => if (s.thread p).waits then some (once (issueKey p)) else none
  | .act i => eventKey s i
  | .move _ => none

/-! ### What is due in a clk -/

/-- The cores that hold state, as their numbers and contexts. -/
def State.coreIds (s : State) : List CoreId :=
  s.cores.map fun e =>
    if e.1 < 10000 then .scalar (e.1 / 32) (e.1 % 32) else .landing ((e.1 - 10000) / 48) ((e.1 - 10000) % 48)

/-- The contexts that selection starts in this clk (03 R78). -/
def dueStarts (s : State) : List Nat :=
  s.coreIds.flatMap fun c =>
    ((List.range 4).filter fun k => hasWork c k s).map fun k => phaseKey 4 (c.place k).key

/-- Whether a migrating lane of a cluster is placed in this clk (08 R191). -/
def placesMigrant (cl : Nat) (s : State) : Bool :=
  (migrants cl s).any fun m =>
    match s.shareOf? m.2.1 with
    | some sh => s.live sh && (idleContext sh s).isSome
    | none => false

/-- What is due at a cluster: placements, launches, hand-outs, requests of its own threads, the bank's watchdog and a
steal of its own threads (08 R185, R191; 11 R258, R259; 14 R324; 15 R354). -/
def dueCluster (s : State) (cl : Nat) : List Nat :=
  let x := expireBuckets cl s
  (if placesMigrant cl s then [phaseKey 5 cl] else []) ++
  (if (List.range 8).any fun b => (launchable cl b x).isSome then [phaseKey 5 (1000 + cl)] else []) ++
  (if (ownReqs cl s).isEmpty then [] else [phaseKey 5 (2001 + 2 * cl)]) ++
  (if bankStuck cl s then [phaseKey 5 3000] else []) ++
  (if (ownSteals cl s).isEmpty then [] else [phaseKey 7 cl])

/-- What is due at a share: hand-outs and watchdogs of its bays (11 R259, R262). -/
def dueShare (s : State) (sh : Share) : List Nat :=
  (if s.live sh && (List.range 8).any fun b => handsOut sh.gang sh.rank b s then [phaseKey 5 (2000 + 2 * sh.cl)] else []) ++
  (if (List.range 8).any fun b => !(stalled sh.gang sh.rank b s).isEmpty then [phaseKey 5 3000] else [])

/-- What is due of a gang: a barrier phase that a die has yet to see, and its retirement (14 R327; 16 R368). -/
def dueGang (s : State) (g : Gang) : List Nat :=
  (if (List.range g.desc.nbar).any fun b => (List.range 4).any fun d => propagateDue g.id b d s
   then [phaseKey 5 3000] else []) ++
  (if retires g s then [phaseKey 8 g.id] else [])

/-- Whether a crew's fetch has failed where it stands to issue (05 R100). -/
def fetchFails (s : State) (u : Crew) : Bool :=
  fetchStuck s u &&
  (match s.standing u with
   | [] => false
   | p :: _ =>
     match s.nextWord u p (s.thread p).pc with
     | .bad _ => true
     | .none => false
     | .routine => false
     | .word _ => false)

/-- The crews that issue in this clk, or whose fetch fails (05 R103; 07 R167). -/
def dueIssues (s : State) : List Nat :=
  (s.crews.filter fun u => canIssue s u || fetchFails s u).map crewKey

/-- The places of what must act in this clk. -/
def dueKeys (s : State) : List Nat :=
  (if windowDue s then [phaseKey 0 0] else []) ++
  (if passDue s then [phaseKey 1 0] else []) ++
  ((List.range 8).filter fun q => ageDue q s).map (fun q => phaseKey 2 q) ++
  dueStarts s ++
  (s.clusters.map (·.1)).flatMap (dueCluster s) ++
  (FMap.vals s.shares).flatMap (dueShare s) ++
  (FMap.vals s.gangs).flatMap (dueGang s) ++
  dueWaits s ++
  dueIssues s

/-- The places of what has yet to act in this clk. -/
def State.ahead (s : State) : List Nat := (dueKeys s).filter fun k => decide (s.slot ≤ k)

/-! ### Whose time it is -/

/-- Whether a mover is next among those that wait for what it waits for. -/
def inTurn (s : State) : Turn → Bool
  | .resume p => waitTurn s p
  | .tick => true
  | .issue _ _ => true
  | .act _ => true
  | .move _ => true

/-- The state in which a mover acts, its place taken; none when that place has passed, or something due comes before
it. -/
def takePlace (s : State) (t : Turn) : Option State :=
  match turnKey s t with
  | none => some s
  | some (lo, hi, single) =>
    if inTurn s t ∧ s.slot ≤ lo ∧ s.ahead.all (fun k => decide (hi ≤ k)) then
      some { s with slot := if single then hi + 1 else hi }
    else none

/-- The clk advances, once nothing is due in it: the caches accept the requests of the clk, sensors are read at the end
of a 1 µs interval, and the bays' watchdogs see the new clk (05 R391; 04 R95; 11 R262). -/
def tickState (s : State) : State :=
  if s.ahead.isEmpty then
    let s := fetchClk (if (s.clk + 1) % 1100 = 0 then endMicro s else s)
    watchBays { s with clk := s.clk + 1, slot := 0 }
  else s

/-- Whether an instruction of the syntax is an event: it is no word (02 R48). -/
def Instr.isEvent (i : Instr) : Bool :=
  match i with
  | .illegalInstruction _ => false
  | i => (encode i).isNone

end Sys2Proof.Machine
end

