-- ==== Sys2Proof/Machine/BitsRec.lean ====
section
/-!
DEFINITION. The BITS class: bit-field records and predicate groups (05 R118-R123).
-/

namespace Sys2Proof.Machine

/-- Entry 8·L + F of a layout table: offset and width. -/
def layEntry (lay : List (Nat × Nat)) (l f : Nat) : Nat × Nat := (lay[8 * l + f]?).getD (0, 0)

/-- The first field of a layout whose register from b does not exist on the engine (05 R121, R122). -/
def layOver (lay : List (Nat × Nat)) (e : Engine) (l : Nat) (b : Reg) : Option Nat :=
  (List.range 8).find? fun f => decide (0 < (layEntry lay l f).2) && decide (e.nregs ≤ b.val + f)

/-- The record MHPK builds from a base record and the field registers (05 R121). -/
def packRec (lay : List (Nat × Nat)) (l : Nat) (a : Reg) (t : Thread) (base : Word) : Word :=
  ofN ((List.range 8).foldl (fun rec_ f =>
    let e := layEntry lay l f
    if 0 < e.2 then setField rec_ e.1 e.2 (t.getX (Fin.ofNat 32 (a.val + f))).toNat else rec_)
    base.toNat)

/-- MHPK (R121). -/
def execMhpk (d a b : Reg) (l : Fin 8) (s : State) : Host.Outcome State Fault Refusal :=
  issueWord (.mhpk d a b l) (fun _ p s =>
    let lay := s.layOf p
    match layOver lay p.engine l a with
    | some f => .trap s Cause.layout (ofN (8 * l.val + f))
    | none => .ok (setX p 3 d (packRec lay l a (s.thread p) (getX p b s)) s)) s

/-- The state with the registers from d holding a record's fields (05 R122). -/
def unpackRec (p : Place) (lay : List (Nat × Nat)) (sx : Bool) (l : Nat) (d : Reg) (src : Word)
    (s : State) : State :=
  (List.range 8).foldl (fun s f =>
    let e := layEntry lay l f
    if 0 < e.2 then
      let v := fieldV src e.1 e.2
      setX p 3 (Fin.ofNat 32 (d.val + f)) (if sx then ofI (sext v e.2) else ofN v) s
    else s) s

/-- MHUN (R122). -/
def execMhun (sx : Bool) (d a : Reg) (l : Fin 8) (s : State) : Host.Outcome State Fault Refusal :=
  issueWord (.mhun sx d a l) (fun _ p s =>
    let lay := s.layOf p
    match layOver lay p.engine l d with
    | some f => .trap s Cause.layout (ofN (8 * l.val + f))
    | none => .ok (unpackRec p lay sx l d (getX p a s) s)) s

/-- The state with an entry of a place's layout table written (05 R118, R120). -/
def setLay (p : Place) (n : Nat) (e : Nat × Nat) (s : State) : State :=
  match p with
  | .ctx cl c _ => s.modCore (.scalar cl c) fun k => { k with lay := k.lay.set n e }
  | .lane cl en sl _ => s.modWave cl en sl fun w => { w with lay := w.lay.set n e }
  | .lctx _ _ _ => s.modThread p fun t => { t with lay := t.lay.set n e }

/-- LAYW (R120). -/
def execLayw (a b : Reg) (s : State) : Host.Outcome State Fault Refusal :=
  issueWord (.layw a b) (fun _ p s =>
    let x := getX p a s
    let y := getX p b s
    let off := wbits y 7 0
    let w := wbits y 15 8
    if wbits x 63 6 ≠ 0 then .trap s Cause.layout x
    else if wbits y 63 16 ≠ 0 ∨ 63 < off ∨ 64 < w ∨ 64 < off + w then .trap s Cause.layout y
    else .ok (setLay p x.toNat (off, w) s)) s

/-- LAYR (R120). -/
def execLayr (d a : Reg) (s : State) : Host.Outcome State Fault Refusal :=
  issueWord (.layr d a) (fun _ p s =>
    let x := getX p a s
    if wbits x 63 6 ≠ 0 then .trap s Cause.layout x
    else
      let e := ((s.layOf p)[x.toNat]?).getD (0, 0)
      .ok (setX p 2 d (ofN (e.1 + 256 * e.2)) s)) s

/-- The value of predicate group g (05 R123). -/
def groupV (t : Thread) (g : Nat) : Word :=
  ofN ((List.range 32).foldl (fun v i => v + b2n (t.getP (Fin.ofNat 96 (32 * g + i))) * 2 ^ i) 0)

/-- PRDX (R123). -/
def execPrdx (d : Reg) (g : Fin 3) (s : State) : Host.Outcome State Fault Refusal :=
  issueWord (.prdx d g) (fun _ p s => .ok (setX p 2 d (groupV (s.thread p) g) s)) s

/-- XPRD (R123). -/
def execXprd (a : Reg) (g : Fin 3) (s : State) : Host.Outcome State Fault Refusal :=
  issueWord (.xprd a g) (fun _ p s =>
    let x := getX p a s
    .ok ((List.range 32).foldl (fun s i => setPred p 2 (32 * g.val + i) (wbit x i) s) s)) s

end Sys2Proof.Machine
end

