-- ==== Sys2Proof/Machine/Branch.lean ====
section
/-!
DEFINITION. Branches, calls and returns (05 R126-R128).
-/

namespace Sys2Proof.Machine

/-- pc + 4 × an offset, modulo 2^64 (05 R126). -/
def branchTo {w : Nat} (p : Place) (o : BitVec w) (s : State) : Word :=
  (s.thread p).pc + ofI (4 * sext o.toNat w)

/-- x23 := the address of the next word (05 R126). -/
def linkReg (p : Place) (s : State) : State := setX p 2 23 ((s.thread p).pc + 4) s

/-- BR (R126). -/
def execBr (o : BitVec 25) (s : State) : Host.Outcome State Fault Refusal :=
  issueWord (.br o) (fun _ p s => .jump s (branchTo p o s)) s

/-- CALL (R126). -/
def execCall (o : BitVec 25) (s : State) : Host.Outcome State Fault Refusal :=
  issueWord (.call o) (fun _ p s => .jump (linkReg p s) (branchTo p o s)) s

/-- BRP (R126). -/
def execBrp (n : Pred) (o : BitVec 18) (s : State) : Host.Outcome State Fault Refusal :=
  issueWord (.brp n o) (fun _ p s => if getP p n s then .jump s (branchTo p o s) else .ok s) s

/-- BRN (R126). -/
def execBrn (n : Pred) (o : BitVec 18) (s : State) : Host.Outcome State Fault Refusal :=
  issueWord (.brn n o) (fun _ p s => if getP p n s then .ok s else .jump s (branchTo p o s)) s

/-- The check of a register target, then k (05 R127). -/
def jumpCheck (t : Word) (s : State) (k : State → Res) : Res :=
  if t.toNat % 4 ≠ 0 || !canonical t then .trap s Cause.access t else k s

/-- JMPR (R127). -/
def execJmpr (a : Reg) (s : State) : Host.Outcome State Fault Refusal :=
  issueWord (.jmpr a) (fun _ p s =>
    let t := getX p a s
    jumpCheck t s fun s => .jump s t) s

/-- CALLR: xa is read before x23 is written (R127). -/
def execCallr (a : Reg) (s : State) : Host.Outcome State Fault Refusal :=
  issueWord (.callr a) (fun _ p s =>
    let t := getX p a s
    jumpCheck t s fun s => .jump (linkReg p s) t) s

/-- RET (R127). -/
def execRet (s : State) : Host.Outcome State Fault Refusal :=
  issueWord .ret (fun _ p s =>
    let t := getX p 23 s
    jumpCheck t s fun s => .jump s t) s

end Sys2Proof.Machine
end

