-- ==== Sys2Proof/Machine/Fpu.lean ====
section
/-!
DEFINITION. The FPU class, the FMA class and FCMP (06 R148-R157).
-/

namespace Sys2Proof.Machine

/-- Bits of a natural number as f contents. -/
def w32 (n : Nat) : W32 := BitVec.ofNat 32 n

/-- The bits and flags a two-operand f word computes from its thread's modes (06 R145). -/
abbrev FOp := Thread → Nat → Nat → FRes

/-- A word that writes fd with a function of fa and fb. -/
def wordFFF (i : Instr) (d a b : Reg) (f : FOp) (s : State) : Host.Outcome State Fault Refusal :=
  issueWord i (fun _ p s => withF p [a, b] [d] s fun v pop s =>
    let r := f (s.thread p) (v a).toNat (v b).toNat
    .ok (putF p (info i).wlat d (w32 r.1) (orFlags p r.2 (pop s)))) s

/-- A word that writes fd with a function of fa. -/
def wordFF (i : Instr) (d a : Reg) (f : Thread → Nat → FRes) (s : State) :
    Host.Outcome State Fault Refusal :=
  issueWord i (fun _ p s => withF p [a] [d] s fun v pop s =>
    let r := f (s.thread p) (v a).toNat
    .ok (putF p (info i).wlat d (w32 r.1) (orFlags p r.2 (pop s)))) s

/-- A word that writes xd with a function of fa. -/
def wordXF (i : Instr) (d a : Reg) (f : Thread → Nat → Word × Nat) (s : State) :
    Host.Outcome State Fault Refusal :=
  issueWord i (fun _ p s => withF p [a] [] s fun v pop s =>
    let r := f (s.thread p) (v a).toNat
    .ok (setX p (info i).wlat d r.1 (orFlags p r.2 (pop s)))) s

/-- A word that writes fd with a function of xa. -/
def wordFX (i : Instr) (d a : Reg) (f : Thread → Word → FRes) (s : State) :
    Host.Outcome State Fault Refusal :=
  issueWord i (fun _ p s => withF p [] [d] s fun _ _ s =>
    let r := f (s.thread p) (getX p a s)
    .ok (putF p (info i).wlat d (w32 r.1) (orFlags p r.2 s))) s

/-- A word that writes fd with a function of fa, fb and fc. -/
def wordFFFF (i : Instr) (d a b c : Reg) (f : Thread → Nat → Nat → Nat → FRes) (s : State) :
    Host.Outcome State Fault Refusal :=
  issueWord i (fun _ p s => withF p [a, b, c] [d] s fun v pop s =>
    let r := f (s.thread p) (v a).toNat (v b).toNat (v c).toNat
    .ok (putF p (info i).wlat d (w32 r.1) (orFlags p r.2 (pop s)))) s

/-! ### Arithmetic in a format -/

/-- a + b, or a − b (06 R150, R155). -/
def addIn (f : Fmt) (r : Rnd) (neg : Bool) (t : Thread) (x y : Nat) : FRes :=
  let b := unpack f t.daz y
  addFp f (rndMode r t.fmode) t.ftz false (unpack f t.daz x) (if neg then b.neg else b)

/-- a × b. -/
def mulIn (f : Fmt) (r : Rnd) (t : Thread) (x y : Nat) : FRes :=
  mulFp f (rndMode r t.fmode) t.ftz (unpack f t.daz x) (unpack f t.daz y)

/-- ±(a × b ± c) (06 R156). -/
def fmaIn (f : Fmt) (r : Rnd) (negC neg : Bool) (t : Thread) (x y z : Nat) : FRes :=
  let c := unpack f t.daz z
  fmaFp f (rndMode r t.fmode) t.ftz neg (unpack f t.daz x) (unpack f t.daz y) (if negC then c.neg else c)

/-- A function approximation (06 R152). -/
def fnIn (g : Fn) (r : Rnd) (t : Thread) (x : Nat) : FRes :=
  fnBits g t.ver1 (rndMode r t.fmode) t.daz t.ftz x

/-- A conversion between formats (06 R154). -/
def convIn (g f : Fmt) (r : Rnd) (t : Thread) (x : Nat) : FRes :=
  convF g f (rndMode r t.fmode) t.daz t.ftz (x % 2 ^ g.w)

/-- FADD (R150). -/
def execFadd (r : Rnd) (d a b : Reg) (s : State) :
    Host.Outcome State Fault Refusal :=
  wordFFF (.fadd r d a b) d a b (addIn fp32 r false) s

/-- FSUB (R150). -/
def execFsub (r : Rnd) (d a b : Reg) (s : State) :
    Host.Outcome State Fault Refusal :=
  wordFFF (.fsub r d a b) d a b (addIn fp32 r true) s

/-- FMUL (R150). -/
def execFmul (r : Rnd) (d a b : Reg) (s : State) :
    Host.Outcome State Fault Refusal :=
  wordFFF (.fmul r d a b) d a b (mulIn fp32 r) s

/-- FDIV (R150). -/
def execFdiv (r : Rnd) (d a b : Reg) (s : State) :
    Host.Outcome State Fault Refusal :=
  wordFFF (.fdiv r d a b) d a b (fun t x y =>
    divFp fp32 (rndMode r t.fmode) t.ftz (unpack fp32 t.daz x) (unpack fp32 t.daz y)) s

/-- FSQRT (R150). -/
def execFsqrt (r : Rnd) (d a : Reg) (s : State) :
    Host.Outcome State Fault Refusal :=
  wordFF (.fsqrt r d a) d a (fun t x =>
    sqrtFp fp32 (rndMode r t.fmode) t.ftz (unpack fp32 t.daz x)) s

/-- FMIN (R151). -/
def execFmin (r : Rnd) (d a b : Reg) (s : State) :
    Host.Outcome State Fault Refusal :=
  wordFFF (.fmin r d a b) d a b (fun t x y => minmaxBits fp32 false t.daz t.ftz x y) s

/-- FMAX (R151). -/
def execFmax (r : Rnd) (d a b : Reg) (s : State) :
    Host.Outcome State Fault Refusal :=
  wordFFF (.fmax r d a b) d a b (fun t x y => minmaxBits fp32 true t.daz t.ftz x y) s

/-- FABS (R151). -/
def execFabs (r : Rnd) (d a : Reg) (s : State) :
    Host.Outcome State Fault Refusal :=
  wordFF (.fabs r d a) d a (fun t x => signOp t.ftz t.daz x false) s

/-- FNEG (R151). -/
def execFneg (r : Rnd) (d a : Reg) (s : State) :
    Host.Outcome State Fault Refusal :=
  wordFF (.fneg r d a) d a (fun t x => signOp t.ftz t.daz x (!signOf fp32 x)) s

/-- FSGNJ (R151). -/
def execFsgnj (r : Rnd) (d a b : Reg) (s : State) :
    Host.Outcome State Fault Refusal :=
  wordFFF (.fsgnj r d a b) d a b (fun t x y => signOp t.ftz t.daz x (signOf fp32 y)) s

/-- FRCP (R152). -/
def execFrcp (r : Rnd) (d a : Reg) (s : State) :
    Host.Outcome State Fault Refusal :=
  wordFF (.frcp r d a) d a (fnIn .rcp r) s

/-- FRSQ (R152). -/
def execFrsq (r : Rnd) (d a : Reg) (s : State) :
    Host.Outcome State Fault Refusal :=
  wordFF (.frsq r d a) d a (fnIn .rsq r) s

/-- FEXP2 (R152). -/
def execFexp2 (r : Rnd) (d a : Reg) (s : State) :
    Host.Outcome State Fault Refusal :=
  wordFF (.fexp2 r d a) d a (fnIn .exp2 r) s

/-- FLOG2 (R152). -/
def execFlog2 (r : Rnd) (d a : Reg) (s : State) :
    Host.Outcome State Fault Refusal :=
  wordFF (.flog2 r d a) d a (fnIn .log2 r) s

/-- FSIN (R152). -/
def execFsin (r : Rnd) (d a : Reg) (s : State) :
    Host.Outcome State Fault Refusal :=
  wordFF (.fsin r d a) d a (fnIn .sin r) s

/-- FCOS (R152). -/
def execFcos (r : Rnd) (d a : Reg) (s : State) :
    Host.Outcome State Fault Refusal :=
  wordFF (.fcos r d a) d a (fnIn .cos r) s

/-- FCLASS (R153). -/
def execFclass (r : Rnd) (d a : Reg) (s : State) :
    Host.Outcome State Fault Refusal :=
  wordXF (.fclass r d a) d a (fun _ x => (ofN (fclassBits x), 0)) s

/-- F2I (R154). -/
def execF2i (r : Rnd) (d a : Reg) (s : State) :
    Host.Outcome State Fault Refusal :=
  wordXF (.f2i r d a) d a (fun t x =>
    let v := f2i true (rndMode r t.fmode) t.daz x
    (ofI v.1, v.2)) s

/-- F2IU (R154). -/
def execF2iu (r : Rnd) (d a : Reg) (s : State) :
    Host.Outcome State Fault Refusal :=
  wordXF (.f2iu r d a) d a (fun t x =>
    let v := f2i false (rndMode r t.fmode) t.daz x
    (ofI v.1, v.2)) s

/-- I2F (R154). -/
def execI2f (r : Rnd) (d a : Reg) (s : State) :
    Host.Outcome State Fault Refusal :=
  wordFX (.i2f r d a) d a (fun t x => ofIntF fp32 (rndMode r t.fmode) (sgn x)) s

/-- IU2F (R154). -/
def execIu2f (r : Rnd) (d a : Reg) (s : State) :
    Host.Outcome State Fault Refusal :=
  wordFX (.iu2f r d a) d a (fun t x => ofIntF fp32 (rndMode r t.fmode) x.toNat) s

/-- F2BF (R154). -/
def execF2bf (r : Rnd) (d a : Reg) (s : State) :
    Host.Outcome State Fault Refusal :=
  wordFF (.f2bf r d a) d a (convIn fp32 bf16 r) s

/-- BF2F (R154). -/
def execBf2f (r : Rnd) (d a : Reg) (s : State) :
    Host.Outcome State Fault Refusal :=
  wordFF (.bf2f r d a) d a (convIn bf16 fp32 r) s

/-- F2H (R154). -/
def execF2h (r : Rnd) (d a : Reg) (s : State) :
    Host.Outcome State Fault Refusal :=
  wordFF (.f2h r d a) d a (convIn fp32 fp16 r) s

/-- H2F (R154). -/
def execH2f (r : Rnd) (d a : Reg) (s : State) :
    Host.Outcome State Fault Refusal :=
  wordFF (.h2f r d a) d a (convIn fp16 fp32 r) s

/-- HADD2 (R155). -/
def execHadd2 (r : Rnd) (d a b : Reg) (s : State) :
    Host.Outcome State Fault Refusal :=
  wordFFF (.hadd2 r d a b) d a b (fun t => pair2 (addIn bf16 r false t)) s

/-- HMUL2 (R155). -/
def execHmul2 (r : Rnd) (d a b : Reg) (s : State) :
    Host.Outcome State Fault Refusal :=
  wordFFF (.hmul2 r d a b) d a b (fun t => pair2 (mulIn bf16 r t)) s

/-- HMIN2 (R155). -/
def execHmin2 (r : Rnd) (d a b : Reg) (s : State) :
    Host.Outcome State Fault Refusal :=
  wordFFF (.hmin2 r d a b) d a b (fun t => pair2 (minmaxBits bf16 false t.daz t.ftz)) s

/-- HMAX2 (R155). -/
def execHmax2 (r : Rnd) (d a b : Reg) (s : State) :
    Host.Outcome State Fault Refusal :=
  wordFFF (.hmax2 r d a b) d a b (fun t => pair2 (minmaxBits bf16 true t.daz t.ftz)) s

/-- FMV.XF (R148). -/
def execFmvXf (r : Rnd) (d a : Reg) (s : State) :
    Host.Outcome State Fault Refusal :=
  wordXF (.fmvXf r d a) d a (fun _ x => (ofN x, 0)) s

/-- FMV.FX (R148). -/
def execFmvFx (r : Rnd) (d a : Reg) (s : State) :
    Host.Outcome State Fault Refusal :=
  wordFX (.fmvFx r d a) d a (fun _ x => (x.toNat % 2 ^ 32, 0)) s

/-- FMA (R156). -/
def execFma (r : Rnd) (d a b c : Reg) (s : State) :
    Host.Outcome State Fault Refusal :=
  wordFFFF (.fma r d a b c) d a b c (fmaIn fp32 r false false) s

/-- FMS (R156). -/
def execFms (r : Rnd) (d a b c : Reg) (s : State) :
    Host.Outcome State Fault Refusal :=
  wordFFFF (.fms r d a b c) d a b c (fmaIn fp32 r true false) s

/-- FNMA (R156). -/
def execFnma (r : Rnd) (d a b c : Reg) (s : State) :
    Host.Outcome State Fault Refusal :=
  wordFFFF (.fnma r d a b c) d a b c (fmaIn fp32 r false true) s

/-- FNMS (R156). -/
def execFnms (r : Rnd) (d a b c : Reg) (s : State) :
    Host.Outcome State Fault Refusal :=
  wordFFFF (.fnms r d a b c) d a b c (fmaIn fp32 r true true) s

/-- HFMA2 (R156). -/
def execHfma2 (r : Rnd) (d a b c : Reg) (s : State) :
    Host.Outcome State Fault Refusal :=
  wordFFFF (.hfma2 r d a b c) d a b c (fun t => pair3 (fmaIn bf16 r false false t)) s

/-- HFMA2H (R156). -/
def execHfma2h (r : Rnd) (d a b c : Reg) (s : State) :
    Host.Outcome State Fault Refusal :=
  wordFFFF (.hfma2h r d a b c) d a b c (fun t => pair3 (fmaIn fp16 r false false t)) s

/-- FCMP (R157). -/
def execFcmp (c : Fcc) (n : Pred) (a b : Reg) (s : State) : Host.Outcome State Fault Refusal :=
  issueWord (.fcmp c n a b) (fun _ p s => withF p [a, b] [] s fun v pop s =>
    let r := fcmpBits c (s.thread p).daz (v a).toNat (v b).toNat
    .ok (setPred p 4 n r.1 (orFlags p r.2 (pop s)))) s

end Sys2Proof.Machine
end

