-- ==== Sys2Proof/Machine/MemSync.lean ====
section
/-!
DEFINITION. MEMSYNC: ordered loads and stores, fences, atomics, merges and cache operations
(09 R219-R224).
-/

namespace Sys2Proof.Machine

/-- Bytes of a MEMSYNC size (09 R219). -/
def sizeBytes : MemSize → Nat
  | .b => 1
  | .h => 2
  | .w => 4
  | .d => 8

/-- LDA, which only LD.D may do at a landing's registers (R221; R213). -/
def execLda (z : MemSize) (sc : Scope) (d a : Reg) (i : BitVec 5) (s : State) :
    Host.Outcome State Fault Refusal :=
  issueWord (.lda z sc d a i) (fun _ p s =>
    let w := sizeBytes z
    let va := getX p a s + ofN (i.toNat * w)
    access p va w .read (settleMerges p (forceAtoms p s)) fun t s =>
      match t with
      | .lreg _ _ => .trap s Cause.access va
      | t =>
        let s := performTouching p va t w s
        let r := threadRead p va t w .normal s
        .ok (setX p 0 d (ofN r.1) (acquire p sc r.2))) s

/-- STREL: a release, then the store (R221). -/
def execStrel (z : MemSize) (sc : Scope) (b a : Reg) (i : BitVec 5) (s : State) :
    Host.Outcome State Fault Refusal :=
  issueWord (.strel z sc b a i) (fun _ p s =>
    let w := sizeBytes z
    let va := getX p a s + ofN (i.toNat * w)
    access p va w .write s fun t s =>
      match t with
      | .lreg _ _ => .trap s Cause.access va
      | t => releaseThen p sc true s fun s =>
        .ok (makeStore p va t w ((getX p b s).toNat % 2 ^ (8 * w)) .normal 0 s)) s

/-- FENCE: a release, then an acquire (R221). -/
def execFence (sc : Scope) (s : State) : Host.Outcome State Fault Refusal :=
  issueWord (.fence sc) (fun _ p s => releaseThen p sc true s fun s => .ok (acquire p sc s)) s

/-- Whether an atomic or a merge may go to a target (R220). -/
def atomAllowed (merge : Bool) (t : Target) : Bool :=
  match t with
  | .dram _ _ _ _ => true
  | .spad _ _ view _ _ => !merge && view == 0
  | .lreg _ _ => false
  | .remote _ _ => false
  | .hole => false

/-- ATOM and CAS: a release, then the indivisible step, which is an acquire when it is performed; op as in `atomNew`
(R222; R207). -/
def atomBody (op : Nat) (z : MemSize) (sc : Scope) (d a b : Reg) : Body := fun _ p s =>
  let w := sizeBytes z
  let va := getX p a s
  access p va w .atomic s fun t s =>
    if atomAllowed false t then
      releaseThen p sc true s fun s =>
        .ok (sendAccess p
          { n := 0, kind := .atom op w, va := va, tgt := t, hint := .normal, file := .x, reg := d,
            opnd := getX p b s, expect := getX p d s, val := none, scope := sc } (forceAtoms p s))
    else .trap s Cause.access va

/-- AMERGE: a release of what precedes it but earlier merges, then the merge is queued (R223). -/
def mergeBody (merge w : Nat) (sc : Scope) (va : Word) (v : Nat) (p : Place) (s : State)
    (k : State → Res) : Res :=
  access p va w .atomic (forceAtoms p s) fun t s =>
    if atomAllowed true t then
      releaseThen p sc false s fun s => k (makeStore p va t w (v % 2 ^ (8 * w)) .normal merge s)
    else .trap s Cause.access va

/-- ATOM.ADD (R222). -/
def execAtomAdd (z : MemSize) (sc : Scope) (d a b : Reg) (s : State) :
    Host.Outcome State Fault Refusal :=
  issueWord (.atomAdd z sc d a b) (atomBody 4 z sc d a b) s

/-- ATOM.MIN (R222). -/
def execAtomMin (z : MemSize) (sc : Scope) (d a b : Reg) (s : State) :
    Host.Outcome State Fault Refusal :=
  issueWord (.atomMin z sc d a b) (atomBody 5 z sc d a b) s

/-- ATOM.MAX (R222). -/
def execAtomMax (z : MemSize) (sc : Scope) (d a b : Reg) (s : State) :
    Host.Outcome State Fault Refusal :=
  issueWord (.atomMax z sc d a b) (atomBody 6 z sc d a b) s

/-- ATOM.MINU (R222). -/
def execAtomMinu (z : MemSize) (sc : Scope) (d a b : Reg) (s : State) :
    Host.Outcome State Fault Refusal :=
  issueWord (.atomMinu z sc d a b) (atomBody 7 z sc d a b) s

/-- ATOM.MAXU (R222). -/
def execAtomMaxu (z : MemSize) (sc : Scope) (d a b : Reg) (s : State) :
    Host.Outcome State Fault Refusal :=
  issueWord (.atomMaxu z sc d a b) (atomBody 8 z sc d a b) s

/-- ATOM.AND (R222). -/
def execAtomAnd (z : MemSize) (sc : Scope) (d a b : Reg) (s : State) :
    Host.Outcome State Fault Refusal :=
  issueWord (.atomAnd z sc d a b) (atomBody 9 z sc d a b) s

/-- ATOM.OR (R222). -/
def execAtomOr (z : MemSize) (sc : Scope) (d a b : Reg) (s : State) :
    Host.Outcome State Fault Refusal :=
  issueWord (.atomOr z sc d a b) (atomBody 10 z sc d a b) s

/-- ATOM.XOR (R222). -/
def execAtomXor (z : MemSize) (sc : Scope) (d a b : Reg) (s : State) :
    Host.Outcome State Fault Refusal :=
  issueWord (.atomXor z sc d a b) (atomBody 11 z sc d a b) s

/-- ATOM.SWAP (R222). -/
def execAtomSwap (z : MemSize) (sc : Scope) (d a b : Reg) (s : State) :
    Host.Outcome State Fault Refusal :=
  issueWord (.atomSwap z sc d a b) (atomBody 12 z sc d a b) s

/-- CAS (R222). -/
def execCas (z : MemSize) (sc : Scope) (d a b : Reg) (s : State) : Host.Outcome State Fault Refusal :=
  issueWord (.cas z sc d a b) (atomBody 13 z sc d a b) s

/-- AMERGE.I (R223). -/
def execAmergeI (z : MemSize) (sc : Scope) (a b : Reg) (s : State) : Host.Outcome State Fault Refusal :=
  issueWord (.amergeI z sc a b) (fun _ p s =>
    mergeBody 1 (sizeBytes z) sc (getX p a s) (getX p b s).toNat p s .ok) s

/-- AMERGE.F (R223). -/
def execAmergeF (sc : Scope) (a b : Reg) (s : State) : Host.Outcome State Fault Refusal :=
  issueWord (.amergeF sc a b) (fun _ p s => withF p [b] [] s fun v pop s =>
    mergeBody 2 4 sc (getX p a s) (v b).toNat p s fun s => .ok (pop s)) s

/-! ### PREF, CINV, CFLUSH (R224) -/

/-- The physical line an address maps to for a thread, without a page fault: none where it is not
canonical, lies in a window, is unmapped or lacks permission, or is no DRAM (R224). -/
def quietLine (p : Place) (va : Word) (s : State) : Option (Nat × Bool) × State :=
  let g := s.agent p
  if !canonical va || inWindow va then (none, s)
  else match translate g va 1 .read s with
    | (.to (.dram pa _ nc _), s) => (some (pa / 128, nc), s)
    | (_, s) => (none, s)

/-- The state with no L1 or instruction-cache line of the gang at an address on a cluster (05 R101). -/
def dropVa (p : Place) (va : Word) (ic : Bool) (s : State) : State :=
  let g := (s.thread p).gang
  let tag := va.toNat / 128
  match p.cluster? with
  | none =>
    match p.core? with
    | some k => if ic then s.modCore k fun c =>
        { c with ic := c.ic.filter fun l => !(l.gang == g && l.tag == tag) } else s
    | none => s
  | some cl =>
    s.modCluster cl fun c =>
      { c with l1 := c.l1.filter fun l => !(l.gang == g && l.tag == tag)
               ic := if ic then c.ic.filter (fun l => !(l.gang == g && l.tag == tag)) else c.ic }

/-- PREF (R224). -/
def execPref (sc : Scope) (a : Reg) (s : State) : Host.Outcome State Fault Refusal :=
  issueWord (.pref sc a) (fun _ p s =>
    let va := getX p a s
    match quietLine p va s with
    | (none, s) => .ok s
    | (some (line, nc), s) =>
      match sc, p.cluster? with
      | .cl, some _ => .ok (dramLoad (s.agent p) (va &&& ~~~(127 : Word)) (line * 128) 1 nc .normal true s).2
      | .die, cl => .ok (if nc then s else (sliceLine cl p.die line 128 true s).2)
      | _, cl =>
        let r := homeServe line (settleLine line s)
        .ok (countRead cl p.die (r.2.2.homeDie (line * 128)) 0 true r.1 r.2.1 r.2.2)) s

/-- What the thread has fetched ahead is fetched again after a CINV (05 R101). -/
def dropFetched (p : Place) (s : State) : State :=
  match p with
  | .lane cl e sl _ => s.modWave cl e sl fun w => { w with fetch := [] }
  | .ctx _ _ _ => s.modThread p fun t => { t with fetch := [] }
  | .lctx _ _ _ => s.modThread p fun t => { t with fetch := [] }

/-- CINV (R224): the cluster's lines; the own die's copy; every die's copy. -/
def execCinv (sc : Scope) (a : Reg) (s : State) : Host.Outcome State Fault Refusal :=
  issueWord (.cinv sc a) (fun _ p s =>
    let va := getX p a s
    let s := dropFetched p (dropVa p va true s)
    match sc, quietLine p va s with
    | .cl, (_, s) => .ok s
    | _, (none, s) => .ok s
    | .die, (some (line, _), s) => .ok (dropCopy line p.die s)
    | _, (some (line, _), s) =>
      .ok ((List.range 4).foldl (fun s d => dropCopy line d s) s)) s

/-- CFLUSH (R224): the thread's stores to the line are performed at the scope, and the line leaves L1;
at `.sys` the home's copy goes to DRAM. -/
def execCflush (sc : Scope) (a : Reg) (s : State) : Host.Outcome State Fault Refusal :=
  issueWord (.cflush sc a) (fun _ p s =>
    let va := getX p a s
    match quietLine p va (pushAll p s) with
    | (none, s) => .ok s
    | (some (line, _), s) =>
      let s := drain (fun e => e.place == p && e.line? == some line) (fun e => e.level sc) s
      let s := dropVa p va false s
      .ok (if sc = .sys then writeBack (s.homeLanding (line * 128)) line s else s)) s

end Sys2Proof.Machine
end

