-- ==== Sys2Proof/Machine/Pred.lean ====
section
/-!
DEFINITION. Predicates: PRED but FCMP, and PLOG (05 R124, R125).
-/

namespace Sys2Proof.Machine

/-- The condition of PCMP and PCMPI (05 R124). -/
def ccHolds (c : Cc) (a v : Word) : Bool :=
  match c with
  | .eq => a == v
  | .ne => a != v
  | .lt => decide (sgn a < sgn v)
  | .ge => decide (sgn v ≤ sgn a)
  | .ltu => decide (a.toNat < v.toNat)
  | .geu => decide (v.toNat ≤ a.toNat)

/-- PCMP (R124). -/
def execPcmp (c : Cc) (n : Pred) (a b : Reg) (s : State) : Host.Outcome State Fault Refusal :=
  issueWord (.pcmp c n a b) (fun _ p s =>
    .ok (setPred p 2 n (ccHolds c (getX p a s) (getX p b s)) s)) s

/-- PCMPI (R124). -/
def execPcmpi (c : Cc) (n : Pred) (a : Reg) (i : BitVec 5) (s : State) :
    Host.Outcome State Fault Refusal :=
  issueWord (.pcmpi c n a i) (fun _ p s =>
    .ok (setPred p 2 n (ccHolds c (getX p a s) (ofI (sext i.toNat 5))) s)) s

/-- A word that writes a predicate with a function of two (05 R125). -/
def wordPPP (i : Instr) (d a b : Pred) (f : Bool → Bool → Bool) (s : State) :
    Host.Outcome State Fault Refusal :=
  issueWord i (fun _ p s => .ok (setPred p 2 d (f (getP p a s) (getP p b s)) s)) s

/-- PAND (R125). -/
def execPand (d a b : Pred) (s : State) : Host.Outcome State Fault Refusal :=
  wordPPP (.pand d a b) d a b (fun x y => x && y) s

/-- POR (R125). -/
def execPor (d a b : Pred) (s : State) : Host.Outcome State Fault Refusal :=
  wordPPP (.por d a b) d a b (fun x y => x || y) s

/-- PXOR (R125). -/
def execPxor (d a b : Pred) (s : State) : Host.Outcome State Fault Refusal :=
  wordPPP (.pxor d a b) d a b (fun x y => x != y) s

/-- PANDN (R125). -/
def execPandn (d a b : Pred) (s : State) : Host.Outcome State Fault Refusal :=
  wordPPP (.pandn d a b) d a b (fun x y => x && !y) s

/-- PORN (R125). -/
def execPorn (d a b : Pred) (s : State) : Host.Outcome State Fault Refusal :=
  wordPPP (.porn d a b) d a b (fun x y => x || !y) s

/-- PNOT (R125). -/
def execPnot (d a : Pred) (s : State) : Host.Outcome State Fault Refusal :=
  wordPPP (.pnot d a) d a a (fun x _ => !x) s

end Sys2Proof.Machine
end

