-- ==== Sys2Proof/Machine/Dispatch.lean ====
section
/-!
DEFINITION. One arm for each row of the opcode table: the call of that row's meaning.
-/

namespace Sys2Proof.Machine

def exec (i : Instr) (s : State) : Host.Outcome State Fault Refusal :=
  match i with
  | .add d a b => Sys2Proof.Machine.execAdd d a b s
  | .sub d a b => Sys2Proof.Machine.execSub d a b s
  | .and d a b => Sys2Proof.Machine.execAnd d a b s
  | .or d a b => Sys2Proof.Machine.execOr d a b s
  | .xor d a b => Sys2Proof.Machine.execXor d a b s
  | .andn d a b => Sys2Proof.Machine.execAndn d a b s
  | .orn d a b => Sys2Proof.Machine.execOrn d a b s
  | .xnor d a b => Sys2Proof.Machine.execXnor d a b s
  | .shl d a b => Sys2Proof.Machine.execShl d a b s
  | .shr d a b => Sys2Proof.Machine.execShr d a b s
  | .sar d a b => Sys2Proof.Machine.execSar d a b s
  | .rol d a b => Sys2Proof.Machine.execRol d a b s
  | .ror d a b => Sys2Proof.Machine.execRor d a b s
  | .mul d a b => Sys2Proof.Machine.execMul d a b s
  | .mulh d a b => Sys2Proof.Machine.execMulh d a b s
  | .mulhu d a b => Sys2Proof.Machine.execMulhu d a b s
  | .div d a b => Sys2Proof.Machine.execDiv d a b s
  | .divu d a b => Sys2Proof.Machine.execDivu d a b s
  | .rem d a b => Sys2Proof.Machine.execRem d a b s
  | .remu d a b => Sys2Proof.Machine.execRemu d a b s
  | .min d a b => Sys2Proof.Machine.execMin d a b s
  | .max d a b => Sys2Proof.Machine.execMax d a b s
  | .minu d a b => Sys2Proof.Machine.execMinu d a b s
  | .maxu d a b => Sys2Proof.Machine.execMaxu d a b s
  | .slt d a b => Sys2Proof.Machine.execSlt d a b s
  | .sltu d a b => Sys2Proof.Machine.execSltu d a b s
  | .clz d a => Sys2Proof.Machine.execClz d a s
  | .ctz d a => Sys2Proof.Machine.execCtz d a s
  | .pop d a => Sys2Proof.Machine.execPop d a s
  | .brev d a => Sys2Proof.Machine.execBrev d a s
  | .bswap d a => Sys2Proof.Machine.execBswap d a s
  | .sextB d a => Sys2Proof.Machine.execSextB d a s
  | .sextH d a => Sys2Proof.Machine.execSextH d a s
  | .sextW d a => Sys2Proof.Machine.execSextW d a s
  | .zextB d a => Sys2Proof.Machine.execZextB d a s
  | .zextH d a => Sys2Proof.Machine.execZextH d a s
  | .zextW d a => Sys2Proof.Machine.execZextW d a s
  | .addw d a b => Sys2Proof.Machine.execAddw d a b s
  | .subw d a b => Sys2Proof.Machine.execSubw d a b s
  | .mulw d a b => Sys2Proof.Machine.execMulw d a b s
  | .addi d a im => Sys2Proof.Machine.execAddi d a im s
  | .andi d a im => Sys2Proof.Machine.execAndi d a im s
  | .ori d a im => Sys2Proof.Machine.execOri d a im s
  | .xori d a im => Sys2Proof.Machine.execXori d a im s
  | .shli d a n => Sys2Proof.Machine.execShli d a n s
  | .shri d a n => Sys2Proof.Machine.execShri d a n s
  | .sari d a n => Sys2Proof.Machine.execSari d a n s
  | .roli d a n => Sys2Proof.Machine.execRoli d a n s
  | .slti d a im => Sys2Proof.Machine.execSlti d a im s
  | .lui d im => Sys2Proof.Machine.execLui d im s
  | .luih d im => Sys2Proof.Machine.execLuih d im s
  | .addpc d im => Sys2Proof.Machine.execAddpc d im s
  | .lea d a b sc im => Sys2Proof.Machine.execLea d a b sc im s
  | .bfxu d a l p => Sys2Proof.Machine.execBfxu d a l p s
  | .bfx d a l p => Sys2Proof.Machine.execBfx d a l p s
  | .bfi d a l p => Sys2Proof.Machine.execBfi d a l p s
  | .mhpk d a b l => Sys2Proof.Machine.execMhpk d a b l s
  | .mhun sc d a l => Sys2Proof.Machine.execMhun sc d a l s
  | .layw a b => Sys2Proof.Machine.execLayw a b s
  | .layr d a => Sys2Proof.Machine.execLayr d a s
  | .prdx d g => Sys2Proof.Machine.execPrdx d g s
  | .xprd a g => Sys2Proof.Machine.execXprd a g s
  | .pcmp c p a b => Sys2Proof.Machine.execPcmp c p a b s
  | .pcmpi c p a im => Sys2Proof.Machine.execPcmpi c p a im s
  | .fcmp c p a b => Sys2Proof.Machine.execFcmp c p a b s
  | .pand p a b => Sys2Proof.Machine.execPand p a b s
  | .por p a b => Sys2Proof.Machine.execPor p a b s
  | .pxor p a b => Sys2Proof.Machine.execPxor p a b s
  | .pandn p a b => Sys2Proof.Machine.execPandn p a b s
  | .porn p a b => Sys2Proof.Machine.execPorn p a b s
  | .pnot p a => Sys2Proof.Machine.execPnot p a s
  | .br o => Sys2Proof.Machine.execBr o s
  | .call o => Sys2Proof.Machine.execCall o s
  | .brp p o => Sys2Proof.Machine.execBrp p o s
  | .brn p o => Sys2Proof.Machine.execBrn p o s
  | .jmpr a => Sys2Proof.Machine.execJmpr a s
  | .callr a => Sys2Proof.Machine.execCallr a s
  | .ret => Sys2Proof.Machine.execRet s
  | .fadd r d a b => Sys2Proof.Machine.execFadd r d a b s
  | .fsub r d a b => Sys2Proof.Machine.execFsub r d a b s
  | .fmul r d a b => Sys2Proof.Machine.execFmul r d a b s
  | .fdiv r d a b => Sys2Proof.Machine.execFdiv r d a b s
  | .fsqrt r d a => Sys2Proof.Machine.execFsqrt r d a s
  | .fmin r d a b => Sys2Proof.Machine.execFmin r d a b s
  | .fmax r d a b => Sys2Proof.Machine.execFmax r d a b s
  | .fabs r d a => Sys2Proof.Machine.execFabs r d a s
  | .fneg r d a => Sys2Proof.Machine.execFneg r d a s
  | .fsgnj r d a b => Sys2Proof.Machine.execFsgnj r d a b s
  | .frcp r d a => Sys2Proof.Machine.execFrcp r d a s
  | .frsq r d a => Sys2Proof.Machine.execFrsq r d a s
  | .fexp2 r d a => Sys2Proof.Machine.execFexp2 r d a s
  | .flog2 r d a => Sys2Proof.Machine.execFlog2 r d a s
  | .fsin r d a => Sys2Proof.Machine.execFsin r d a s
  | .fcos r d a => Sys2Proof.Machine.execFcos r d a s
  | .fclass r d a => Sys2Proof.Machine.execFclass r d a s
  | .f2i r d a => Sys2Proof.Machine.execF2i r d a s
  | .f2iu r d a => Sys2Proof.Machine.execF2iu r d a s
  | .i2f r d a => Sys2Proof.Machine.execI2f r d a s
  | .iu2f r d a => Sys2Proof.Machine.execIu2f r d a s
  | .f2bf r d a => Sys2Proof.Machine.execF2bf r d a s
  | .bf2f r d a => Sys2Proof.Machine.execBf2f r d a s
  | .f2h r d a => Sys2Proof.Machine.execF2h r d a s
  | .h2f r d a => Sys2Proof.Machine.execH2f r d a s
  | .hadd2 r d a b => Sys2Proof.Machine.execHadd2 r d a b s
  | .hmul2 r d a b => Sys2Proof.Machine.execHmul2 r d a b s
  | .hmin2 r d a b => Sys2Proof.Machine.execHmin2 r d a b s
  | .hmax2 r d a b => Sys2Proof.Machine.execHmax2 r d a b s
  | .fmvXf r d a => Sys2Proof.Machine.execFmvXf r d a s
  | .fmvFx r d a => Sys2Proof.Machine.execFmvFx r d a s
  | .fma r d a b c => Sys2Proof.Machine.execFma r d a b c s
  | .fms r d a b c => Sys2Proof.Machine.execFms r d a b c s
  | .fnma r d a b c => Sys2Proof.Machine.execFnma r d a b c s
  | .fnms r d a b c => Sys2Proof.Machine.execFnms r d a b c s
  | .hfma2 r d a b c => Sys2Proof.Machine.execHfma2 r d a b c s
  | .hfma2h r d a b c => Sys2Proof.Machine.execHfma2h r d a b c s
  | .ldB h d a o => Sys2Proof.Machine.execLdB h d a o s
  | .ldBu h d a o => Sys2Proof.Machine.execLdBu h d a o s
  | .ldH h d a o => Sys2Proof.Machine.execLdH h d a o s
  | .ldHu h d a o => Sys2Proof.Machine.execLdHu h d a o s
  | .ldW h d a o => Sys2Proof.Machine.execLdW h d a o s
  | .ldWu h d a o => Sys2Proof.Machine.execLdWu h d a o s
  | .ldD h d a o => Sys2Proof.Machine.execLdD h d a o s
  | .fld h d a o => Sys2Proof.Machine.execFld h d a o s
  | .stB h d a o => Sys2Proof.Machine.execStB h d a o s
  | .stH h d a o => Sys2Proof.Machine.execStH h d a o s
  | .stW h d a o => Sys2Proof.Machine.execStW h d a o s
  | .stD h d a o => Sys2Proof.Machine.execStD h d a o s
  | .fst h d a o => Sys2Proof.Machine.execFst h d a o s
  | .lda z sc d a im => Sys2Proof.Machine.execLda z sc d a im s
  | .strel z sc b a im => Sys2Proof.Machine.execStrel z sc b a im s
  | .fence sc => Sys2Proof.Machine.execFence sc s
  | .atomAdd z sc d a b => Sys2Proof.Machine.execAtomAdd z sc d a b s
  | .atomMin z sc d a b => Sys2Proof.Machine.execAtomMin z sc d a b s
  | .atomMax z sc d a b => Sys2Proof.Machine.execAtomMax z sc d a b s
  | .atomMinu z sc d a b => Sys2Proof.Machine.execAtomMinu z sc d a b s
  | .atomMaxu z sc d a b => Sys2Proof.Machine.execAtomMaxu z sc d a b s
  | .atomAnd z sc d a b => Sys2Proof.Machine.execAtomAnd z sc d a b s
  | .atomOr z sc d a b => Sys2Proof.Machine.execAtomOr z sc d a b s
  | .atomXor z sc d a b => Sys2Proof.Machine.execAtomXor z sc d a b s
  | .atomSwap z sc d a b => Sys2Proof.Machine.execAtomSwap z sc d a b s
  | .cas z sc d a b => Sys2Proof.Machine.execCas z sc d a b s
  | .amergeI z sc a b => Sys2Proof.Machine.execAmergeI z sc a b s
  | .amergeF sc a b => Sys2Proof.Machine.execAmergeF sc a b s
  | .pref sc a => Sys2Proof.Machine.execPref sc a s
  | .cinv sc a => Sys2Proof.Machine.execCinv sc a s
  | .cflush sc a => Sys2Proof.Machine.execCflush sc a s
  | .sbind sc a => Sys2Proof.Machine.execSbind sc a s
  | .sclose sc => Sys2Proof.Machine.execSclose sc s
  | .sstat d sc => Sys2Proof.Machine.execSstat d sc s
  | .tcopy d a => Sys2Proof.Machine.execTcopy d a s
  | .tlwait sc a b => Sys2Proof.Machine.execTlwait sc a b s
  | .tlread k d a => Sys2Proof.Machine.execTlread k d a s
  | .tlarm a b => Sys2Proof.Machine.execTlarm a b s
  | .galloc d a b => Sys2Proof.Machine.execGalloc d a b s
  | .gtry d a b => Sys2Proof.Machine.execGtry d a b s
  | .gseal a => Sys2Proof.Machine.execGseal a s
  | .gtake d a => Sys2Proof.Machine.execGtake d a s
  | .gdone a => Sys2Proof.Machine.execGdone a s
  | .gdrop a b => Sys2Proof.Machine.execGdrop a b s
  | .gstatBay d a => Sys2Proof.Machine.execGstatBay d a s
  | .gstatTile d a => Sys2Proof.Machine.execGstatTile d a s
  | .gbay d a b => Sys2Proof.Machine.execGbay d a b s
  | .wcfg g a => Sys2Proof.Machine.execWcfg g a s
  | .wrcf a g => Sys2Proof.Machine.execWrcf a g s
  | .wldp sc rev im a b => Sys2Proof.Machine.execWldp sc rev im a b s
  | .wldt sc rev im a b => Sys2Proof.Machine.execWldt sc rev im a b s
  | .wmul p m n a => Sys2Proof.Machine.execWmul p m n a s
  | .wmac m n a b => Sys2Proof.Machine.execWmac m n a b s
  | .wext p a b => Sys2Proof.Machine.execWext p a b s
  | .wrot t m n => Sys2Proof.Machine.execWrot t m n s
  | .wmacr t m n a b => Sys2Proof.Machine.execWmacr t m n a b s
  | .wsta a b => Sys2Proof.Machine.execWsta a b s
  | .wzero a b => Sys2Proof.Machine.execWzero a b s
  | .wzeroZ im => Sys2Proof.Machine.execWzeroZ im s
  | .wwait a => Sys2Proof.Machine.execWwait a s
  | .wstat clr a sel => Sys2Proof.Machine.execWstat clr a sel s
  | .wmov d a => Sys2Proof.Machine.execWmov d a s
  | .wunpk sc a im => Sys2Proof.Machine.execWunpk sc a im s
  | .wshft sc d a b => Sys2Proof.Machine.execWshft sc d a b s
  | .msend a b => Sys2Proof.Machine.execMsend a b s
  | .mreq a b => Sys2Proof.Machine.execMreq a b s
  | .mret => Sys2Proof.Machine.execMret s
  | .hset a b => Sys2Proof.Machine.execHset a b s
  | .hmask d a b => Sys2Proof.Machine.execHmask d a b s
  | .rput a b => Sys2Proof.Machine.execRput a b s
  | .qget d a => Sys2Proof.Machine.execQget d a s
  | .qpeek d a => Sys2Proof.Machine.execQpeek d a s
  | .dqpush sc d a b => Sys2Proof.Machine.execDqpush sc d a b s
  | .dqpop d => Sys2Proof.Machine.execDqpop d s
  | .dqsteal d a => Sys2Proof.Machine.execDqsteal d a s
  | .bar sc d a => Sys2Proof.Machine.execBar sc d a s
  | .bara sc d a => Sys2Proof.Machine.execBara sc d a s
  | .barw sc a b => Sys2Proof.Machine.execBarw sc a b s
  | .pace s0 s1 s2 s3 s4 s5 s6 s7 => Sys2Proof.Machine.execPace s0 s1 s2 s3 s4 s5 s6 s7 s
  | .guard p neg n => Sys2Proof.Machine.execGuard p neg n s
  | .vshfl m keep fp k d a b => Sys2Proof.Machine.execVshfl m keep fp k d a b s
  | .vred op d a => Sys2Proof.Machine.execVred op d a s
  | .vscan op ex d a => Sys2Proof.Machine.execVscan op ex d a s
  | .vball d p => Sys2Proof.Machine.execVball d p s
  | .velect d p => Sys2Proof.Machine.execVelect d p s
  | .vquant d a b k => Sys2Proof.Machine.execVquant d a b k s
  | .vdeq d a b => Sys2Proof.Machine.execVdeq d a b s
  | .venc d a w => Sys2Proof.Machine.execVenc d a w s
  | .mbpost d a b => Sys2Proof.Machine.execMbpost d a b s
  | .mbwait d a => Sys2Proof.Machine.execMbwait d a s
  | .gflush a => Sys2Proof.Machine.execGflush a s
  | .migr a => Sys2Proof.Machine.execMigr a s
  | .mgpt => Sys2Proof.Machine.execMgpt s
  | .trap im => Sys2Proof.Machine.execTrap im s
  | .eret => Sys2Proof.Machine.execEret s
  | .sysr d r => Sys2Proof.Machine.execSysr d r s
  | .sysw r a => Sys2Proof.Machine.execSysw r a s
  | .wfm => Sys2Proof.Machine.execWfm s
  | .yield => Sys2Proof.Machine.execYield s
  | .exit a => Sys2Proof.Machine.execExit a s
  | .pginv a => Sys2Proof.Machine.execPginv a s
  | .brk im => Sys2Proof.Machine.execBrk im s
  | .illegalInstruction w => Sys2Proof.Machine.execIllegalInstruction w s
  | .hostWindowMessage off data => Sys2Proof.Machine.execHostWindowMessage off data s
  | .submissionAreaBadWrite off len => Sys2Proof.Machine.execSubmissionAreaBadWrite off len s
  | .windowPassMessage => Sys2Proof.Machine.execWindowPassMessage s
  | .bar4Write off data => Sys2Proof.Machine.execBar4Write off data s
  | .bar4Read off len => Sys2Proof.Machine.execBar4Read off len s
  | .featackWrite im v => Sys2Proof.Machine.execFeatackWrite im v s
  | .featlockWrite v => Sys2Proof.Machine.execFeatlockWrite v s
  | .hrqheadWrite v => Sys2Proof.Machine.execHrqheadWrite v s
  | .pwrcapWrite v => Sys2Proof.Machine.execPwrcapWrite v s
  | .linkstatWrite v => Sys2Proof.Machine.execLinkstatWrite v s
  | .logtailOvfClear die v => Sys2Proof.Machine.execLogtailOvfClear die v s
  | .registerWrite off v => Sys2Proof.Machine.execRegisterWrite off v s
  | .messageDelivery src => Sys2Proof.Machine.execMessageDelivery src s
  | .handlerStart c k => Sys2Proof.Machine.execHandlerStart c k s
  | .directStart c k => Sys2Proof.Machine.execDirectStart c k s
  | .mreqReply n => Sys2Proof.Machine.execMreqReply n s
  | .gangLaunch => Sys2Proof.Machine.execGangLaunch s
  | .dispatcherPass => Sys2Proof.Machine.execDispatcherPass s
  | .headAgeingTimeout q => Sys2Proof.Machine.execHeadAgeingTimeout q s
  | .gangLoad g root text data => Sys2Proof.Machine.execGangLoad g root text data s
  | .gangRelease g die => Sys2Proof.Machine.execGangRelease g die s
  | .temperatureSample sensor t => Sys2Proof.Machine.execTemperatureSample sensor t s
  | .eligibilityWindowEnd => Sys2Proof.Machine.execEligibilityWindowEnd s
  | .powerSample amps watts => Sys2Proof.Machine.execPowerSample amps watts s
  | .droopEvent cl => Sys2Proof.Machine.execDroopEvent cl s
  | .fetchGroupDelivery u => Sys2Proof.Machine.execFetchGroupDelivery u s
  | .bucketPostArrival cl n => Sys2Proof.Machine.execBucketPostArrival cl n s
  | .bucketTimeout cl b => Sys2Proof.Machine.execBucketTimeout cl b s
  | .waveLaunch cl b => Sys2Proof.Machine.execWaveLaunch cl b s
  | .migrationPlacement cl => Sys2Proof.Machine.execMigrationPlacement cl s
  | .rputArrival srcs => Sys2Proof.Machine.execRputArrival srcs s
  | .homeRequest rs => Sys2Proof.Machine.execHomeRequest rs s
  | .invalidationAcknowledge n die => Sys2Proof.Machine.execInvalidationAcknowledge n die s
  | .lineWriteback l line => Sys2Proof.Machine.execLineWriteback l line s
  | .rowCapture l row => Sys2Proof.Machine.execRowCapture l row s
  | .refreshWindowStart l => Sys2Proof.Machine.execRefreshWindowStart l s
  | .streamElementArrival p f => Sys2Proof.Machine.execStreamElementArrival p f s
  | .streamPushPerform p f => Sys2Proof.Machine.execStreamPushPerform p f s
  | .copySectorComplete u => Sys2Proof.Machine.execCopySectorComplete u s
  | .copyComplete u => Sys2Proof.Machine.execCopyComplete u s
  | .triggerMessageSend cl => Sys2Proof.Machine.execTriggerMessageSend cl s
  | .galleryRequest cl n => Sys2Proof.Machine.execGalleryRequest cl n s
  | .galleryHandout cl => Sys2Proof.Machine.execGalleryHandout cl s
  | .bayWatchdogExpiry g rank b => Sys2Proof.Machine.execBayWatchdogExpiry g rank b s
  | .bankOperationStart cl => Sys2Proof.Machine.execBankOperationStart cl s
  | .bankOperationComplete cl => Sys2Proof.Machine.execBankOperationComplete cl s
  | .rotationStepResume cl => Sys2Proof.Machine.execRotationStepResume cl s
  | .bankWatchdogReset cl => Sys2Proof.Machine.execBankWatchdogReset cl s
  | .barrierPhasePropagate g b die => Sys2Proof.Machine.execBarrierPhasePropagate g b die s
  | .stealRequest cl => Sys2Proof.Machine.execStealRequest cl s
  | .faultTokenAssign cl => Sys2Proof.Machine.execFaultTokenAssign cl s
  | .pagerReply cl c => Sys2Proof.Machine.execPagerReply cl c s
  | .preemptionCommand cl c => Sys2Proof.Machine.execPreemptionCommand cl c s
  | .shareSave g rank => Sys2Proof.Machine.execShareSave g rank s
  | .gangRestore g => Sys2Proof.Machine.execGangRestore g s
  | .lend => Sys2Proof.Machine.execLend s
  | .errorEvent unit kind addr => Sys2Proof.Machine.execErrorEvent unit kind addr s
  | .dataError p addr => Sys2Proof.Machine.execDataError p addr s
  | .errorLogCapture die => Sys2Proof.Machine.execErrorLogCapture die s
  | .linkFlitRetry link again => Sys2Proof.Machine.execLinkFlitRetry link again s
  | .linkAckTimeout link => Sys2Proof.Machine.execLinkAckTimeout link s
  | .noviloFrameReceive head body => Sys2Proof.Machine.execNoviloFrameReceive head body s
  | .spdmRequest nonce => Sys2Proof.Machine.execSpdmRequest nonce s
  | .deviceReset => Sys2Proof.Machine.execDeviceReset s
  | .eopraBoot flash ecdsa lms => Sys2Proof.Machine.execEopraBoot flash ecdsa lms s
  | .gangRetire g => Sys2Proof.Machine.execGangRetire g s
  | .memoryReply r => Sys2Proof.Machine.execMemoryReply r s
  | .linkRestore link => Sys2Proof.Machine.execLinkRestore link s

end Sys2Proof.Machine
end

