-- ==== Sys2Proof/Machine/Step.lean ====
section
/-!
DEFINITION. One step of the device: the mover the schedule names acts, and the next mover is drawn
(log 1); and the placing of one instruction where the next step runs it.
-/

namespace Sys2Proof.Machine

/-- The state with the next mover: the head of the agenda, or a drawn one (log 1). -/
def advance (s : State) : State :=
  match s.agenda with
  | t :: ts => { s with turn := t, agenda := ts }
  | [] => { s with turn := Config.turnAt s.draws, draws := s.draws + 1 }

/-- An outcome followed by the drawing of the next mover. -/
def thenAdvance : Host.Outcome State Fault Refusal → Host.Outcome State Fault Refusal
  | .next s => .next (advance s)
  | .fault f => .fault f
  | .refused r => .refused r

/-- A crew's turn: it issues its next word if it may issue in this clk, takes the fault of its fetch, with which
nothing issues, or runs the firmware's default trap routine; otherwise nothing happens. -/
def issueTurn (u : Crew) (s : State) : Host.Outcome State Fault Refusal :=
  match s.standing u with
  | [] => .next s
  | p :: _ =>
    match s.nextWord u p (s.thread p).pc with
    | .none => .next s
    | .bad c => .next (if fetchStuck s u then eachStanding u (fetchFault c) s else s)
    | .routine => .next (if canIssue s u then forStanding u routineStep s else s)
    | .word w => if canIssue s u then exec (instrOf w) s else .next s

/-- A waiting thread's turn: it looks whether its wait has ended. -/
def resumeTurn (p : Place) (s : State) : Host.Outcome State Fault Refusal :=
  match (s.thread p).run with
  | .fetchSleep => heldOver p (.next (wakeFetch p s))
  | .wait i .sleep => heldOver p (wakeSleep p i (exec i) s)
  | .wait i _ => heldOver p (exec i s)
  | .running => .next s
  | .idle => .next s
  | .retired => .next s

/-- An agent's turn: the event acts; a word is no event. -/
def actTurn (i : Instr) (s : State) : Host.Outcome State Fault Refusal :=
  if Instr.isEvent i then exec i s else .next s

/-- What the mover named by the turn does. -/
def moverStep (s : State) : Host.Outcome State Fault Refusal :=
  match s.turn with
  | .tick => .next (tickState s)
  | .issue u _ => issueTurn u s
  | .resume p => resumeTurn p s
  | .act i => actTurn i s
  | .move m => .next (moveStep m s)

/-- The turn of the mover that the schedule names: it acts when its time in the clk has come, and nothing does once a
thermal trip has stopped every clock. -/
def turnStep (s : State) : Host.Outcome State Fault Refusal :=
  if clockStopped s then .next s
  else match takePlace s s.turn with
  | none => .next s
  | some s => moverStep s

/-- One step. -/
def step (s : State) : Host.Outcome State Fault Refusal := thenAdvance (turnStep s)

/-- The gang of one share with which a placed instruction runs: GANGID 1, translation root 0. -/
def placedGang : Gang where
  id := 1
  desc := { strict := false, homedir := false, compqValid := false, queue := 0, nunits := 1, rows := 1,
            cols := 1, ctx := 1, waves := 0, bank := true, ntl := 1, scratch := 1, nbar := 1,
            template := 0, image := 0, entry := 0, entryn := 1, arg0 := 0, arg1 := 0, homearg := 0,
            homestride := 0, save := 0, compl := 0x1000, compq := 0, cookie := 0,
            barmask := 1 :: List.replicate 15 0 }
  bays := []
  phase := .running
  restoring := false
  released := [0]
  root := 0
  text := 0x20000
  summary := Summary.blank

/-- Its share, on cluster 0, with context 0 of core 0. -/
def placedShare : Share where
  gang := 1
  rank := 0
  unit := 0
  launch := 0
  cl := 0
  cores := [0]
  nctx := 1
  slots := []
  spadBase := 0
  spadSize := 4096
  bank := true
  barIds := [0]
  tls := [{ phys := 0, v := 0, i := 0, f := 0, fcause := 0, fails := [], early := [], trigs := [] }]
  bays := List.replicate 8 none
  bars := [BarShare.blank]
  tvec := 0x10000
  gtimeout := 2048
  decode := List.replicate 256 0
  lay := List.replicate 64 (0, 0)
  tab := List.replicate 16 HEntry.blank
  spill := []
  stopped := false
  saved := none

/-- s with the instruction w loaded as a launch would leave it at the release of a gang of one share:
context 0 of core 0 of cluster 0 stands at 0x20000 with the group that holds the
word fetched, and it is the mover of the next step (log 10). -/
def State.withFetchWord (s : State) (_nbits w : Nat) : State :=
  let p : Place := .ctx 0 0 0
  let g : Group := { addr := 0x20000, words := BitVec.ofNat 32 w :: List.replicate 7 0, clk := s.clk,
                     bad := 0 }
  let t : Thread := { Thread.blank with
    gang := 1
    pc := 0x20000
    run := .running
    fetch := [g] }
  let s := { s with
    clk := s.clk + 1
    slot := 0
    gangs := FMap.put s.gangs 1 placedGang
    shares := FMap.put s.shares (shareKey 1 0) placedShare
    cores := FMap.put s.cores (CoreId.key (.scalar 0 0)) Core.blank
    turn := .issue (.ctx 0 0 0) false }
  s.setThread p t

end Sys2Proof.Machine
end

