-- ==== Sys2Proof/Safety.lean ====
section
/-!
DEFINITION. The terms statements use: when a word is issued, what it means that it completes, jumps, traps or
waits, what stays as it was, and what a safe run is.
-/

namespace Sys2Proof.Machine

/-! ### Runs -/

/-- The state a step goes on to, if it does. -/
def stepTo (s t : State) : Prop := step s = .next t

/-- A run of n steps from s stops at no fault and no refusal. -/
def safeFor : Nat → State → Prop
  | 0, _ => True
  | n + 1, s => ∃ t, step s = .next t ∧ safeFor n t

/-! ### What software and other agents can see -/

/-- A thread without the bookkeeping of fetch and issue: its registers, its streams, its results and accesses
in flight. -/
def Thread.arch (t : Thread) : Thread :=
  { t with pc := 0, run := .idle, grem := 0, pace := [], fetch := [], yieldUntil := 0, yieldFor := [],
           ready := 0, busy := [], entered := false, lastPc := none, flagDue := 0 }

/-- A core without the bookkeeping of issue: its buffers, its handler table, its deque, its layout table. -/
def Core.arch (c : Core) : Core := { c with iptr := 0, divFree := 0, fdivFree := 0, nextIssue := 0 }

/-- Everything outside the threads and the cores: memory, caches, waves, clusters, landings, gangs, shares,
messages, the dispatcher, the package and the schedule. -/
def State.device (s : State) : State := { s with threads := [], cores := [] }

/-- Everything but the thread at p stands in t as in s, but for the bookkeeping of issue. -/
structure Beside (p : Place) (s t : State) : Prop where
  threads : ∀ q, q.key ≠ p.key →
    (t.thread q).arch = (s.thread q).arch ∧ (t.thread q).pc = (s.thread q).pc ∧
      (t.thread q).run = (s.thread q).run ∧ (t.thread q).grem = (s.thread q).grem
  cores : ∀ c, (t.core c).arch = (s.core c).arch
  device : t.device = s.device

/-- The range words that remain after a word that stood with `before` of them (02 R55). -/
def countAfter (before own : Nat) : Nat := if before = 0 then own else before - 1

/-- The thread at p, which stood at a word as in s₁, has completed it, and the word's own effect made s₂: the pc
has advanced, the thread runs, and everything else is as the effect left it. -/
structure Finished (p : Place) (s₁ s₂ t : State) : Prop where
  regs : (t.thread p).arch = (s₂.thread p).arch
  pc : (t.thread p).pc = (s₁.thread p).pc + 4
  runs : (t.thread p).run = .running
  count : (t.thread p).grem = countAfter (s₁.thread p).grem (s₂.thread p).grem
  beside : Beside p s₂ t

/-- The thread at p has taken a transfer to dst: the GUARD range has ended (02 R56; 05 R126). -/
structure Jumped (p : Place) (dst : Word) (s₂ t : State) : Prop where
  regs : (t.thread p).arch = (s₂.thread p).arch
  pc : (t.thread p).pc = dst
  runs : (t.thread p).run = .running
  count : (t.thread p).grem = 0
  beside : Beside p s₂ t

/-- The thread at p waits in a named state inside the word i, at whose address it stays (00 R6). -/
structure Waits (p : Place) (i : Instr) (w : Wait) (s₁ s₂ t : State) : Prop where
  regs : (t.thread p).arch = (s₂.thread p).arch
  pc : (t.thread p).pc = (s₂.thread p).pc
  runs : (t.thread p).run = .wait i w
  beside : Beside p s₂ t

/-- A thread as trap entry leaves it, with the saved pc given (15 R333): the paced writes complete, CAUSE, EVAL, EPC
and EGUARD are written, GUARDST is cleared, MODE goes to PMODE and becomes 1, and the pc is the vector. -/
def Thread.trapped (t : Thread) (cause : Nat) (eval epc vec : Word) : Thread :=
  { t.landAll with
    cause := ofN cause, eval := eval, epc := epc, eguard := t.landAll.guardst, grem := 0, gcnd := false,
    pmode := t.mode, mode := true, pc := vec, run := .running }

/-- The thread at p, which stood in s₁, has taken a trap with a cause and EVAL that saved epc. -/
structure Trapped (p : Place) (cause : Nat) (eval epc : Word) (s₁ t : State) : Prop where
  regs : (t.thread p).arch = ((s₁.thread p).trapped cause eval epc (s₁.tvecOf p)).arch
  pc : (t.thread p).pc = s₁.tvecOf p
  runs : (t.thread p).run = .running
  count : (t.thread p).grem = 0
  fresh : (t.thread p).entered = true
  beside : Beside p s₁ t

/-! ### The memories -/

/-- The memories and the sparse maps are in their canonical form (log 6). -/
structure State.Canonical (s : State) : Prop where
  dram : Memory.wf s.dram = true
  spad : ∀ cl, Memory.wf (s.cluster cl).spad = true
  slices : FMap.wf s.slices = true
  sharers : FMap.wf s.sharers = true

/-! ### Issue -/

/-- The context at p, of a scalar or a landing core, runs and has its turn to issue a word. -/
structure Issues (s : State) (p : Place) : Prop where
  context : p.engine ≠ .lane
  turn : ∃ b, s.turn = .issue p.crew b
  runs : (s.thread p).run = .running

/-- The state in which the word i takes its operands at p: the accesses in flight whose register it uses have
landed (02 R61). -/
def atIssue (i : Instr) (p : Place) (s : State) : State :=
  forceRegs i p (s.modThread p fun t => { t with entered := false, lastPc := some t.pc })

/-- The context at p issues the word i, which is not guarded off and raises no decode fault (02 R49, R55). -/
structure Clear (i : Instr) (p : Place) (s : State) : Prop where
  issues : Issues s p
  on : ((atIssue i p s).thread p).off = false
  sound : decodeFault i p ((atIssue i p s).thread p) = none

/-- The word i completes at p with effect e on the state in which it took its operands. -/
def Completes (i : Instr) (p : Place) (s : State) (e : State → State) : Prop :=
  ∃ t, exec i s = .next t ∧ Finished p (atIssue i p s) (e (atIssue i p s)) t

/-- The word i completes at p with a transfer to dst and effect e. -/
def CompletesTo (i : Instr) (p : Place) (s : State) (dst : Word) (e : State → State) : Prop :=
  ∃ t, exec i s = .next t ∧ Jumped p dst (e (atIssue i p s)) t

/-- The word i raises at p a fault that is reported as a trap, with a cause and EVAL and its own address saved; e is
what it did before, and every access of the thread in flight has landed (02 R61; 15 R333). A vector that is no
multiple of 4 is another statement's (15 R334). -/
def Traps (i : Instr) (p : Place) (s : State) (cause : Nat) (eval : Word) (e : State → State) : Prop :=
  ((forceLoads p (e (atIssue i p s))).tvecOf p).toNat % 4 = 0 →
    ∃ t, exec i s = .next t ∧
      Trapped p cause eval ((atIssue i p s).thread p).pc (forceLoads p (e (atIssue i p s))) t

/-- The word i waits at p in the state w, at its own address, after effect e. -/
def Blocks (i : Instr) (p : Place) (s : State) (w : Wait) (e : State → State) : Prop :=
  ∃ t, exec i s = .next t ∧ Waits p i w (atIssue i p s) (e (atIssue i p s)) t

/-- The word i completes at p, and its own effect leads from the state in which it took its operands to one that P
relates to it. -/
def CompletesWith (i : Instr) (p : Place) (s : State) (P : State → State → Prop) : Prop :=
  ∃ s₂ t, exec i s = .next t ∧ Finished p (atIssue i p s) s₂ t ∧ P (atIssue i p s) s₂

/-- The thread at p waits in the word i and has its turn to look again. -/
structure Looks (i : Instr) (w : Wait) (p : Place) (s : State) : Prop where
  turn : s.turn = .resume p
  here : (s.thread? p).isSome = true
  waits : (s.thread p).run = .wait i w

/-- The word i, in which the thread at p waited, completes with effect e. -/
def CompletesLater (i : Instr) (p : Place) (s : State) (e : State → State) : Prop :=
  ∃ t, exec i s = .next t ∧ Finished p s (e s) t

/-- The word i, in which the thread at p waited, raises a fault that is reported as a trap, every access of the thread
in flight landed (15 R333). -/
def TrapsLater (i : Instr) (p : Place) (s : State) (cause : Nat) (eval : Word) : Prop :=
  ((forceLoads p s).tvecOf p).toNat % 4 = 0 →
    ∃ t, exec i s = .next t ∧ Trapped p cause eval (s.thread p).pc (forceLoads p s) t

/-- The thread at p waits in the word i, which leaves it in the state w. -/
def Stays (i : Instr) (p : Place) (s : State) (w : Wait) : Prop :=
  ∃ t, exec i s = .next t ∧ Waits p i w s s t

/-! ### Waves -/

/-- The wave of slot sl of engine e of cl has its turn, and the lanes act, those at its issuing pc that are not guarded
off, take the word i from the state pre on; none meets a decode fault (02 R49, R55; 07 R162-R165). -/
structure WaveTurn (i : Instr) (cl e sl : Nat) (act : List Place) (s pre : State) : Prop where
  turn : ∃ b, s.turn = .issue (.wave cl e sl) b
  stands : s.standing (.wave cl e sl) ≠ []
  before : pre = prepLanes i ((landWave cl e sl s).standing (.wave cl e sl)) (landWave cl e sl s)
  active : act = activeOf i ((landWave cl e sl s).standing (.wave cl e sl)) pre
  sound : ∀ p ∈ act, decodeFault i p (pre.thread p) = none

/-- The lanes act run the word i: none reads a register before its latency, either (02 R60). -/
structure WaveRuns (i : Instr) (cl e sl : Nat) (act : List Place) (s pre : State) : Prop
    extends WaveTurn i cl e sl act s pre where
  inTime : ∀ p ∈ act, earlyRead i act p pre = none

/-- The word i completes in every active lane of its wave with the lane's own effect on the lane's registers, taken from
the state before any of them acts; the registers of every other thread, and memory, stay as they were (07 R165, R171). -/
def CompletesInWave (i : Instr) (f : List Place → State → Place → State → State) : Prop :=
  ∀ cl e sl act s pre, WaveRuns i cl e sl act s pre → ∃ t, exec i s = .next t ∧
    (∀ p ∈ act, (t.thread p).arch = ((f act pre p pre).thread p).arch ∧ (t.thread p).pc = (pre.thread p).pc + 4 ∧
      (t.thread p).run = .running) ∧
    (∀ q, (∀ p ∈ act, q.key ≠ p.key) → (t.thread q).arch = (pre.thread q).arch) ∧
    t.dram = pre.dram ∧ ∀ c, (t.cluster c).spad = (pre.cluster c).spad

/-- The value of the active lane j, or a value for a lane that is absent or inactive (07 R173). -/
def laneOr (act : List Place) (j : Nat) (none' : Nat) (v : Place → Nat) : Nat :=
  match act.find? (·.laneNum == j) with
  | some q => v q
  | none => none'

/-! ### Accesses -/

/-- Whether a target is a landing's register block. -/
def Target.isLreg (t : Target) : Bool :=
  match t with
  | .lreg _ _ => true
  | .dram _ _ _ _ => false
  | .spad _ _ _ _ _ => false
  | .remote _ _ => false
  | .hole => false

/-- A word that accesses w bytes at va, from s₁ on (09 R217; 15 R344, R356): it completes with what `done` says where
the access has a target and no data error, and otherwise traps with EVAL va, sleeps on a page fault, or waits for a
share that is saved or not released. -/
structure Accesses (i : Instr) (p : Place) (s s₁ : State) (va : Word) (w : Nat) (need : Need)
    (done : Target → State → Prop) : Prop where
  goes : ∀ t s', route (s₁.agent p) va w need s₁ = (.to t, s') → (need = .write ∨ dataBad s' t = false) → done t s'
  poisoned : ∀ t s', route (s₁.agent p) va w need s₁ = (.to t, s') → need ≠ .write → dataBad s' t = true →
    Traps i p s Cause.dataError va fun _ => s'
  faults : ∀ c s', route (s₁.agent p) va w need s₁ = (.bad c, s') → Traps i p s c va fun _ => s'
  sleeps : ∀ r l s', route (s₁.agent p) va w need s₁ = (.missed r l, s') →
    Blocks i p s .sleep fun _ => addMiss (s₁.agent p) (.thread p) va need r l s'
  waits : ∀ s', route (s₁.agent p) va w need s₁ = (.held, s') → Blocks i p s (.waiting 0 0) fun _ => s'

/-- A word that performs a release of its thread from s₁ on (09 R206; 10 R233): it completes with e once no pushed
element is left, and waits while one is. -/
structure Releases (i : Instr) (p : Place) (s s₁ : State) (sc : Scope) (merges : Bool) (e : State → State) : Prop where
  goes : ((pushAll p s₁).thread p).pushing = false →
    Completes i p s fun _ => e (releaseStores p sc merges (pushAll p s₁))
  waits : ((pushAll p s₁).thread p).pushing = true → Blocks i p s (.waiting 0 0) fun _ => pushAll p s₁

/-- n doublewords from va, loaded by the thread at p from s on without a fault, a sleep or a wait: they are ws, and s'
is the state that the loads leave (10 R245, R247). -/
def Loaded (p : Place) (n : Nat) (va : Word) (s : State) (ws : List Word) (s' : State) : Prop :=
  ∀ k, loadWords p n va [] s k = k ws s'

/-- The doublewords ws, stored from va by the thread at p from s on without a fault, a sleep or a wait; s' is the state
that the stores leave (08 R193). -/
def StoresAll (p : Place) (ws : List Word) (va : Word) (s s' : State) : Prop :=
  ∀ k, storeWords p ws va s k = k s'

/-- The stream of f(28 + i) of the thread at p. -/
def strmAt (p : Place) (i : Nat) (s : State) : Option Strm := ((s.thread p).strm[i]?).getD none

/-- The stream of f(28 + i) as SBIND leaves it: bound to a record, at element 0, with nothing fetched or pushed. -/
def freshStrm (r : List Word) (sealed : Bool) : Strm :=
  { record := r, pos := 0, ahead := [], push := [], base := 0, sealed := sealed, failAt := none, stale := false,
    counting := false }

/-- The copy a TCOPY of the thread t at p enters, with its record and its registration. -/
def newCopy (p : Place) (t : Thread) (r : List Word) (x : TlReg) : Copy :=
  { record := r, place := p, gang := t.gang, rank := t.rank, user := !t.mode, reg := x, done := 0, started := false,
    report := false, fin := none, failed := false }

/-! ### Registers -/

/-- A place's thread keeps the values the manual fixes: x0 reads 0 and p0 reads 1 (02 Table 02-1). -/
def Thread.fixedRegs (t : Thread) : Prop := t.getX 0 = 0 ∧ t.getP 0 = true

/-- The thread at p with x register d written. -/
def putX (p : Place) (d : Reg) (v : Word) (s : State) : State := s.modThread p fun t => t.setX d v

/-- The thread at p with f register d written. -/
def putFReg (p : Place) (d : Reg) (v : W32) (s : State) : State := s.modThread p fun t => t.setF d v

/-- The thread at p with predicate d written. -/
def putP (p : Place) (d : Nat) (b : Bool) (s : State) : State := s.modThread p fun t => t.setP d b

/-- The thread at p with x registers d and, where there is one, d + 1 written (02 R387). -/
def putPair (p : Place) (d : Reg) (v w : Word) (s : State) : State :=
  if h : d.val + 1 < 32 then putX p ⟨d.val + 1, h⟩ w (putX p d v s) else putX p d v s

/-! ### Galleries -/

/-- A gallery word that sends the request q to the unit of cluster cl from s₁ on (11 R258-R261): it waits for the
unit's answer; at a turn after the unit has given one, it completes with fin of the value, or takes the fault. -/
structure SendsGallery (i : Instr) (p : Place) (s s₁ : State) (cl : Nat) (q : GReq) (fin : Word → State → State) :
    Prop where
  sends : Blocks i p s (.waiting 2 0) fun _ => s₁.modCluster cl fun c => { c with gal := c.gal ++ [q] }
  ends : ∀ v w u, Looks i (.answered true v w) p u → CompletesLater i p u (fin v)
  faults : ∀ c v u, Looks i (.answered false c v) p u → TrapsLater i p u c.toNat v

/-- What an allocation gives: the handle and the tile's address, after an acquire at `.die`; 0 and 0 where GTRY found
no slot (11 R265). -/
def giveTile (p : Place) (d : Reg) (h : Word) (s : State) : State :=
  if h = 0 then putPair p d 0 0 s
  else
    let s := acquire p .die s
    putPair p d h (handleAddr (s.thread p).gang h s) s

/-! ### The bank -/

/-- The share of p's thread holds the bank of cluster cl, where the thread stands (12 R271). -/
def HoldsBank (p : Place) (s : State) (cl : Nat) : Prop :=
  p.cluster? = some cl ∧ ∃ sh, s.shareOf? p = some sh ∧ sh.bank = true ∧ sh.cl = cl

/-- The timeline that cluster cl's WTL names, if its EN is 1 (12 Table 12-9). -/
def bankTl (p : Place) (cl : Nat) (s : State) : Option (Nat × Nat × Nat) :=
  let v := recWord (s.bankOf cl).cfg.toList 7
  if wbit v 32 then tlRef p (ofN (wbits v 31 0)) s else none

/-- The bank of cl with the operation i entered: the next sequence number, the captured configuration and a place at
the queue's end (12 R282); an idle bank's watchdog counts from now (15 R354). -/
def bankEntered (i : Instr) (p : Place) (cl : Nat) (xa xb : Word) (reg : Option TlReg) (s₀ s : State) : State :=
  modBank cl (fun b => { b with
    bseq := b.bseq + 1
    queue := b.queue ++ [{ seq := (s₀.bankOf cl).bseq + 1, op := i, xa := xa, xb := xb,
                           cfg := (s₀.bankOf cl).cfg.toList, reg := reg, place := p, user := !(s₀.thread p).mode }]
    wd := if b.busy || b.halt then b.wd else some s₀.clk }) s

/-- The queued BANK word i with operands xa and xb, whose check at issue gives bad (12 R271, R282, R284): it faults on a
thread whose share holds no bank, and where its check fails; it performs a release at `.die`; it enters, registering
with the timeline of WTL; it waits in *queuing* while the queue is full, or the timeline's share is not there. -/
structure EntersBank (i : Instr) (p : Place) (s : State) (xa xb : Word) (bad : Option (Nat × Word)) : Prop where
  foreign : (∀ cl, ¬ HoldsBank p (atIssue i p s) cl) → Traps i p s Cause.bankResv 0 id
  faults : ∀ cl c v, HoldsBank p (atIssue i p s) cl → bad = some (c, v) → Traps i p s c v id
  pushing : ∀ cl, HoldsBank p (atIssue i p s) cl → bad = none →
    ((pushAll p (atIssue i p s)).thread p).pushing = true →
    Blocks i p s (.waiting 0 0) (pushAll p)
  enters : ∀ cl, HoldsBank p (atIssue i p s) cl → bad = none →
    ((pushAll p (atIssue i p s)).thread p).pushing = false →
    let s₂ := releaseStores p .die true (pushAll p (atIssue i p s))
    (bankTl p cl s₂ = none → (s₂.bankOf cl).queue.length < 64 →
      Completes i p s fun _ => bankEntered i p cl xa xb none s₂ s₂) ∧
    (∀ g r n, bankTl p cl s₂ = some (g, r, n) → s₂.shareLive g r = true → (s₂.bankOf cl).queue.length < 64 →
      Completes i p s fun _ =>
        bankEntered i p cl xa xb (some (tlRegister g r n s₂).1) s₂ (tlRegister g r n s₂).2) ∧
    (∀ g r n, bankTl p cl s₂ = some (g, r, n) → s₂.shareLive g r = false →
      Blocks i p s (.queuing [xa, xb, 0]) fun _ => s₂) ∧
    (64 ≤ (s₂.bankOf cl).queue.length → Blocks i p s (.queuing [xa, xb, 0]) fun _ => s₂)

/-- From s to t, only the bank of cluster cl has changed, and has become b. -/
structure OnBank (cl : Nat) (s t : State) (b : Bank) : Prop where
  bank : t.bankOf cl = b
  own : { t.cluster cl with bank := b } = { s.cluster cl with bank := b }
  others : ∀ c, c ≠ cl → t.cluster c = s.cluster c
  device : { t with clusters := [] } = { s with clusters := [] }

/-- The operation o, started at a clk (12 R283). -/
def startedOp (o : BankOp) (clk : Nat) : BankRun :=
  { op := o, stage := 0, sentA := false, sentB := false, gotA := false, gotB := false, ends := clk, fail := none,
    prog := 0 }

/-- The bank of cluster cl is idle and may start o, which heads its queue before os (12 R283; 15 R348). -/
structure StartsNext (cl : Nat) (o : BankOp) (os : List BankOp) (s : State) : Prop where
  idle : (s.bankOf cl).run = none
  next : (s.bankOf cl).queue = o :: os
  runs : (s.bankOf cl).halt = false
  held : ∃ sh, s.bankShare? cl = some sh ∧ sh.stopped = false
  clear : s.missOf (.bank cl) = none

/-- The state in which the bank of cluster cl has taken the operation o from its queue, with its run in the condition r. -/
def takenOp (cl : Nat) (os : List BankOp) (r : BankRun) (s : State) : State :=
  modBank cl (fun b => { b with queue := os, run := some r }) s

/-- The running operation of cl whose effects are done in s: its occupancy lasts occ clk, and it has failed or not
(12 R283, R285). -/
def doneOp (cl occ : Nat) (fail : Option (Nat × Word)) (s : State) : State :=
  modRun cl (fun r => { r with stage := 2, ends := s.clk + occ, fail := fail }) s

/-- From s to s', the agent g has packed the segments gi, gi + 1, … into register i of cl, and they hold xs
(12 R292). -/
def Packed (cl : Nat) (g : Agent) (p : Plan) (sd : Side) (rev : Bool) (i : ZReg) (ctl : Word) (tab : List (BitVec 16))
    (base : Word) : Nat → List (List Int × Nat) → State → State → Prop
  | _, [], s, s' => s' = s
  | gi, x :: xs, s, s' => ∃ u, packSeg g p sd ctl tab base gi s = .done x u ∧
      Packed cl g p sd rev i ctl tab base (gi + 1) xs
        (modRun cl (fun r => { r with prog := gi + 1 })
          (setZ cl i ((getZ cl i u).putSeg p gi (if rev then x.1.reverse else x.1) x.2) u)) s'

/-- From s to s', the WSTA o of cl has stored n accumulators from its j-th, each cleared where CLEAR says so
(12 R297). -/
def Stored (cl : Nat) (g : Agent) (o : BankOp) : Nat → Nat → State → State → Prop
  | 0, _, s, s' => s' = s
  | n + 1, j, s, s' => ∃ u,
      let size := staSize (wbits o.xb 35 33)
      let i := (wbits o.xb 15 0 + j) % 65536
      bankWrite g o (o.xa + ofN (j * size)) size (staVal o.xb (accGet (s.bankOf cl).acc i)) (wbits o.xb 35 33 == 5) s =
        .done () u ∧
      Stored cl g o n (j + 1) (modRun cl (fun r => { r with prog := j + 1 })
        (if wbit o.xb 45 then modBank cl (fun b => { b with acc := FMap.del b.acc i }) u else u)) s'

/-- From s to s', the WUNPK o of cl has stored n slots of register i from its j-th, saturated to 32 bits (12 R299). -/
def Unpacked (cl : Nat) (g : Agent) (o : BankOp) (p : Plan) (sd : Side) (i : ZReg) : Nat → Nat → State → State → Prop
  | 0, _, s, s' => s' = s
  | n + 1, j, s, s' => ∃ u,
      bankWrite g o (o.xa + ofN (4 * j)) 4
        (sat (extract p (p.signed sd) ((getZ cl i s).seg p (p.signed sd) (j / p.k)) (j % p.k)) 32) false s = .done () u ∧
      Unpacked cl g o p sd i n (j + 1) (modRun cl (fun r => { r with prog := j + 1 }) u) s'

/-- The coefficient m of the product of two segments of k elements: Σ of e_i·f_(m−i) (12 R279). -/
def coefficient (k : Nat) (es fs : List Int) (m : Nat) : Int :=
  ((List.range k).map fun i => if i ≤ m ∧ m - i < k then es.getD i 0 * fs.getD (m - i) 0 else 0).foldl (· + ·) 0

/-- Whether an element lies in a side's range (12 R277). -/
def inSide (p : Plan) (sd : Side) (e : Int) : Prop :=
  if p.signed sd = true then -2 ^ (p.width sd - 1) ≤ e ∧ e ≤ 2 ^ (p.width sd - 1) - 1
  else 0 ≤ e ∧ e ≤ 2 ^ p.width sd - 1

/-! ### Messages -/

/-- From the effect s₂ of a word that does not go on at its context, t differs in the bookkeeping of issue at most. -/
structure Leaves (p : Place) (s₂ t : State) : Prop where
  regs : (t.thread p).arch = (s₂.thread p).arch
  pc : (t.thread p).pc = (s₂.thread p).pc
  runs : (t.thread p).run = (s₂.thread p).run
  count : (t.thread p).grem = (s₂.thread p).grem
  beside : Beside p s₂ t

/-- The word i completes at p, and its effect e leaves the context in the condition that e gives it. -/
def CompletesAway (i : Instr) (p : Place) (s : State) (e : State → State) : Prop :=
  ∃ t, exec i s = .next t ∧ Leaves p (e (atIssue i p s)) t

/-- The thread at p, after a word that ends its handler: its context is idle past the word (03 R86). -/
def idleAt (p : Place) (s : State) : State :=
  s.modThread p fun t => { t with pc := t.pc + 4, grem := t.grem - 1, run := .idle, fetch := [] }

/-- The word i of p performs a release at a scope and puts the cargo x into its sender's outbound queue, for rank r; it
waits in *sending* while the queue holds eight (03 R76; 09 R206). -/
structure SendsParcel (i : Instr) (p : Place) (s : State) (sc : Scope) (r : State → Option Nat) (x : State → Cargo) :
    Prop where
  pushing : ((pushAll p (atIssue i p s)).thread p).pushing = true → Blocks i p s (.waiting 2 0) (pushAll p)
  goes : ((pushAll p (atIssue i p s)).thread p).pushing = false →
    let s₂ := releaseStores p sc true (pushAll p (atIssue i p s))
    ((s₂.outq (outqOf p)).length < 8 → Completes i p s fun _ => post p (r s₂) (x s₂) false s₂) ∧
    (8 ≤ (s₂.outq (outqOf p)).length → Blocks i p s .sending fun _ => s₂)

/-- A message that the device itself sends, carried by the mesh (03 R80, R82; 15 R344). -/
def byMesh (m : Msg) : Parcel := { gang := 0, src := none, rank := none, cargo := .msg m }

/-- No message is spilled for the share whose contexts core n of cluster cl runs (15 R350). -/
def NothingSpilled (cl n : Nat) (s : State) : Prop :=
  ∀ sh y, s.shareOfCore? cl n = some sh → s.share? sh.gang sh.rank = some y → y.spill = []

/-- The deque of core c in the share sh is the one of the thread at p, and is valid (14 R323). -/
def OwnDeque (p : Place) (s : State) (sh : Share) (c : Nat) : Prop :=
  ∃ k, p = .ctx sh.cl c k ∧ s.shareOf? p = some sh ∧ dequeCap sh (s.core (.scalar sh.cl c)) ≠ 0

/-! ### Values -/

/-- Bits [pos + len − 1 : pos] of a word, bits above 63 reading 0 (05 R115). -/
def getBits (x : Word) (pos len : Nat) : Word := (x >>> pos) &&& (BitVec.allOnes 64 >>> (64 - len))

/-- A word with the len bits from pos replaced by the low bits of v; bits above 63 are dropped (05 R116). -/
def putBits (x v : Word) (pos len : Nat) : Word :=
  let m : Word := (BitVec.allOnes 64 >>> (64 - len)) <<< pos
  (x &&& ~~~m) ||| ((v <<< pos) &&& m)

/-- A truth value as a register holds it. -/
def asWord (b : Bool) : Word := if b then 1 else 0

/-- What the condition of PCMP and PCMPI says of two values (05 R124). -/
def condOf (c : Cc) (a v : Word) : Bool :=
  match c with
  | .eq => a == v
  | .ne => a != v
  | .lt => a.slt v
  | .ge => v.sle a
  | .ltu => a.ult v
  | .geu => v.ule a

/-- An operation on the low and on the high 16 bits of two words, with the flags of both (06 R155). -/
def onPairs2 (op : Nat → Nat → FRes) (x y : Nat) : FRes :=
  ((op (x % 2 ^ 16) (y % 2 ^ 16)).1 + (op (x / 2 ^ 16) (y / 2 ^ 16)).1 * 2 ^ 16,
    (op (x % 2 ^ 16) (y % 2 ^ 16)).2 ||| (op (x / 2 ^ 16) (y / 2 ^ 16)).2)

/-- An operation on the low and on the high 16 bits of three words, with the flags of both (06 R156). -/
def onPairs3 (op : Nat → Nat → Nat → FRes) (x y z : Nat) : FRes :=
  ((op (x % 2 ^ 16) (y % 2 ^ 16) (z % 2 ^ 16)).1 + (op (x / 2 ^ 16) (y / 2 ^ 16) (z / 2 ^ 16)).1 * 2 ^ 16,
    (op (x % 2 ^ 16) (y % 2 ^ 16) (z % 2 ^ 16)).2 ||| (op (x / 2 ^ 16) (y / 2 ^ 16) (z / 2 ^ 16)).2)

/-! ### Shapes of words -/

/-- Each word made by mk writes xd with a function of xa and xb, and nothing else. -/
def GivesXXX (mk : Reg → Reg → Reg → Instr) (f : Word → Word → Word) : Prop :=
  ∀ p s d a b, Clear (mk d a b) p s →
    Completes (mk d a b) p s fun s => putX p d (f (getX p a s) (getX p b s)) s

/-- Each word made by mk writes xd with a function of xa, and nothing else. -/
def GivesXX (mk : Reg → Reg → Instr) (f : Word → Word) : Prop :=
  ∀ p s d a, Clear (mk d a) p s → Completes (mk d a) p s fun s => putX p d (f (getX p a s)) s

/-- Each word made by mk writes predicate d with a function of predicates a and b, and nothing else. -/
def GivesPPP (mk : Pred → Pred → Pred → Instr) (f : Bool → Bool → Bool) : Prop :=
  ∀ p s d a b, Clear (mk d a b) p s →
    Completes (mk d a b) p s fun s => putP p d (f (getP p a s) (getP p b s)) s

/-- The state in which a word's f operands are read: where it pops the last element of a CONSUME stream, the
consuming read is a release of the thread's earlier loads and stores (10 R234; 11 R260). -/
def readF (p : Place) (srcs : List Reg) (s : State) : State :=
  match (s.thread p).lastPops srcs with
  | [] => s
  | ms => releaseStores p (popScope p ms s) true (pushAll p s)

/-- The f operands of a word are ready and within their streams, where they are bound (10 R231-R233), and no pushed
element holds up the release of a consuming read (10 R233, R234). -/
def FReady (i : Instr) (p : Place) (s : State) (srcs dsts : List Reg) : Prop :=
  ((atIssue i p s).thread p).fcheck srcs dsts = .ok ∧
  (((atIssue i p s).thread p).lastPops srcs = [] ∨ ((pushAll p (atIssue i p s)).thread p).pushing = false)

/-- An f result with flags: the flags are joined to FFLAGS and fd takes the bits (06 R144). -/
def giveF (p : Place) (d : Reg) (r : FRes) (s : State) : State :=
  putF p 0 d (BitVec.ofNat 32 r.1) (orFlags p r.2 s)

/-- The operand bits of f register a at the thread p (10 R232). -/
def fBits (p : Place) (a : Reg) (s : State) : Nat := ((s.thread p).fval a).toNat

/-- Each word made by mk gives fd the bits and flags f computes from fa and fb under the thread's modes. -/
def GivesFFF (mk : Reg → Reg → Reg → Instr) (f : Thread → Nat → Nat → FRes) : Prop :=
  ∀ p s d a b, Clear (mk d a b) p s → FReady (mk d a b) p s [a, b] [d] →
    Completes (mk d a b) p s fun s₁ =>
      let s := readF p [a, b] s₁
      giveF p d (f (s.thread p) (fBits p a s) (fBits p b s)) (popAll p [a, b] s)

/-- Each word made by mk gives fd the bits and flags f computes from fa. -/
def GivesFF (mk : Reg → Reg → Instr) (f : Thread → Nat → FRes) : Prop :=
  ∀ p s d a, Clear (mk d a) p s → FReady (mk d a) p s [a] [d] →
    Completes (mk d a) p s fun s₁ =>
      let s := readF p [a] s₁
      giveF p d (f (s.thread p) (fBits p a s)) (popAll p [a] s)

/-- Each word made by mk gives xd the value and flags f computes from fa. -/
def GivesXF (mk : Reg → Reg → Instr) (f : Thread → Nat → Word × Nat) : Prop :=
  ∀ p s d a, Clear (mk d a) p s → FReady (mk d a) p s [a] [] →
    Completes (mk d a) p s fun s₁ =>
      let s := readF p [a] s₁
      let r := f (s.thread p) (fBits p a s)
      putX p d r.1 (orFlags p r.2 (popAll p [a] s))

/-- Each word made by mk gives fd the bits and flags f computes from xa. -/
def GivesFX (mk : Reg → Reg → Instr) (f : Thread → Word → FRes) : Prop :=
  ∀ p s d a, Clear (mk d a) p s → FReady (mk d a) p s [] [d] →
    Completes (mk d a) p s fun s => giveF p d (f (s.thread p) (getX p a s)) s

/-- Each word made by mk gives fd the bits and flags f computes from fa, fb and fc. -/
def GivesFFFF (mk : Reg → Reg → Reg → Reg → Instr) (f : Thread → Nat → Nat → Nat → FRes) : Prop :=
  ∀ p s d a b c, Clear (mk d a b c) p s → FReady (mk d a b c) p s [a, b, c] [d] →
    Completes (mk d a b c) p s fun s₁ =>
      let s := readF p [a, b, c] s₁
      giveF p d (f (s.thread p) (fBits p a s) (fBits p b s) (fBits p c s)) (popAll p [a, b, c] s)

end Sys2Proof.Machine
end

