-- ==== Sys2Proof/Certificates/Slice0/Obligations.lean ====
section
/-!
DEFINITION. The statements for the provers: what the machine does, from the numbered rules of the spec. A word's
statements are made of the context that issues it (`Clear`), whose operands are those of `atIssue`; `Completes`
says the whole next state, so that it is the frame as well: nothing but what the effect names has changed.
-/

open Sys2Proof Sys2Proof.Machine

/-! ### Reset and the step -/

/-- 02 Table 02-9, Table 03-2, Table 09-5, Table 17-3; 03 R71; 09 R214; 15 R355. What the manual's Reset columns and
rules give: no clk has passed, FEATACK and FEATLOCK are 0, no error is counted, no trip, the registers of every landing
and the traffic counters of every cluster are 0; nothing runs and no memory path holds anything. The cap is the fused
power (the fuses themselves are log 3, DESIGN CHOICE), and memory with nothing listed, all of which reads 0, is log 6
(DESIGN CHOICE). -/
def Obligations.ResetHoldsStatedValues : Prop :=
  State.reset.clk = 0 ∧ State.reset.pkg.featAck = 0 ∧ State.reset.pkg.featLock = false ∧
  State.reset.pkg.hmwErr = 0 ∧ State.reset.pkg.tripCnt = 0 ∧ State.reset.pkg.linkFail = [false, false, false, false] ∧
  State.reset.pkg.pwrCap = ofN State.reset.pkg.fuses.power ∧
  (∀ u, FMap.getD State.reset.pkg.errCnt u 0 = 0) ∧
  (∀ l, (State.reset.landing l).capt = 0 ∧ (State.reset.landing l).rel = 0 ∧ (State.reset.landing l).savw = 0 ∧
    (State.reset.landing l).savr = 0 ∧ (State.reset.landing l).pinned = []) ∧
  (∀ cl, (State.reset.cluster cl).ctr = ⟨0, 0, 0, 0, 0, 0, 0, 0⟩ ∧ (State.reset.cluster cl).l1 = [] ∧
    (State.reset.cluster cl).ic = []) ∧
  (∀ p, State.reset.thread? p = none) ∧ (∀ g, State.reset.gang? g = none) ∧ State.reset.stores = [] ∧
  State.reset.dram = [] ∧ State.reset.slices = [] ∧ State.reset.tlb = []

/-- The invariant of the memories holds at reset: memory in its canonical form, and every sparse map in ascending order.
The invariant is the model's own; memory with nothing listed is log 6 (DESIGN CHOICE). -/
def Obligations.ResetIsCanonical : Prop := State.reset.Canonical

/-- 02 R39-R48; 05 R99-R103. The step: where a crew's turn has come in its clk and it may issue, and the word at the
issuing pc has been fetched and is no instruction of a trap routine, the step executes the instruction the word decodes
to (a word that is none raises illegal-instruction fault) and then draws the next mover; a waiting thread's turn executes
the word it waits in, after which it issues nothing in the same clk, and an event's turn the event. A turn that comes takes its place in the clk and changes nothing
else; one that has not come does nothing, and no word is an event. The order of turns is the model's (log 1, log 77,
DESIGN CHOICE). -/
def Obligations.StepRunsTheDecodedWord : Prop :=
  (∀ (s s' : State) u b p ps w, clockStopped s = false → s.turn = .issue u b → takePlace s s.turn = some s' →
    canIssue s' u = true → s'.standing u = p :: ps → s'.nextWord u p (s'.thread p).pc = .word w →
    (∀ i, decode w = .ok i → step s = thenAdvance (exec i s')) ∧
    (∀ e, decode w = .error e → step s = thenAdvance (exec (.illegalInstruction w) s'))) ∧
  (∀ (s s' : State) p i w, clockStopped s = false → s.turn = .resume p → takePlace s s.turn = some s' →
    (s.thread p).run = .wait i w → w ≠ .sleep → step s = thenAdvance (heldOver p (exec i s'))) ∧
  (∀ (s s' : State) i, clockStopped s = false → s.turn = .act i → takePlace s s.turn = some s' → Instr.isEvent i = true →
    step s = thenAdvance (exec i s')) ∧
  (∀ (s s' : State) t, takePlace s t = some s' → s' = { s with slot := s'.slot }) ∧
  (∀ s : State, clockStopped s = false → takePlace s s.turn = none → step s = .next (advance s)) ∧
  (∀ w i, decode w = .ok i → Instr.isEvent i = false)

/-- 05 R391, R100; 02 R39. The words of a crew lie at its pc, as fetched: pc + 4k of the group of eight words delivered
in an earlier clk; a pc that is no multiple of 4 raises access fault, a failed fetch its own fault. -/
def Obligations.NextWordIsTheFetchedWord : Prop :=
  ∀ (s : State) u p, ((s.thread p).mode = false ∨ (s.thread p).pc ≠ Config.trapRoutine) →
    ((s.thread p).pc.toNat % 4 ≠ 0 → s.nextWord u p (s.thread p).pc = .bad Cause.access) ∧
    (∀ g ∈ (s.groups u).head?, (s.thread p).pc.toNat % 4 = 0 → g.clk < s.clk →
      g.addr.toNat = (s.thread p).pc.toNat - (s.thread p).pc.toNat % 32 →
      (g.bad ≠ 0 → s.nextWord u p (s.thread p).pc = .bad g.bad) ∧
      (∀ w, g.bad = 0 → g.words[(s.thread p).pc.toNat % 32 / 4]? = some w →
        s.nextWord u p (s.thread p).pc = .word w)) ∧
    ((s.groups u) = [] → (s.thread p).pc.toNat % 4 = 0 → s.nextWord u p (s.thread p).pc = .none)

/-- 17 R374. After a thermal trip no clock runs: a step changes nothing but the schedule, but for a device reset. -/
def Obligations.TripStopsEveryClock : Prop :=
  ∀ s : State, s.pkg.boot = .tripped → s.turn ≠ .act .deviceReset → step s = .next (advance s) ∧ (advance s).pkg = s.pkg ∧
    (advance s).threads = s.threads ∧ (advance s).dram = s.dram ∧ (advance s).clk = s.clk

/-! ### Words -/

/-- 02 Table 02-2, Table 02-3. Words written out from the spec's formats decode to the instruction they stand for: one
of most formats. -/
def Obligations.SpecWordsDecode : Prop :=
  decode 0x00443001 = .ok (.add 1 2 3) ∧
  decode 0x08460005 = .ok (.addi 1 3 0x00005) ∧
  decode 0x50443185 = .ok (.lea 1 2 3 3 5) ∧
  decode 0x70508C41 = .ok (.pcmp .eq 5 1 3) ∧
  decode 0x78510088 = .ok (.pand 5 8 2) ∧
  decode 0x80000003 = .ok (.br 3) ∧
  decode 0x84140004 = .ok (.brp 5 4) ∧
  decode 0x90443201 = .ok (.fadd .rne 1 2 3) ∧
  decode 0x98443201 = .ok (.fma .dyn 1 2 3 4) ∧
  decode 0xA0458010 = .ok (.ldD .normal 1 2 16) ∧
  decode 0xB044304E = .ok (.atomAdd .d .pkg 1 2 3) ∧
  decode 0xC8C11056 = .ok (.wmac 5 6 1 2) ∧
  decode 0xD0022001 = .ok (.msend 1 2) ∧
  decode 0xDC2D0000 = .ok (.guard 5 true 2) ∧
  decode 0xE0440042 = .ok (.vred .add 1 2) ∧
  decode 0xF0403010 = .ok (.sysr 1 .rank) ∧
  decode 0x00000000 = .error .zeroWord ∧
  decode 0xF8000000 = .error .class31 ∧
  decode 0x00443041 = .error .zeroField

/-- 02 R39-R48. The word of every well-formed instruction decodes to that instruction, with every operand at every value
its field admits. -/
def Obligations.EncodedWordDecodesBack : Prop :=
  ∀ i w, i.wf = true → encode i = some w → decode w = .ok i

/-- 02 R41, R48. A word that decodes is the word of the instruction it decodes to: every field that must be 0 is 0, and
no code without an entry is accepted. -/
def Obligations.DecodedWordIsItsEncoding : Prop :=
  ∀ w i, decode w = .ok i → i.wf = true ∧ encode i = some w

/-- 02 R55. A word other than GUARD and PACE that stands in a range whose condition is false only counts the range down:
the pc advances by 4 and nothing else changes. -/
def Obligations.GuardedOffWordOnlyCounts : Prop :=
  ∀ i w p s, encode i = some w → isControl i = false → Issues s p → ((atIssue i p s).thread p).off = true →
    Completes i p s id

/-- 02 R48-R50; 15 R336. The decode faults of a word that is not guarded off, in their order: illegal instruction (a word
that is none, or GUARD or PACE in a range), then privilege (a privileged word in user mode), then engine (a word the
engine does not run); each is reported as a trap with EVAL holding the word. -/
def Obligations.DecodeFaultsTrapInOrder : Prop :=
  ∀ i w p s, (encode i = some w ∨ i = .illegalInstruction w) → Issues s p →
    (isControl i = true ∨ ((atIssue i p s).thread p).off = false) →
    let t := (atIssue i p s).thread p
    (illegalAt i p t = true → Traps i p s Cause.illegal (w.setWidth 64) id) ∧
    (illegalAt i p t = false → (info i).priv = true → t.mode = false →
      Traps i p s Cause.privilege (w.setWidth 64) id) ∧
    (illegalAt i p t = false → ((info i).priv = false ∨ t.mode = true) → engineRuns i p.engine = false →
      Traps i p s Cause.engine (w.setWidth 64) id)

/-- 15 R358, R359. TRAP and BRK raise their trap with the immediate in EVAL and the next word's address saved, after
their range word is counted; ERET goes to EPC with MODE from PMODE, PMODE 0 and GUARDST from EGUARD. -/
def Obligations.TrapWordsAndReturn : Prop :=
  (∀ mk c, (mk, c) ∈ [(Instr.trap, Cause.trap), (.brk, Cause.brk)] → ∀ p s n, Clear (mk n) p s →
    let s₁ := atIssue (mk n) p s
    let s₂ := forceLoads p s₁
    (s₂.tvecOf p).toNat % 4 = 0 → ∃ t, exec (mk n) s = .next t ∧
      Trapped p c (n.setWidth 64) ((s₁.thread p).pc + 4)
        (s₂.modThread p fun t => { t with grem := (s₁.thread p).grem - 1 }) t) ∧
  (∀ p s, Clear .eret p s → ∃ t, exec .eret s = .next t ∧
    let o := (atIssue .eret p s).thread p
    (t.thread p).pc = o.epc ∧ (t.thread p).run = .running ∧ (t.thread p).mode = o.pmode ∧
    (t.thread p).pmode = false ∧ (t.thread p).grem = o.eguard.toNat / 2 % 16 ∧
    (t.thread p).gcnd = o.eguard.getLsbD 0 ∧ (t.thread p).x = o.x ∧ (t.thread p).f = o.f ∧ (t.thread p).p = o.p ∧
    (t.thread p).cause = o.cause ∧ (t.thread p).epc = o.epc ∧ (t.thread p).eval = o.eval ∧
    Beside p (atIssue .eret p s) t)

/-- 15 R333, R334. A trap whose vector is no multiple of 4 ends the thread: its reply takes 2^63 + the cause, the gang's
summary takes the fault, and no trap register is written. -/
def Obligations.BadVectorEndsThread : Prop :=
  ∀ p (s : State) cause eval epc, (s.tvecOf p).toNat % 4 ≠ 0 →
    let t := trapEnter p cause eval epc s
    (t.thread p).ending = some (ofN (2 ^ 63 + cause)) ∧ (t.thread p).run = .wait (.exit 0) .draining ∧
    (t.thread p).cause = (s.thread p).cause ∧ (t.thread p).epc = (s.thread p).epc ∧
    (t.thread p).eval = (s.thread p).eval ∧ (t.thread p).mode = (s.thread p).mode ∧ (t.thread p).pc = (s.thread p).pc ∧
    (∀ g, s.gang? (s.thread p).gang = some g →
      t.gang? (s.thread p).gang =
        some { g with summary := g.summary.add p (s.thread p).rank epc eval cause }) ∧
    t.dram = s.dram ∧ t.shares = s.shares ∧ t.cores = s.cores ∧ t.clusters = s.clusters

/-! ### Scalar words -/

/-- 05 R108, R109, Table 05-2. The words of the ALU class write xd with the value the table gives, for every operand:
divisions by 0 and the overflowing division give the results of R109, a shift takes the low six bits of xb, x0 reads 0 and
discards the result; those with one source are the counts of leading and trailing 0 bits and of 1 bits, the reversals of
bits and of bytes, and the extensions. -/
def Obligations.AluWordsWriteTableValue : Prop :=
  (GivesXXX .add (fun a b => a + b) ∧
  GivesXXX .sub (fun a b => a - b) ∧
  GivesXXX .and (fun a b => a &&& b) ∧
  GivesXXX .or (fun a b => a ||| b) ∧
  GivesXXX .xor (fun a b => a ^^^ b) ∧
  GivesXXX .andn (fun a b => a &&& ~~~b) ∧
  GivesXXX .orn (fun a b => a ||| ~~~b) ∧
  GivesXXX .xnor (fun a b => ~~~(a ^^^ b)) ∧
  GivesXXX .shl (fun a b => a <<< (b.toNat % 64)) ∧
  GivesXXX .shr (fun a b => a >>> (b.toNat % 64)) ∧
  GivesXXX .sar (fun a b => a.sshiftRight (b.toNat % 64)) ∧
  GivesXXX .rol (fun a b => a.rotateLeft (b.toNat % 64)) ∧
  GivesXXX .ror (fun a b => a.rotateRight (b.toNat % 64)) ∧
  GivesXXX .mul (fun a b => a * b) ∧
  GivesXXX .mulh (fun a b => BitVec.ofInt 64 (a.toInt * b.toInt / 2 ^ 64)) ∧
  GivesXXX .mulhu (fun a b => ((a.setWidth 128 * b.setWidth 128) >>> 64).setWidth 64) ∧
  GivesXXX .div (fun a b => if b = 0 then BitVec.allOnes 64 else a.sdiv b) ∧
  GivesXXX .divu (fun a b => if b = 0 then BitVec.allOnes 64 else a / b) ∧
  GivesXXX .rem (fun a b => if b = 0 then a else a.srem b) ∧
  GivesXXX .remu (fun a b => if b = 0 then a else a % b) ∧
  GivesXXX .min (fun a b => if a.sle b then a else b) ∧
  GivesXXX .max (fun a b => if b.sle a then a else b) ∧
  GivesXXX .minu (fun a b => if a.ule b then a else b) ∧
  GivesXXX .maxu (fun a b => if b.ule a then a else b) ∧
  GivesXXX .slt (fun a b => asWord (a.slt b)) ∧
  GivesXXX .sltu (fun a b => asWord (a.ult b)) ∧
  GivesXXX .addw (fun a b => ((a + b).setWidth 32).signExtend 64) ∧
  GivesXXX .subw (fun a b => ((a - b).setWidth 32).signExtend 64) ∧
  GivesXXX .mulw (fun a b => ((a * b).setWidth 32).signExtend 64)) ∧
  (GivesXX .clz (fun a => BitVec.ofNat 64 ((List.range 64).takeWhile fun k => !a.getLsbD (63 - k)).length) ∧
  GivesXX .ctz (fun a => BitVec.ofNat 64 ((List.range 64).takeWhile fun k => !a.getLsbD k).length) ∧
  GivesXX .pop (fun a => BitVec.ofNat 64 ((List.range 64).countP fun k => a.getLsbD k)) ∧
  GivesXX .brev (fun a => a.reverse) ∧
  GivesXX .bswap (fun a => a.extractLsb' 0 8 ++ a.extractLsb' 8 8 ++ a.extractLsb' 16 8 ++ a.extractLsb' 24 8 ++
    a.extractLsb' 32 8 ++ a.extractLsb' 40 8 ++ a.extractLsb' 48 8 ++ a.extractLsb' 56 8) ∧
  GivesXX .sextB (fun a => (a.setWidth 8).signExtend 64) ∧
  GivesXX .sextH (fun a => (a.setWidth 16).signExtend 64) ∧
  GivesXX .sextW (fun a => (a.setWidth 32).signExtend 64) ∧
  GivesXX .zextB (fun a => a &&& 0xFF) ∧
  GivesXX .zextH (fun a => a &&& 0xFFFF) ∧
  GivesXX .zextW (fun a => a &&& 0xFFFFFFFF))

/-- 05 R110-R116, R118-R123. Immediates are sign-extended in ADDI, SLTI and LEA and zero-extended in ANDI, ORI and XORI; the
shifts by an immediate; LUI and LUIH place 22 bits at bits 17 and 39; ADDPC adds to the word's own address; LEA scales by a
power of two; BFXU, BFX and BFI take or replace a field whose bits above 63 read 0 and are dropped. MHPK puts each field
register of the layout into a copy of xb, in field order, and MHUN takes each field out of xa into its register, zero- or
sign-extended; both raise layout fault with EVAL 8L + f at the first field whose register the engine does not have. LAYW
and LAYR write and read an entry of the layout table and refuse an index, offset or width out of range. PRDX reads 32
predicates into a register, p0 as 1, and XPRD writes them. -/
def Obligations.ImmediatesFieldsAndRecordsWriteStatedValue : Prop :=
  ((∀ i, GivesXX (fun d a => .addi d a i) fun x => x + i.signExtend 64) ∧
  (∀ i, GivesXX (fun d a => .andi d a i) fun x => x &&& i.setWidth 64) ∧
  (∀ i, GivesXX (fun d a => .ori d a i) fun x => x ||| i.setWidth 64) ∧
  (∀ i, GivesXX (fun d a => .xori d a i) fun x => x ^^^ i.setWidth 64) ∧
  (∀ n, GivesXX (fun d a => .shli d a n) fun x => x <<< n.val) ∧
  (∀ n, GivesXX (fun d a => .shri d a n) fun x => x >>> n.val) ∧
  (∀ n, GivesXX (fun d a => .sari d a n) fun x => x.sshiftRight n.val) ∧
  (∀ n, GivesXX (fun d a => .roli d a n) fun x => x.rotateLeft n.val) ∧
  (∀ i, GivesXX (fun d a => .slti d a i) fun x => asWord (x.slt (i.signExtend 64))) ∧
  (∀ p s d i, Clear (.lui d i) p s →
    Completes (.lui d i) p s (putX p d (i.signExtend 64 <<< 17))) ∧
  (∀ p s d i, Clear (.luih d i) p s →
    Completes (.luih d i) p s fun s => putX p d ((getX p d s &&& 0x7FFFFFFFFF) ||| (i.signExtend 64 <<< 39)) s) ∧
  (∀ p s d i, Clear (.addpc d i) p s →
    Completes (.addpc d i) p s fun s => putX p d ((s.thread p).pc + 4 * i.signExtend 64) s) ∧
  (∀ c i, GivesXXX (fun d a b => .lea d a b c i) fun x y => x + (y <<< c.val) + i.signExtend 64) ∧
  (∀ l q, GivesXX (fun d a => .bfxu d a l q) fun x => getBits x q.val (l.val + 1)) ∧
  (∀ l q, GivesXX (fun d a => .bfx d a l q) fun x => ((x >>> q.val).setWidth (l.val + 1)).signExtend 64) ∧
  (∀ p s d a l q, Clear (.bfi d a l q) p s →
    Completes (.bfi d a l q) p s fun s => putX p d (putBits (getX p d s) (getX p a s) q.val (l.val + 1)) s)) ∧
  ((∀ p s d a b l, Clear (.mhpk d a b l) p s → layOver ((atIssue (.mhpk d a b l) p s).layOf p) p.engine l a = none →
    Completes (.mhpk d a b l) p s fun s => putX p d ((List.range 8).foldl (fun r f =>
      if 0 < (layEntry (s.layOf p) l f).2 then
        putBits r (getX p (Fin.ofNat 32 (a.val + f)) s) (layEntry (s.layOf p) l f).1 (layEntry (s.layOf p) l f).2
      else r) (getX p b s)) s) ∧
  (∀ p s d a b l f, Clear (.mhpk d a b l) p s →
    layOver ((atIssue (.mhpk d a b l) p s).layOf p) p.engine l a = some f →
    Traps (.mhpk d a b l) p s Cause.layout (ofN (8 * l.val + f)) id) ∧
  (∀ p s sx d a l, Clear (.mhun sx d a l) p s →
    layOver ((atIssue (.mhun sx d a l) p s).layOf p) p.engine l d = none →
    Completes (.mhun sx d a l) p s fun s => (List.range 8).foldl (fun u f =>
      if 0 < (layEntry (s.layOf p) l f).2 then
        putX p (Fin.ofNat 32 (d.val + f))
          (if sx then ((getX p a s >>> (layEntry (s.layOf p) l f).1).setWidth (layEntry (s.layOf p) l f).2).signExtend 64
           else getBits (getX p a s) (layEntry (s.layOf p) l f).1 (layEntry (s.layOf p) l f).2) u
      else u) s) ∧
  (∀ p s sx d a l f, Clear (.mhun sx d a l) p s →
    layOver ((atIssue (.mhun sx d a l) p s).layOf p) p.engine l d = some f →
    Traps (.mhun sx d a l) p s Cause.layout (ofN (8 * l.val + f)) id) ∧
  (∀ p s a b, Clear (.layw a b) p s →
    let x := getX p a (atIssue (.layw a b) p s)
    let y := getX p b (atIssue (.layw a b) p s)
    x.toNat < 64 → y.toNat < 65536 → y.toNat % 256 < 64 → y.toNat / 256 ≤ 64 → y.toNat % 256 + y.toNat / 256 ≤ 64 →
    Completes (.layw a b) p s (setLay p x.toNat (y.toNat % 256, y.toNat / 256))) ∧
  (∀ p s a b, Clear (.layw a b) p s →
    let x := getX p a (atIssue (.layw a b) p s)
    let y := getX p b (atIssue (.layw a b) p s)
    (64 ≤ x.toNat → Traps (.layw a b) p s Cause.layout x id) ∧
    (x.toNat < 64 → 65536 ≤ y.toNat ∨ 64 ≤ y.toNat % 256 ∨ 64 < y.toNat / 256 ∨
      64 < y.toNat % 256 + y.toNat / 256 → Traps (.layw a b) p s Cause.layout y id)) ∧
  (∀ p s d a, Clear (.layr d a) p s → (getX p a (atIssue (.layr d a) p s)).toNat < 64 →
    Completes (.layr d a) p s fun s =>
      let e := ((s.layOf p)[(getX p a s).toNat]?).getD (0, 0)
      putX p d (ofN (e.1 + 256 * e.2)) s) ∧
  (∀ p s d a, Clear (.layr d a) p s → 64 ≤ (getX p a (atIssue (.layr d a) p s)).toNat →
    Traps (.layr d a) p s Cause.layout (getX p a (atIssue (.layr d a) p s)) id) ∧
  (∀ p s d g, Clear (.prdx d g) p s →
    Completes (.prdx d g) p s fun s =>
      let v : Word := (((s.thread p).p >>> (32 * g.val)).setWidth 32).setWidth 64
      putX p d (if g = 0 then v ||| 1 else v) s) ∧
  (∀ p s a g, Clear (.xprd a g) p s →
    Completes (.xprd a g) p s fun s =>
      (List.range 32).foldl (fun u i => putP p (32 * g.val + i) ((getX p a s).getLsbD i) u) s))

/-- 05 R124, R125. PCMP and PCMPI write a predicate with a comparison, PCMPI's five-bit immediate sign-extended; the PLOG
words write one with a function of two predicates. p0 reads 1 and keeps it. A word of these with a condition or an
operation that is not listed, or a PNOT with a second source, is no instruction. -/
def Obligations.PredicateWordsWriteCondition : Prop :=
  (∀ p s c n a b, Clear (.pcmp c n a b) p s →
    Completes (.pcmp c n a b) p s fun s => putP p n (condOf c (getX p a s) (getX p b s)) s) ∧
  (∀ p s c n a i, Clear (.pcmpi c n a i) p s →
    Completes (.pcmpi c n a i) p s fun s => putP p n (condOf c (getX p a s) (i.signExtend 64)) s) ∧
  GivesPPP .pand (fun x y => x && y) ∧
  GivesPPP .por (fun x y => x || y) ∧
  GivesPPP .pxor (fun x y => x ^^ y) ∧
  GivesPPP .pandn (fun x y => x && !y) ∧
  GivesPPP .porn (fun x y => x || !y) ∧
  GivesPPP (fun d a _ => .pnot d a) (fun x _ => !x) ∧
  (∀ (t : Thread) v b, (t.setX 0 v) = t ∧ (t.setP 0 b) = t ∧ t.getX 0 = 0 ∧ t.getP 0 = true) ∧
  decode 0x70917D02 = .ok (.pcmpi .ge 9 2 31) ∧
  (∀ w : W32, w.toNat / 2 ^ 27 = 14 → (w.toNat % 64 = 1 ∨ w.toNat % 64 = 2) →
    (w.toNat / 64 % 16 = 0 ∨ 7 ≤ w.toNat / 64 % 16) → ∃ e, decode w = .error e) ∧
  (∀ w : W32, w.toNat / 2 ^ 27 = 15 →
    (w.toNat / 8 % 8 = 0 ∨ w.toNat / 8 % 8 = 7 ∨ (w.toNat / 8 % 8 = 6 ∧ w.toNat / 64 % 128 ≠ 0)) →
    ∃ e, decode w = .error e)

/-- 05 R126, R127; 02 R56. A taken transfer goes to its target and ends the GUARD range; a branch not taken goes to the
next word. BR and CALL and the branches on a predicate go to pc + 4 × offset; CALL and CALLR write the address of the
next word to x23, CALLR after xa is read; JMPR, CALLR and RET raise access fault with EVAL the target when it is no
multiple of 4 or not canonical, and then write nothing. -/
def Obligations.BranchesTransferToStatedTarget : Prop :=
  (∀ p s o, Clear (.br o) p s →
    CompletesTo (.br o) p s (((atIssue (.br o) p s).thread p).pc + 4 * o.signExtend 64) id) ∧
  (∀ p s o, Clear (.call o) p s →
    CompletesTo (.call o) p s (((atIssue (.call o) p s).thread p).pc + 4 * o.signExtend 64)
      (fun s => putX p 23 ((s.thread p).pc + 4) s)) ∧
  (∀ p s n o, Clear (.brp n o) p s →
    (getP p n (atIssue (.brp n o) p s) = true →
      CompletesTo (.brp n o) p s (((atIssue (.brp n o) p s).thread p).pc + 4 * o.signExtend 64) id) ∧
    (getP p n (atIssue (.brp n o) p s) = false → Completes (.brp n o) p s id)) ∧
  (∀ p s n o, Clear (.brn n o) p s →
    (getP p n (atIssue (.brn n o) p s) = false →
      CompletesTo (.brn n o) p s (((atIssue (.brn n o) p s).thread p).pc + 4 * o.signExtend 64) id) ∧
    (getP p n (atIssue (.brn n o) p s) = true → Completes (.brn n o) p s id)) ∧
  (∀ p s a, Clear (.jmpr a) p s →
    let dst := getX p a (atIssue (.jmpr a) p s)
    (dst.toNat % 4 = 0 ∧ canonical dst = true → CompletesTo (.jmpr a) p s dst id) ∧
    (dst.toNat % 4 ≠ 0 ∨ canonical dst = false → Traps (.jmpr a) p s Cause.access dst id)) ∧
  (∀ p s a, Clear (.callr a) p s →
    let dst := getX p a (atIssue (.callr a) p s)
    (dst.toNat % 4 = 0 ∧ canonical dst = true →
      CompletesTo (.callr a) p s dst (fun s => putX p 23 ((s.thread p).pc + 4) s)) ∧
    (dst.toNat % 4 ≠ 0 ∨ canonical dst = false → Traps (.callr a) p s Cause.access dst id)) ∧
  (∀ p s, Clear .ret p s →
    let dst := getX p 23 (atIssue .ret p s)
    (dst.toNat % 4 = 0 ∧ canonical dst = true → CompletesTo .ret p s dst id) ∧
    (dst.toNat % 4 ≠ 0 ∨ canonical dst = false → Traps .ret p s Cause.access dst id))

/-! ### Floating point -/

/-- 06 R139, R142, R144, R145, R148-R152. The arithmetic and function words of the FPU class, on contexts: each result is
the function of the operands under the thread's modes (DAZ on the operands, the word's rounding mode or FMODE.RM, FTZ,
VER), the flags are joined to FFLAGS, and bound stream registers are popped and pushed. -/
def Obligations.FpuArithmeticWritesRoundedResult : Prop :=
  (∀ r, GivesFFF (.fadd r) fun t x y =>
    addFp fp32 (rndMode r t.fmode) t.ftz false (unpack fp32 t.daz x) (unpack fp32 t.daz y)) ∧
  (∀ r, GivesFFF (.fsub r) fun t x y =>
    addFp fp32 (rndMode r t.fmode) t.ftz false (unpack fp32 t.daz x) (unpack fp32 t.daz y).neg) ∧
  (∀ r, GivesFFF (.fmul r) fun t x y =>
    mulFp fp32 (rndMode r t.fmode) t.ftz (unpack fp32 t.daz x) (unpack fp32 t.daz y)) ∧
  (∀ r, GivesFFF (.fdiv r) fun t x y =>
    divFp fp32 (rndMode r t.fmode) t.ftz (unpack fp32 t.daz x) (unpack fp32 t.daz y)) ∧
  (∀ r, GivesFF (.fsqrt r) fun t x => sqrtFp fp32 (rndMode r t.fmode) t.ftz (unpack fp32 t.daz x)) ∧
  (∀ r, GivesFF (.frcp r) fun t x => fnBits .rcp t.ver1 (rndMode r t.fmode) t.daz t.ftz x) ∧
  (∀ r, GivesFF (.frsq r) fun t x => fnBits .rsq t.ver1 (rndMode r t.fmode) t.daz t.ftz x) ∧
  (∀ r, GivesFF (.fexp2 r) fun t x => fnBits .exp2 t.ver1 (rndMode r t.fmode) t.daz t.ftz x) ∧
  (∀ r, GivesFF (.flog2 r) fun t x => fnBits .log2 t.ver1 (rndMode r t.fmode) t.daz t.ftz x) ∧
  (∀ r, GivesFF (.fsin r) fun t x => fnBits .sin t.ver1 (rndMode r t.fmode) t.daz t.ftz x) ∧
  (∀ r, GivesFF (.fcos r) fun t x => fnBits .cos t.ver1 (rndMode r t.fmode) t.daz t.ftz x)

/-- 06 R155, R156. The FMA class and the pair words: one rounding of the exact a × b ± c, negated before rounding for FNMA
and FNMS; each 16-bit element of a pair on its own, with the flags of the two joined. -/
def Obligations.FusedAndPairWordsRoundOnce : Prop :=
  (∀ r, GivesFFFF (.fma r) fun t x y z => fmaFp fp32 (rndMode r t.fmode) t.ftz false
    (unpack fp32 t.daz x) (unpack fp32 t.daz y) (unpack fp32 t.daz z)) ∧
  (∀ r, GivesFFFF (.fms r) fun t x y z => fmaFp fp32 (rndMode r t.fmode) t.ftz false
    (unpack fp32 t.daz x) (unpack fp32 t.daz y) (unpack fp32 t.daz z).neg) ∧
  (∀ r, GivesFFFF (.fnma r) fun t x y z => fmaFp fp32 (rndMode r t.fmode) t.ftz true
    (unpack fp32 t.daz x) (unpack fp32 t.daz y) (unpack fp32 t.daz z)) ∧
  (∀ r, GivesFFFF (.fnms r) fun t x y z => fmaFp fp32 (rndMode r t.fmode) t.ftz true
    (unpack fp32 t.daz x) (unpack fp32 t.daz y) (unpack fp32 t.daz z).neg) ∧
  (∀ r, GivesFFFF (.hfma2 r) fun t => onPairs3 fun x y z => fmaFp bf16 (rndMode r t.fmode) t.ftz false
    (unpack bf16 t.daz x) (unpack bf16 t.daz y) (unpack bf16 t.daz z)) ∧
  (∀ r, GivesFFFF (.hfma2h r) fun t => onPairs3 fun x y z => fmaFp fp16 (rndMode r t.fmode) t.ftz false
    (unpack fp16 t.daz x) (unpack fp16 t.daz y) (unpack fp16 t.daz z)) ∧
  (∀ r, GivesFFF (.hadd2 r) fun t => onPairs2 fun x y =>
    addFp bf16 (rndMode r t.fmode) t.ftz false (unpack bf16 t.daz x) (unpack bf16 t.daz y)) ∧
  (∀ r, GivesFFF (.hmul2 r) fun t => onPairs2 fun x y =>
    mulFp bf16 (rndMode r t.fmode) t.ftz (unpack bf16 t.daz x) (unpack bf16 t.daz y)) ∧
  (∀ r, GivesFFF (.hmin2 r) fun t => onPairs2 fun x y => minmaxBits bf16 false t.daz t.ftz x y) ∧
  (∀ r, GivesFFF (.hmax2 r) fun t => onPairs2 fun x y => minmaxBits bf16 true t.daz t.ftz x y)

/-- 06 R148, R151, R153, R154, R157. FMIN and FMAX, the sign words, FCLASS, the conversions, the moves between the files
and FCMP. -/
def Obligations.FpuSelectConvertMoveWriteStatedResult : Prop :=
  (∀ r, GivesFFF (.fmin r) fun t x y => minmaxBits fp32 false t.daz t.ftz x y) ∧
  (∀ r, GivesFFF (.fmax r) fun t x y => minmaxBits fp32 true t.daz t.ftz x y) ∧
  (∀ r, GivesFF (.fabs r) fun t x => signOp t.ftz t.daz x false) ∧
  (∀ r, GivesFF (.fneg r) fun t x => signOp t.ftz t.daz x (!signOf fp32 x)) ∧
  (∀ r, GivesFFF (.fsgnj r) fun t x y => signOp t.ftz t.daz x (signOf fp32 y)) ∧
  (∀ r, GivesXF (.fclass r) fun _ x => (BitVec.ofNat 64 (fclassBits x), 0)) ∧
  (∀ r, GivesXF (.f2i r) fun t x =>
    (BitVec.ofInt 64 (f2i true (rndMode r t.fmode) t.daz x).1, (f2i true (rndMode r t.fmode) t.daz x).2)) ∧
  (∀ r, GivesXF (.f2iu r) fun t x =>
    (BitVec.ofInt 64 (f2i false (rndMode r t.fmode) t.daz x).1, (f2i false (rndMode r t.fmode) t.daz x).2)) ∧
  (∀ r, GivesFX (.i2f r) fun t x => ofIntF fp32 (rndMode r t.fmode) x.toInt) ∧
  (∀ r, GivesFX (.iu2f r) fun t x => ofIntF fp32 (rndMode r t.fmode) x.toNat) ∧
  (∀ r, GivesFF (.f2bf r) fun t x => convF fp32 bf16 (rndMode r t.fmode) t.daz t.ftz (x % 2 ^ 32)) ∧
  (∀ r, GivesFF (.bf2f r) fun t x => convF bf16 fp32 (rndMode r t.fmode) t.daz t.ftz (x % 2 ^ 16)) ∧
  (∀ r, GivesFF (.f2h r) fun t x => convF fp32 fp16 (rndMode r t.fmode) t.daz t.ftz (x % 2 ^ 32)) ∧
  (∀ r, GivesFF (.h2f r) fun t x => convF fp16 fp32 (rndMode r t.fmode) t.daz t.ftz (x % 2 ^ 16)) ∧
  (∀ r, GivesXF (.fmvXf r) fun _ x => (BitVec.ofNat 64 x, 0)) ∧
  (∀ r, GivesFX (.fmvFx r) fun _ x => (x.toNat % 2 ^ 32, 0)) ∧
  (∀ p s c n a b, Clear (.fcmp c n a b) p s → FReady (.fcmp c n a b) p s [a, b] [] →
    Completes (.fcmp c n a b) p s fun s₁ =>
      let s := readF p [a, b] s₁
      let r := fcmpBits c (s.thread p).daz (fBits p a s) (fBits p b s)
      putP p n r.1 (orFlags p r.2 (popAll p [a, b] s)))

/-! ### Memory -/

/-- 09 R216-R218. A load computes xa + offset, sends its access, and takes the bytes sign- or zero-extended into its
register; FLD takes 32 bits into fd, or pushes them when fd is bound. Every load faults, sleeps or waits as its access
does. -/
def Obligations.LoadsSendTheirAccess : Prop :=
  (∀ mk size signed, (mk, size, signed) ∈ [(Instr.ldB, 1, true), (.ldBu, 1, false), (.ldH, 2, true), (.ldHu, 2, false),
      (.ldW, 4, true), (.ldWu, 4, false), (.ldD, 8, false)] →
    ∀ p s h d a o, Clear (mk h d a o) p s →
      let s₁ := forceAtoms p (atIssue (mk h d a o) p s)
      let va := getX p a s₁ + o.signExtend 64
      Accesses (mk h d a o) p s s₁ va size .read fun t s' =>
        Completes (mk h d a o) p s fun _ => sendAccess p
          { n := 0, kind := .load size signed, va := va, tgt := t, hint := h, file := .x, reg := d, opnd := 0,
            expect := 0, val := none } s') ∧
  (∀ p s h d a o, Clear (.fld h d a o) p s → FReady (.fld h d a o) p s [] [d] →
    ((atIssue (.fld h d a o) p s).thread p).strmOf d = none →
      let s₁ := forceAtoms p (atIssue (.fld h d a o) p s)
      let va := getX p a s₁ + o.signExtend 64
      Accesses (.fld h d a o) p s s₁ va 4 .read fun t s' =>
        Completes (.fld h d a o) p s fun _ => sendAccess p
          { n := 0, kind := .load 4 false, va := va, tgt := t, hint := h, file := .f, reg := d, opnd := 0,
            expect := 0, val := none } s') ∧
  (∀ p s h d a o m, Clear (.fld h d a o) p s → FReady (.fld h d a o) p s [] [d] →
    ((atIssue (.fld h d a o) p s).thread p).strmOf d = some m →
      let s₁ := forceAtoms p (atIssue (.fld h d a o) p s)
      let va := getX p a s₁ + o.signExtend 64
      Accesses (.fld h d a o) p s s₁ va 4 .read fun t s' =>
        Completes (.fld h d a o) p s fun _ =>
          putF p 0 d (BitVec.ofNat 32 (threadRead p va t 4 h s').1) (threadRead p va t 4 h s').2)

/-- 09 R216-R218. A store computes xa + offset and makes a store of the low bytes of its register; FST stores fd, popping
it when it is bound. -/
def Obligations.StoresMakeTheirStore : Prop :=
  (∀ mk w, (mk, w) ∈ [(Instr.stB, 1), (.stH, 2), (.stW, 4), (.stD, 8)] →
    ∀ p s h d a o, Clear (mk h d a o) p s →
      let s₀ := atIssue (mk h d a o) p s
      let va := getX p a s₀ + o.signExtend 64
      Accesses (mk h d a o) p s (forceAtoms p s₀) va w .write fun t s' =>
        Completes (mk h d a o) p s fun _ =>
          makeStore p va t w ((getX p d s₀).toNat % 2 ^ (8 * w)) h 0 s') ∧
  (∀ p s h d a o, Clear (.fst h d a o) p s → FReady (.fst h d a o) p s [d] [] →
      let s₀ := readF p [d] (atIssue (.fst h d a o) p s)
      let va := getX p a s₀ + o.signExtend 64
      Accesses (.fst h d a o) p s (forceAtoms p s₀) va 4 .write fun t s' =>
        Completes (.fst h d a o) p s fun _ =>
          popAll p [d] (makeStore p va t 4 ((fBits p d s₀) % 2 ^ 32) h 0 s'))

/-- 09 R206, R219-R223. LDA is a load that is then an acquire; STREL is a release and then a store; FENCE is both;
ATOM and CAS are a release and then send the indivisible step, which acquires when it is performed; AMERGE releases all
but earlier merges and queues its merge. LDA and STREL refuse a landing's registers, and ATOM, CAS and AMERGE a target
that Table 09-7 does not give them. With a target, no data error in bytes that are read, and no pushed element left, each
of them completes. -/
def Obligations.OrderedAccessesReleaseAndAcquire : Prop :=
  (∀ p s z sc d a i, Clear (.lda z sc d a i) p s →
    let s₀ := atIssue (.lda z sc d a i) p s
    let va := getX p a s₀ + BitVec.ofNat 64 (i.toNat * sizeBytes z)
    Accesses (.lda z sc d a i) p s (settleMerges p (forceAtoms p s₀)) va (sizeBytes z) .read fun t s' =>
      if t.isLreg then Traps (.lda z sc d a i) p s Cause.access va fun _ => s'
      else Completes (.lda z sc d a i) p s fun _ =>
        let r := threadRead p va t (sizeBytes z) .normal (performTouching p va t (sizeBytes z) s')
        putX p d (BitVec.ofNat 64 r.1) (acquire p sc r.2)) ∧
  (∀ p s z sc b a i, Clear (.strel z sc b a i) p s →
    let s₀ := atIssue (.strel z sc b a i) p s
    let va := getX p a s₀ + BitVec.ofNat 64 (i.toNat * sizeBytes z)
    Accesses (.strel z sc b a i) p s s₀ va (sizeBytes z) .write fun t s' =>
      if t.isLreg then Traps (.strel z sc b a i) p s Cause.access va fun _ => s'
      else Releases (.strel z sc b a i) p s s' sc true fun s =>
        makeStore p va t (sizeBytes z) ((getX p b s).toNat % 2 ^ (8 * sizeBytes z)) .normal 0 s) ∧
  (∀ p s sc, Clear (.fence sc) p s →
    Releases (.fence sc) p s (atIssue (.fence sc) p s) sc true (acquire p sc)) ∧
  (∀ mk op, (mk, op) ∈ [(Instr.atomAdd, 4), (.atomMin, 5), (.atomMax, 6), (.atomMinu, 7), (.atomMaxu, 8), (.atomAnd, 9),
      (.atomOr, 10), (.atomXor, 11), (.atomSwap, 12), (.cas, 13)] →
    ∀ p s z sc d a b, Clear (mk z sc d a b) p s →
      let s₀ := atIssue (mk z sc d a b) p s
      let va := getX p a s₀
      Accesses (mk z sc d a b) p s s₀ va (sizeBytes z) .atomic fun t s' =>
        if atomAllowed false t then Releases (mk z sc d a b) p s s' sc true fun s =>
          sendAccess p
            { n := 0, kind := .atom op (sizeBytes z), va := va, tgt := t, hint := .normal, file := .x, reg := d,
              opnd := getX p b s, expect := getX p d s, val := none, scope := sc } (forceAtoms p s)
        else Traps (mk z sc d a b) p s Cause.access va fun _ => s') ∧
  (∀ p s z sc a b, Clear (.amergeI z sc a b) p s →
    let s₀ := atIssue (.amergeI z sc a b) p s
    let va := getX p a s₀
    Accesses (.amergeI z sc a b) p s (forceAtoms p s₀) va (sizeBytes z) .atomic fun t s' =>
      if atomAllowed true t then Releases (.amergeI z sc a b) p s s' sc false
        (makeStore p va t (sizeBytes z) ((getX p b s₀).toNat % 2 ^ (8 * sizeBytes z)) .normal 1)
      else Traps (.amergeI z sc a b) p s Cause.access va fun _ => s') ∧
  (∀ p s sc a b, Clear (.amergeF sc a b) p s → FReady (.amergeF sc a b) p s [b] [] →
    let s₀ := readF p [b] (atIssue (.amergeF sc a b) p s)
    let va := getX p a s₀
    Accesses (.amergeF sc a b) p s (forceAtoms p s₀) va 4 .atomic fun t s' =>
      if atomAllowed true t then Releases (.amergeF sc a b) p s s' sc false fun s =>
        popAll p [b] (makeStore p va t 4 (fBits p b s₀ % 2 ^ 32) .normal 2 s)
      else Traps (.amergeF sc a b) p s Cause.access va fun _ => s') ∧
  (∀ p s z sc d a i t s', Clear (.lda z sc d a i) p s →
    let s₁ := atIssue (.lda z sc d a i) p s
    let va := getX p a s₁ + BitVec.ofNat 64 (i.toNat * sizeBytes z)
    let s₂ := settleMerges p (forceAtoms p s₁)
    route (s₂.agent p) va (sizeBytes z) .read s₂ = (.to t, s') → dataBad s' t = false → t.isLreg = false →
    let r := threadRead p va t (sizeBytes z) .normal (performTouching p va t (sizeBytes z) s')
    ∃ u, exec (.lda z sc d a i) s = .next u ∧ Finished p s₁ (putX p d (BitVec.ofNat 64 r.1) (acquire p sc r.2)) u) ∧
  (∀ p s z sc b a i t s', Clear (.strel z sc b a i) p s →
    let s₁ := atIssue (.strel z sc b a i) p s
    let va := getX p a s₁ + BitVec.ofNat 64 (i.toNat * sizeBytes z)
    route (s₁.agent p) va (sizeBytes z) .write s₁ = (.to t, s') → t.isLreg = false →
    ((pushAll p s').thread p).pushing = false →
    let s₂ := releaseStores p sc true (pushAll p s')
    ∃ u, exec (.strel z sc b a i) s = .next u ∧ Finished p s₁
      (makeStore p va t (sizeBytes z) ((getX p b s₂).toNat % 2 ^ (8 * sizeBytes z)) .normal 0 s₂) u) ∧
  (∀ p s sc, Clear (.fence sc) p s →
    let s₁ := atIssue (.fence sc) p s
    ((pushAll p s₁).thread p).pushing = false →
    ∃ u, exec (.fence sc) s = .next u ∧ Finished p s₁ (acquire p sc (releaseStores p sc true (pushAll p s₁))) u) ∧
  (∀ p s z sc d a b t s' i op, (i, op) ∈ [(Instr.atomAdd z sc d a b, 4), (.atomMin z sc d a b, 5), (.atomMax z sc d a b, 6),
      (.atomMinu z sc d a b, 7), (.atomMaxu z sc d a b, 8), (.atomAnd z sc d a b, 9), (.atomOr z sc d a b, 10),
      (.atomXor z sc d a b, 11), (.atomSwap z sc d a b, 12), (.cas z sc d a b, 13)] → Clear i p s →
    let s₁ := atIssue i p s
    let va := getX p a s₁
    route (s₁.agent p) va (sizeBytes z) .atomic s₁ = (.to t, s') → dataBad s' t = false → atomAllowed false t = true →
    ((pushAll p s').thread p).pushing = false →
    let s₂ := releaseStores p sc true (pushAll p s')
    ∃ u, exec i s = .next u ∧ Finished p s₁ (sendAccess p
      { n := 0, kind := .atom op (sizeBytes z), va := va, tgt := t, hint := .normal, file := .x, reg := d,
        opnd := getX p b s₂, expect := getX p d s₂, val := none, scope := sc } (forceAtoms p s₂)) u) ∧
  (∀ p s z sc a b t s', Clear (.amergeI z sc a b) p s →
    let s₁ := atIssue (.amergeI z sc a b) p s
    let va := getX p a s₁
    route ((forceAtoms p s₁).agent p) va (sizeBytes z) .atomic (forceAtoms p s₁) = (.to t, s') → dataBad s' t = false →
    atomAllowed true t = true → ((pushAll p s').thread p).pushing = false →
    ∃ u, exec (.amergeI z sc a b) s = .next u ∧ Finished p s₁
      (makeStore p va t (sizeBytes z) ((getX p b s₁).toNat % 2 ^ (8 * sizeBytes z)) .normal 1
        (releaseStores p sc false (pushAll p s'))) u) ∧
  (∀ p s sc a b t s', Clear (.amergeF sc a b) p s → FReady (.amergeF sc a b) p s [b] [] →
    let s₁ := readF p [b] (atIssue (.amergeF sc a b) p s)
    let va := getX p a s₁
    route ((forceAtoms p s₁).agent p) va 4 .atomic (forceAtoms p s₁) = (.to t, s') → dataBad s' t = false →
    atomAllowed true t = true → ((pushAll p s').thread p).pushing = false →
    ∃ u, exec (.amergeF sc a b) s = .next u ∧ Finished p (atIssue (.amergeF sc a b) p s)
      (popAll p [b] (makeStore p va t 4 (fBits p b s₁ % 2 ^ 32) .normal 2 (releaseStores p sc false (pushAll p s')))) u)

/-- 09 R222. What an indivisible step leaves in memory, on operands of w bytes: ADD wraps, MIN and MAX compare as signed and
MINU and MAXU as unsigned numbers, AND, OR and XOR act on bits, SWAP stores the operand, and CAS stores it where the old
value equals xd's and stores nothing where it does not. Performed on DRAM when no store is in flight, the atomic answers
the old bytes, leaves the step's value in the bytes of its operand and every other byte of memory as it was, and leaves no
slice a copy of the line. -/
def Obligations.AtomicsLeaveTableValueInOneStep : Prop :=
  (∀ w ∈ [1, 2, 4, 8], ∀ (a b x : BitVec (8 * w)),
    atomNew 4 w a.toNat b.toNat x.toNat = some (a + b).toNat ∧
    atomNew 5 w a.toNat b.toNat x.toNat = some (if a.sle b then a else b).toNat ∧
    atomNew 6 w a.toNat b.toNat x.toNat = some (if b.sle a then a else b).toNat ∧
    atomNew 7 w a.toNat b.toNat x.toNat = some (if a.ule b then a else b).toNat ∧
    atomNew 8 w a.toNat b.toNat x.toNat = some (if b.ule a then a else b).toNat ∧
    atomNew 9 w a.toNat b.toNat x.toNat = some (a &&& b).toNat ∧
    atomNew 10 w a.toNat b.toNat x.toNat = some (a ||| b).toNat ∧
    atomNew 11 w a.toNat b.toNat x.toNat = some (a ^^^ b).toNat ∧
    atomNew 12 w a.toNat b.toNat x.toNat = some b.toNat ∧
    atomNew 13 w a.toNat b.toNat x.toNat = (if a = x then some b.toNat else none)) ∧
  (∀ s cl die gang op va pa mca nc cmp w v x, Memory.wf s.dram = true → FMap.wf s.slices = true →
    s.stores = [] → w ∈ [1, 2, 4, 8] →
    let r := atomPerform cl die gang op va (.dram pa mca nc cmp) w v x s
    let old := Memory.read s.dram pa w
    r.1 = old ∧
    (∀ new, atomNew op w old v x = some new → new < 2 ^ (8 * w) →
      Memory.read r.2.dram pa w = new ∧
      (∀ a, a < pa ∨ pa + w ≤ a → Memory.byte r.2.dram a = Memory.byte s.dram a) ∧
      ∀ d < 4, FMap.get? r.2.slices (copyKey (pa / 128) d) = none) ∧
    (atomNew op w old v x = none → r.2.dram = s.dram))

/-- 09 R197-R200, R217, R218. The value of a load: with no other access of the thread in flight, the register holds the bytes
the access reads, extended as the word says. With no store in flight and no copy of the line in L1 or the slice, a load
from DRAM reads the bytes the home holds, in little-endian order, and leaves them as they are. -/
def Obligations.LoadGivesExtendedHomeBytes : Prop :=
  (∀ p s d va tgt h size signed, p.engine ≠ .lane → s.split = false → (s.thread p).loads = [] →
    let a : Access := { n := 0, kind := .load size signed, va := va, tgt := tgt, hint := h, file := .x, reg := d.val,
                        opnd := 0, expect := 0, val := none }
    let s' := { s.modThread p fun t => { t with loads := [{ a with n := s.reqCtr, clk := s.clk }] } with reqCtr := s.reqCtr + 1 }
    ∀ d' : Reg, getX p d' (sendAccess p a s) =
      if d' = d ∧ d ≠ 0 then extend size signed (threadRead p va tgt size h s').1 else getX p d' s) ∧
  (∀ p s va pa mca nc cmp w h, s.stores = [] → w ∈ [1, 2, 4, 8] → pa % w = 0 → va.toNat % 128 = pa % 128 →
    (∀ l ∈ (match p.cluster? with | some cl => (s.cluster cl).l1 | none => []),
      l.gang ≠ (s.thread p).gang ∨ l.tag ≠ va.toNat / 128) →
    FMap.get? s.slices (copyKey (pa / 128) p.die) = none →
    (threadRead p va (.dram pa mca nc cmp) w h s).1 = Memory.read s.dram pa w ∧
    (threadRead p va (.dram pa mca nc cmp) w h s).2.dram = s.dram)

/-- 09 R224; 05 R101. PREF brings the line of a mapped address into L1 or into the own slice, and touches no thread.
CINV leaves the cluster no L1 or instruction-cache line of the gang at the address, and takes the own die's slice, or
every slice, its copy. CFLUSH performs the thread's stores to the line at the scope and leaves L1 no such line, and at
`.sys` a changed line is written to DRAM with its size code: the memory-side cache then holds no bytes newer than DRAM's.
None of them faults. -/
def Obligations.CacheWordsActOnTheirLine : Prop :=
  (∀ p s sc a, Clear (.pref sc a) p s → CompletesWith (.pref sc a) p s fun s₁ s₂ =>
    s₂.threads = s₁.threads ∧ s₂.cores = s₁.cores ∧
    ∀ line cl, (quietLine p (getX p a s₁) s₁).1 = some (line, false) → p.cluster? = some cl →
      (sc = .cl → ∃ l ∈ (s₂.cluster cl).l1, l.gang = (s₁.thread p).gang ∧ l.tag = (getX p a s₁).toNat / 128) ∧
      (sc = .die → (FMap.get? s₂.slices (copyKey line p.die)).isSome = true)) ∧
  (∀ p s sc a, Clear (.cinv sc a) p s → Completes (.cinv sc a) p s fun s₁ =>
    let r := quietLine p (getX p a s₁) (dropFetched p (dropVa p (getX p a s₁) true s₁))
    match r.1 with
    | none => r.2
    | some (line, _) =>
      if sc = .cl then r.2
      else if sc = .die then dropCopy line p.die r.2
      else [0, 1, 2, 3].foldl (fun s d => dropCopy line d s) r.2) ∧
  (∀ p s sc a, Clear (.cflush sc a) p s → Completes (.cflush sc a) p s fun s₁ =>
    let r := quietLine p (getX p a s₁) (pushAll p s₁)
    match r.1 with
    | none => r.2
    | some (line, _) =>
      let s₂ := dropVa p (getX p a s₁) false
        (drain (fun e => e.place == p && e.line? == some line) (fun e => e.level sc) r.2)
      if sc = .sys then writeBack (s₂.homeLanding (line * 128)) line s₂ else s₂) ∧
  (∀ p va ic s cl, p.cluster? = some cl →
    (∀ l ∈ ((dropVa p va ic s).cluster cl).l1, ¬ (l.gang = (s.thread p).gang ∧ l.tag = va.toNat / 128)) ∧
    (ic = true → ∀ l ∈ ((dropVa p va ic s).cluster cl).ic, ¬ (l.gang = (s.thread p).gang ∧ l.tag = va.toNat / 128))) ∧
  (∀ line d (s : State), FMap.wf s.slices = true → FMap.get? (dropCopy line d s).slices (copyKey line d) = none ∧
    ∀ n e, copyKey n e ≠ copyKey line d → FMap.get? (dropCopy line d s).slices (copyKey n e) = FMap.get? s.slices (copyKey n e)) ∧
  (∀ (s : State) l line, FMap.get? (s.landing l).msc line = some true →
    (writeBack l line s).dram = s.dram ∧ FMap.get? ((writeBack l line s).landing l).msc line = some false ∧
    ((writeBack l line s).landing l).savw = (s.landing l).savw + ofN (s.sizeCode l line))

/-! ### Streams, copies, timelines -/

/-- 10 R229, R245, R246. SBIND faults on a bound register and on an address that is no multiple of 64, reports the first
field of the record that fails its check, and binds the register at element 0; a read stream of a tile that is not yet
sealed waits, and acquires at `.die` when it is; a stale handle is over-read. SCLOSE performs what is pushed, waits for
that and for a consuming read, unbinds, and reports a push that failed or a stale consuming read. SSTAT answers 0, or 1,
the direction and the elements left. -/
def Obligations.StreamWordsBindCloseAndReport : Prop :=
  (∀ p s i a, Clear (.sbind i a) p s →
    let s₁ := atIssue (.sbind i a) p s
    let va := getX p a s₁
    let g := (s₁.thread p).gang
    ((strmAt p i.val s₁).isSome = true → Traps (.sbind i a) p s Cause.stream 1 id) ∧
    (strmAt p i.val s₁ = none → (canonical va = false ∨ va.toNat % 64 ≠ 0) →
      Traps (.sbind i a) p s Cause.access va id) ∧
    ∀ r s', strmAt p i.val s₁ = none → canonical va = true → va.toNat % 64 = 0 →
      Loaded p 8 va (forceAtoms p s₁) r s' →
      let m := freshStrm r true
      (∀ o, strmBad g r s' = some o → Traps (.sbind i a) p s Cause.streamRecord (ofN o) fun _ => s') ∧
      (strmBad g r s' = none → m.hvalid = false →
        Completes (.sbind i a) p s fun _ => modStrm p i.val (fun _ => some m) (settleBind p s')) ∧
      (strmBad g r s' = none → m.hvalid = true → ∀ st, handleSlot g m.handle s' = some (st, true) →
        Traps (.sbind i a) p s Cause.overRead m.handle fun _ => s') ∧
      (strmBad g r s' = none → m.hvalid = true → m.writes = true → (∀ st, handleSlot g m.handle s' ≠ some (st, true)) →
        Completes (.sbind i a) p s fun _ => modStrm p i.val (fun _ => some m) (settleBind p s')) ∧
      (strmBad g r s' = none → m.hvalid = true → m.writes = false → (∀ st, handleSlot g m.handle s' ≠ some (st, true)) →
        let s₂ := modStrm p i.val (fun _ => some (freshStrm r false)) (settleBind p s')
        (handleLive g m.handle s₂ = true → handleSlot g m.handle s₂ = some (.sealed, false) →
          Completes (.sbind i a) p s fun _ =>
            acquire p .die (modStrm p i.val (fun o => o.map fun m => { m with sealed := true }) s₂)) ∧
        ((handleLive g m.handle s₂ = false ∨ handleSlot g m.handle s₂ = some (.filling, false)) →
          Blocks (.sbind i a) p s (.waiting 1 s₂.reqCtr) fun _ => { s₂ with reqCtr := s₂.reqCtr + 1 }))) ∧
  (∀ p s i, Clear (.sclose i) p s →
    let s₁ := atIssue (.sclose i) p s
    let s₂ := settleOwn p (pushMany p i.val 64 s₁)
    let s₃ := dropMiss (.stream p i.val) (modStrm p i.val (fun _ => none) s₂)
    (strmAt p i.val s₁ = none → Completes (.sclose i) p s id) ∧
    (∀ o m, strmAt p i.val s₁ = some o → strmAt p i.val s₂ = some m →
      (m.push ≠ [] ∨ m.counting = true → Blocks (.sclose i) p s (.waiting 1 0) fun _ => s₂) ∧
      (∀ c a, m.push = [] → m.counting = false → m.failAt = some (c, a) → Traps (.sclose i) p s c a fun _ => s₃) ∧
      (m.push = [] → m.counting = false → m.failAt = none → m.stale = true →
        Traps (.sclose i) p s Cause.overRead m.handle fun _ => s₃) ∧
      (m.push = [] → m.counting = false → m.failAt = none → m.stale = false →
        Completes (.sclose i) p s fun _ => s₃))) ∧
  (∀ p s d i, Clear (.sstat d i) p s →
    (strmAt p i.val (atIssue (.sstat d i) p s) = none → Completes (.sstat d i) p s (putX p d 0)) ∧
    (∀ m, strmAt p i.val (atIssue (.sstat d i) p s) = some m →
      Completes (.sstat d i) p s
        (putX p d (ofN (1 + (if m.writes then 2 else 0) + (strmLen m.record - m.pos) * 65536)))))

/-- 10 R247. TCOPY faults on an address that is no multiple of 64 or, of a cluster's thread, outside the RAW view of the
own share's window; it reports the first field of the layout record that fails its check; and after a release at `.die`
it registers with the record's timeline, gives xd the sequence number, and enters the engine's queue, waiting in *queuing*
for room in it with the record as it was read at issue. -/
def Obligations.TcopyRegistersAndQueues : Prop :=
  ∀ p s d a, Clear (.tcopy d a) p s →
    let s₁ := atIssue (.tcopy d a) p s
    let va := getX p a s₁
    let ok := canonical va = true ∧ va.toNat % 64 = 0 ∧ (p.engine = .landing ∨ ownRaw p va s₁ = true)
    (¬ ok → Traps (.tcopy d a) p s Cause.access va id) ∧
    ∀ r s', ok → Loaded p 32 va (forceAtoms p s₁) r s' →
      (∀ o, copyBad p r s' = some o → Traps (.tcopy d a) p s Cause.layoutRecord (ofN o) fun _ => s') ∧
      (copyBad p r s' = none → ((pushAll p s').thread p).pushing = true →
        Blocks (.tcopy d a) p s (.queuing (r ++ [1])) fun _ => pushAll p s') ∧
      (copyBad p r s' = none →
        let s₂ := releaseStores p .die true (pushAll p s')
        ∀ g k i, ((pushAll p s').thread p).pushing = false → tlRef p (cpTl r) s₂ = some (g, k, i) →
          let x := tlRegister g k i s₂
          (copyRoom (copyUnitOf p) s₂ = true → s₂.shareLive g k = true →
            Completes (.tcopy d a) p s fun _ => putX p d (ofN x.1.n)
              (modCopies (copyUnitOf p) (· ++ [newCopy p (s₂.thread p) r x.1]) x.2)) ∧
          ((copyRoom (copyUnitOf p) s₂ = false ∨ s₂.shareLive g k = false) →
            Blocks (.tcopy d a) p s (.queuing r) fun _ => s₂))

/-- 10 R241-R244, R248. TLWAIT, TLREAD and TLARM raise timeline fault 1 on a reference that names none, and wait while its
share is saved. TLWAIT reports a failure at or below its number, acquires when V has reached it, and waits before. TLREAD
gives V, I or F, and as `.C` clears F. TLARM checks its header and destination, takes one of four trigger slots, and fires
what has been reached. An operation that completes advances V over it and over those above it that completed early, and
over no other: V is then the greatest number up to which every operation is complete. -/
def Obligations.TimelinesWaitReadArmAndAdvance : Prop :=
  ((∀ p s a b sc i, (i = .tlwait sc a b ∨ (∃ k, i = .tlread k b a) ∨ i = .tlarm a b) → Clear i p s →
    let s₁ := atIssue i p s
    (tlRef p (getX p a s₁) s₁ = none → Traps i p s Cause.timeline 1 id) ∧
    (∀ g r n, tlRef p (getX p a s₁) s₁ = some (g, r, n) → s₁.shareLive g r = false →
      Blocks i p s (.waiting 0 0) id)) ∧
  (∀ p s sc a b, Clear (.tlwait sc a b) p s →
    let s₁ := atIssue (.tlwait sc a b) p s
    ∀ g r i t, tlRef p (getX p a s₁) s₁ = some (g, r, i) → s₁.shareLive g r = true → s₁.tl? g r i = some t →
      (t.f ≠ 0 ∧ t.f ≤ (getX p b s₁).toNat → Traps (.tlwait sc a b) p s t.fcause (ofN t.f) id) ∧
      (¬ (t.f ≠ 0 ∧ t.f ≤ (getX p b s₁).toNat) → (getX p b s₁).toNat ≤ t.v →
        Completes (.tlwait sc a b) p s (acquire p sc)) ∧
      (¬ (t.f ≠ 0 ∧ t.f ≤ (getX p b s₁).toNat) → t.v < (getX p b s₁).toNat →
        Blocks (.tlwait sc a b) p s (.waiting 0 0) id)) ∧
  (∀ p s k d a, Clear (.tlread k d a) p s →
    let s₁ := atIssue (.tlread k d a) p s
    ∀ g r i t, tlRef p (getX p a s₁) s₁ = some (g, r, i) → s₁.shareLive g r = true → s₁.tl? g r i = some t →
      Completes (.tlread k d a) p s fun s =>
        match k with
        | .v => putX p d (ofN t.v) s
        | .i => putX p d (ofN t.i) s
        | .f => putX p d (ofN t.f) s
        | .c => putX p d (ofN t.f) (tlClear g r i s)) ∧
  (∀ p s a b, Clear (.tlarm a b) p s →
    let s₁ := atIssue (.tlarm a b) p s
    ∀ g r i t (hb : b.val + 2 < 32), tlRef p (getX p a s₁) s₁ = some (g, r, i) → s₁.shareLive g r = true →
      s₁.tl? g r i = some t →
      let h := getX p ⟨b.val + 1, by omega⟩ s₁
      let bad := badHeader h = true ∨ hKind h ≠ 0 ∨ 1 < hCount h
      (bad → Traps (.tlarm a b) p s Cause.messageFormat h id) ∧
      (∀ c, ¬ bad → sendFault p h s₁ = some c → Traps (.tlarm a b) p s c h id) ∧
      (¬ bad → sendFault p h s₁ = none → 4 ≤ t.trigs.length → Traps (.tlarm a b) p s Cause.timeline 3 id) ∧
      (¬ bad → sendFault p h s₁ = none → t.trigs.length < 4 → Completes (.tlarm a b) p s fun s =>
        fireTriggers g r i (modTl g r i (fun t => { t with trigs := t.trigs ++
          [{ thr := (getX p b s₁).toNat, hdr := h, pay := getX p ⟨b.val + 2, hb⟩ s₁, src := p, srcId := srcOf p s₁,
             rank := destRank p h s₁ }] }) s)))) ∧
  (∀ (t : Timeline) n, t.early.Nodup → (∀ e ∈ t.early, t.v < e) → t.v < n → n ∉ t.early →
    let u := Timeline.advance (t.early.length + 1) { t with early := t.early ++ [n] }
    t.v ≤ u.v ∧ (∀ k, t.v < k → k ≤ u.v → k = n ∨ k ∈ t.early) ∧ (u.v + 1 ≠ n ∧ u.v + 1 ∉ t.early) ∧
    (∀ k, k ∈ u.early ↔ u.v < k ∧ (k = n ∨ k ∈ t.early)) ∧ u.i = t.i ∧ u.f = t.f ∧ u.trigs = t.trigs)

/-! ### Galleries -/

/-- 11 R253, R260, R265-R270. The gallery words check their reference and count, perform their release where they have
one, send their request to the unit of the cluster that holds the bay, and wait for its answer, with which they complete
or fault; an allocation and GTAKE acquire when they have their answer. That a word waits until its request has been
performed is the model's choice (log 83). -/
def Obligations.GalleryWordsSendTheirRequest : Prop :=
  (∀ mk, mk ∈ [Instr.galloc, .gtry] → ∀ p s d a b, Clear (mk d a b) p s →
    let s₁ := atIssue (mk d a b) p s
    let ref := bayRef p (getX p a s₁) s₁
    let n := getX p b s₁
    (ref = .bad → Traps (mk d a b) p s Cause.gallery 1 id) ∧
    (ref ≠ .bad → (n = 0 ∨ 255 < n.toNat) → Traps (mk d a b) p s Cause.gallery 3 id) ∧
    (ref ≠ .bad → n ≠ 0 → n.toNat ≤ 255 →
      let cl := refCluster ref p s₁
      SendsGallery (mk d a b) p s s₁ cl
        { place := p, port := galPort p cl, op := mk d a b, a := getX p a s₁, b := n, clk := s.clk } (giveTile p d))) ∧
  (∀ mk rel fin, (mk, rel, fin) ∈ [((fun _ a => .gseal a : Reg → Reg → Instr), true, (fun _ _ _ s => s : Place → Reg → Word → State → State)),
      (.gtake, false, fun p d v s => putX p d v (acquire p .die s)), (fun _ a => .gdone a, true, fun _ _ _ s => s),
      (.gstatTile, false, fun p d v s => putX p d v s)] →
    ∀ p s d a, Clear (mk d a) p s →
    let s₁ := atIssue (mk d a) p s
    let h := getX p a s₁
    let ref := handleRef (s₁.thread p).gang h s₁
    let cl := refCluster ref p s₁
    let q : GReq := { place := p, port := galPort p cl, op := mk d a, a := h, b := 0, clk := s.clk }
    (ref = .bad → Traps (mk d a) p s Cause.gallery 4 id) ∧
    (ref ≠ .bad → rel = false → SendsGallery (mk d a) p s s₁ cl q (fin p d)) ∧
    (ref ≠ .bad → rel = true → ((pushAll p s₁).thread p).pushing = true →
      Blocks (mk d a) p s (.waiting 0 0) fun _ => pushAll p s₁) ∧
    (ref ≠ .bad → rel = true → ((pushAll p s₁).thread p).pushing = false →
      SendsGallery (mk d a) p s (releaseStores p (galScope p cl) true (pushAll p s₁)) cl q (fin p d))) ∧
  (∀ p s a b, Clear (.gdrop a b) p s →
    let s₁ := atIssue (.gdrop a b) p s
    let h := getX p a s₁
    let n := getX p b s₁
    let ref := handleRef (s₁.thread p).gang h s₁
    let cl := refCluster ref p s₁
    (ref = .bad → Traps (.gdrop a b) p s Cause.gallery 4 id) ∧
    (ref ≠ .bad → (n = 0 ∨ 255 < n.toNat) → Traps (.gdrop a b) p s Cause.gallery 3 id) ∧
    (ref ≠ .bad → n ≠ 0 → n.toNat ≤ 255 → ((pushAll p s₁).thread p).pushing = false →
      SendsGallery (.gdrop a b) p s (releaseStores p (galScope p cl) true (pushAll p s₁)) cl
        { place := p, port := galPort p cl, op := .gdrop a b, a := h, b := n, clk := s.clk } fun _ s => s)) ∧
  (∀ p s d a, Clear (.gstatBay d a) p s →
    let s₁ := atIssue (.gstatBay d a) p s
    let ref := bayRef p (getX p a s₁) s₁
    let cl := refCluster ref p s₁
    (ref = .bad → Traps (.gstatBay d a) p s Cause.gallery 1 id) ∧
    (ref ≠ .bad → SendsGallery (.gstatBay d a) p s s₁ cl
      { place := p, port := galPort p cl, op := .gstatBay d a, a := getX p a s₁, b := 0, clk := s.clk } (putX p d))) ∧
  (∀ p s d a b, Clear (.gbay d a b) p s →
    let s₁ := atIssue (.gbay d a b) p s
    let cl := (getX p a s₁).toNat / 256 % 256
    (192 ≤ cl → Traps (.gbay d a b) p s Cause.gallery 1 id) ∧
    (cl < 192 → SendsGallery (.gbay d a b) p s s₁ cl
      { place := p, port := galPort p cl, op := .gbay d a b, a := getX p a s₁, b := getX p b s₁, clk := s.clk }
      (putX p d)))

/-- 11 R258, R259, R261, R267. A gallery word that waits for its answer completes with the value that its unit answered, and
a GALLOC in *allocating* with the handle it was handed; a GTAKE or GDONE that waited for a seal completes once it has
been told of it. -/
def Obligations.GalleryAnswersEndTheWord : Prop :=
  (∀ p s d a b v w, p.engine ≠ .lane → Looks (.galloc d a b) (.answered true v w) p s →
    CompletesLater (.galloc d a b) p s (giveTile p d v)) ∧
  (∀ p s d a b h, p.engine ≠ .lane → h ≠ 0 → h < 2 ^ 64 → Looks (.galloc d a b) (.allocating h) p s →
    CompletesLater (.galloc d a b) p s (giveTile p d (ofN h))) ∧
  (∀ p s d a b v w, p.engine ≠ .lane → Looks (.gtry d a b) (.answered true v w) p s →
    CompletesLater (.gtry d a b) p s (giveTile p d v)) ∧
  (∀ p s a v w, Looks (.gseal a) (.answered true v w) p s → CompletesLater (.gseal a) p s id) ∧
  (∀ p s d a v w, p.engine ≠ .lane → Looks (.gtake d a) (.answered true v w) p s →
    CompletesLater (.gtake d a) p s fun s => putX p d v (acquire p .die s)) ∧
  (∀ p s a v w, Looks (.gdone a) (.answered true v w) p s → CompletesLater (.gdone a) p s id) ∧
  (∀ p s a b v w, Looks (.gdrop a b) (.answered true v w) p s → CompletesLater (.gdrop a b) p s id) ∧
  (∀ p s d a v w, p.engine ≠ .lane → Looks (.gstatBay d a) (.answered true v w) p s →
    CompletesLater (.gstatBay d a) p s (putX p d v)) ∧
  (∀ p s d a v w, p.engine ≠ .lane → Looks (.gstatTile d a) (.answered true v w) p s →
    CompletesLater (.gstatTile d a) p s (putX p d v)) ∧
  (∀ p s d a b v w, p.engine ≠ .lane → Looks (.gbay d a b) (.answered true v w) p s →
    CompletesLater (.gbay d a b) p s (putX p d v)) ∧
  (∀ p s d a n, p.engine ≠ .lane → Looks (.gtake d a) (.waiting 3 n) p s → CompletesLater (.gtake d a) p s fun s =>
    putX p d (handleAddr (s.thread p).gang (getX p a s) s) (acquire p .die s)) ∧
  (∀ p s a n, Looks (.gdone a) (.waiting 3 n) p s → CompletesLater (.gdone a) p s (acquire p .die)) ∧
  (∀ i p s, (∃ d a b, i = .galloc d a b) → Looks i (.allocating 0) p s → Stays i p s (.allocating 0))

/-- 11 R252, R253, R255-R259, R261, R265-R268. At the unit: an allocation takes the lowest free slot that is available,
which is filling with the declared count, and gives its handle; with none, GTRY gives 0 and GALLOC joins the end of the
FIFO. GSEAL seals a filling slot of the handle's generation, which ends the wait of those that wait for it, and faults on
any other. GTAKE and GDONE give over-read on a stale
handle, wait for the seal, and give the tile's address; GDONE takes 1 from the count and GDROP its number, which is at
most the count; a count that reaches 0 frees the slot at the next generation. -/
def Obligations.GalleryUnitPerformsOperations : Prop :=
  (∀ p ref n s g r b x y try_ sh, bayRef p ref s = .ok g r b x y → s.share? g r = some sh → s.live sh = true →
    ∀ bay, s.bayAt g r b = some bay →
      (∀ k sl, bay.fifo = [] → bay.freeSlot? s.clk = some k → bay.slots[k]? = some sl →
        allocAt try_ p ref n s = (.done (handleOf sh b k sl.gen), fillSlot g r b k n s)) ∧
      ((bay.fifo ≠ [] ∨ bay.freeSlot? s.clk = none) → allocAt true p ref n s = (.done 0, s)) ∧
      ((bay.fifo ≠ [] ∨ bay.freeSlot? s.clk = none) → ∃ s', allocAt false p ref n s = (.queued, s') ∧
        s'.bayAt g r b = some (Bay.watch { bay with fifo := bay.fifo ++
          [{ place := p, ref := ref, cnt := n, pc := (s.thread p).pc }] } s.clk false))) ∧
  (∀ p h s g r b k gen sl, handleRef (s.thread p).gang h s = .ok g r b k gen → s.shareLive g r = true →
    s.slotAt g r b k = some sl →
      (sl.gen = gen → sl.st = .filling → sealAt p h s = (.done 0, sealNow g r b k s)) ∧
      ((sl.gen ≠ gen ∨ sl.st ≠ .filling) → sealAt p h s = (.fault Cause.gallery 5, s)) ∧
      (∀ c, sl.gen ≠ gen → takeAt c p h s = (.fault Cause.overRead h, s)) ∧
      (∀ c, sl.gen = gen → sl.st ≠ .sealed → takeAt c p h s = (.unsealed, s)) ∧
      (sl.gen = gen → sl.st = .sealed → takeAt false p h s = (.done (handleAddr g h s), s)) ∧
      (sl.gen = gen → sl.st = .sealed →
        takeAt true p h s = (.done (handleAddr g h s), takeSlot g r b k 1 s)) ∧
      (∀ n, (sl.gen ≠ gen ∨ sl.cnt < n) → dropAt p h n s = (.fault Cause.overRead h, s)) ∧
      (∀ n, sl.gen = gen → n ≤ sl.cnt → dropAt p h n s = (.done 0, takeSlot g r b k n s))) ∧
  (∀ s g r b k sl, s.slotAt g r b k = some sl →
    (sealWaiters g r b k sl.gen (sealSlot g r b k s) = [] → sealNow g r b k s = sealSlot g r b k s) ∧
    (∀ n p h, sealWaiters g r b k sl.gen (sealSlot g r b k s) = [(n, p, h, false)] →
      sealNow g r b k s = answerWait p (.waiting 3 0) (sealSlot g r b k s))) ∧
  (∀ (x : Slot) clk k, (k < x.cnt → x.take clk k = { x with cnt := x.cnt - k }) ∧
    (x.cnt ≤ k → (x.take clk k).st = .free ∧ (x.take clk k).avail = clk + 1 ∧
      (x.gen < 8191 → (x.take clk k).gen = x.gen + 1) ∧ (8191 ≤ x.gen → (x.take clk k).gen = 1)))

/-! ### The bank -/

/-- 12 R271, R286, R291, R300, R301. The immediate BANK words fault on a thread whose share holds no bank. WCFG checks its
value and writes it. WRCF and WSTAT give the value as it stands, and WSTAT.C then clears ACCOVF or the fault. WWAIT takes
its threshold at issue, reports a failure at or below it, acquires at `.die` once it has been reached, and waits before. -/
def Obligations.BankWordsAnsweredAtIssue : Prop :=
  (∀ p s i g a c e, (i = .wcfg g a ∨ i = .wrcf a g ∨ i = .wwait a ∨ i = .wstat c a e) → Clear i p s →
    (∀ cl, ¬ HoldsBank p (atIssue i p s) cl) → Traps i p s Cause.bankResv 0 id) ∧
  (∀ p s g a cl, Clear (.wcfg g a) p s → HoldsBank p (atIssue (.wcfg g a) p s) cl →
    let s₁ := atIssue (.wcfg g a) p s
    (∀ c e, cfgBad g p cl (getX p a s₁) s₁ = some (c, e) → Traps (.wcfg g a) p s c (ofN e) id) ∧
    (cfgBad g p cl (getX p a s₁) s₁ = none → Completes (.wcfg g a) p s fun s =>
      modBank cl (fun b => { b with cfg := b.cfg.set! (cfgNum g) (getX p a s) }) s)) ∧
  (∀ p s g a cl, Clear (.wrcf a g) p s → HoldsBank p (atIssue (.wrcf a g) p s) cl →
    Completes (.wrcf a g) p s fun s => putX p a (((s.bankOf cl).cfg.toList[cfgNum g]?).getD 0) s) ∧
  (∀ p s a cl, Clear (.wwait a) p s → HoldsBank p (atIssue (.wwait a) p s) cl →
    let s₁ := atIssue (.wwait a) p s
    let b := s₁.bankOf cl
    let xa := (getX p a s₁).toNat
    let n := if xa = 0 ∨ b.bseq < xa then b.bseq else xa
    (b.halt = true → b.bfseq ≤ n → Traps (.wwait a) p s b.bfcause (ofN b.bfseq) id) ∧
    ((b.halt = false ∨ n < b.bfseq) → n ≤ b.bdone → Completes (.wwait a) p s (acquire p .die)) ∧
    ((b.halt = false ∨ n < b.bfseq) → b.bdone < n → Blocks (.wwait a) p s (.waiting 1 n) id)) ∧
  (∀ p s a e cl, Clear (.wstat false a e) p s → HoldsBank p (atIssue (.wstat false a e) p s) cl →
    Completes (.wstat false a e) p s fun s => putX p a ((s.bankOf cl).stat e) s) ∧
  (∀ p s a e cl, Clear (.wstat true a e) p s → HoldsBank p (atIssue (.wstat true a e) p s) cl →
    Completes (.wstat true a e) p s fun s =>
      modBank cl (fun b =>
        if e = 0 then { b with accOvf := false }
        else if e = 3 ∧ b.halt = true then
          { b with halt := false, bfcause := 0, bfseq := 0, bfdetail := 0, bprog := 0, bdone := max b.bdone b.bfseq,
                   wd := if b.busy then some s.clk else none }
        else b) (putX p a ((s.bankOf cl).stat e) s))

/-- 12 R271, R282, R284, R292-R299. A queued BANK word checks its operands at issue, performs a release at `.die`, and
enters the bank's queue with its operands, the next sequence number, the captured configuration and its registration. On a
thread whose share holds the bank, with operands that pass its check, no pushed element left, room in the queue and no
timeline in WTL, each of the thirteen words completes. -/
def Obligations.BankWordsEnterTheQueue : Prop :=
  (∀ p s sd rev i a b, Clear (.wldp sd rev i a b) p s →
    let xa := getX p a (atIssue (.wldp sd rev i a b) p s)
    let xb := getX p b (atIssue (.wldp sd rev i a b) p s)
    EntersBank (.wldp sd rev i a b) p s xa xb
      (if canonical xa = false ∨ xa.toNat % 8 ≠ 0 then some (Cause.access, xa)
       else if wbits xb 31 20 ≠ 0 ∨ 3 < wbits xb 19 16 then some (Cause.bankConfig, 5) else none)) ∧
  (∀ p s sd rev i a b, Clear (.wldt sd rev i a b) p s →
    let s₁ := atIssue (.wldt sd rev i a b) p s
    EntersBank (.wldt sd rev i a b) p s (getX p a s₁) (getX p b s₁)
      (if handleRef (s₁.thread p).gang (getX p a s₁) s₁ = .bad then some (Cause.gallery, 4)
       else if wbits (getX p b s₁) 31 20 ≠ 0 ∨ 3 < wbits (getX p b s₁) 19 16 then some (Cause.bankConfig, 5)
       else none)) ∧
  (∀ p s q zb za a, Clear (.wmul q zb za a) p s →
    EntersBank (.wmul q zb za a) p s (getX p a (atIssue (.wmul q zb za a) p s)) 0 none) ∧
  (∀ p s q a b, Clear (.wext q a b) p s →
    EntersBank (.wext q a b) p s (getX p a (atIssue (.wext q a b) p s)) (getX p b (atIssue (.wext q a b) p s)) none) ∧
  (∀ p s zb za a b, Clear (.wmac zb za a b) p s →
    EntersBank (.wmac zb za a b) p s (getX p a (atIssue (.wmac zb za a b) p s))
      (getX p b (atIssue (.wmac zb za a b) p s)) none) ∧
  (∀ p s t zb za a b, Clear (.wmacr t zb za a b) p s →
    EntersBank (.wmacr t zb za a b) p s (getX p a (atIssue (.wmacr t zb za a b) p s))
      (getX p b (atIssue (.wmacr t zb za a b) p s)) none) ∧
  (∀ p s t zb za, Clear (.wrot t zb za) p s → EntersBank (.wrot t zb za) p s 0 0 none) ∧
  (∀ p s a b, Clear (.wsta a b) p s →
    let xa := getX p a (atIssue (.wsta a b) p s)
    let xb := getX p b (atIssue (.wsta a b) p s)
    let fmt := wbits xb 35 33
    let size := if fmt = 0 ∨ fmt = 5 then 8 else if fmt = 1 ∨ fmt = 3 then 4 else if fmt = 2 ∨ fmt = 4 then 2 else 1
    EntersBank (.wsta a b) p s xa xb
      (if canonical xa = false ∨ xa.toNat % size ≠ 0 then some (Cause.access, xa)
       else if wbits xb 63 46 ≠ 0 ∨ 5 < fmt ∨ wbits xb 32 16 = 0 ∨ 65536 < wbits xb 32 16 then
         some (Cause.bankConfig, 6)
       else none)) ∧
  (∀ p s a b, Clear (.wzero a b) p s →
    let xb := getX p b (atIssue (.wzero a b) p s)
    EntersBank (.wzero a b) p s (getX p a (atIssue (.wzero a b) p s)) xb
      (if xb = 0 ∨ 65536 < xb.toNat then some (Cause.bankConfig, 7) else none)) ∧
  (∀ p s i, Clear (.wzeroZ i) p s → EntersBank (.wzeroZ i) p s 0 0 none) ∧
  (∀ p s d a, Clear (.wmov d a) p s → EntersBank (.wmov d a) p s 0 0 none) ∧
  (∀ p s sd a i, Clear (.wunpk sd a i) p s →
    let xa := getX p a (atIssue (.wunpk sd a i) p s)
    EntersBank (.wunpk sd a i) p s xa 0
      (if canonical xa = false ∨ xa.toNat % 4 ≠ 0 then some (Cause.access, xa) else none)) ∧
  (∀ p s sd d a b, Clear (.wshft sd d a b) p s →
    EntersBank (.wshft sd d a b) p s 0 (getX p b (atIssue (.wshft sd d a b) p s)) none) ∧
  (∀ p s i sd rev q t z y a b cl xa xb, Clear i p s →
    let s₁ := atIssue i p s
    let ra := xa = getX p a s₁
    let rb := xb = getX p b s₁
    ((i = .wldp sd rev z a b ∧ ra ∧ rb ∧ canonical xa = true ∧ xa.toNat % 8 = 0 ∧ wbits xb 31 20 = 0 ∧ wbits xb 19 16 ≤ 3) ∨
     (i = .wldt sd rev z a b ∧ ra ∧ rb ∧ handleRef (s₁.thread p).gang xa s₁ ≠ .bad ∧ wbits xb 31 20 = 0 ∧
        wbits xb 19 16 ≤ 3) ∨
     (i = .wmul q z y a ∧ ra ∧ xb = 0) ∨ (i = .wext q a b ∧ ra ∧ rb) ∨ (i = .wmac z y a b ∧ ra ∧ rb) ∨
     (i = .wmacr t z y a b ∧ ra ∧ rb) ∨ (i = .wrot t z y ∧ xa = 0 ∧ xb = 0) ∨
     (i = .wsta a b ∧ ra ∧ rb ∧ canonical xa = true ∧
        xa.toNat % (if wbits xb 35 33 = 0 ∨ wbits xb 35 33 = 5 then 8 else if wbits xb 35 33 = 1 ∨ wbits xb 35 33 = 3 then 4
          else if wbits xb 35 33 = 2 ∨ wbits xb 35 33 = 4 then 2 else 1) = 0 ∧
        wbits xb 63 46 = 0 ∧ wbits xb 35 33 ≤ 5 ∧ wbits xb 32 16 ≠ 0 ∧ wbits xb 32 16 ≤ 65536) ∨
     (i = .wzero a b ∧ ra ∧ rb ∧ xb ≠ 0 ∧ xb.toNat ≤ 65536) ∨ (i = .wzeroZ z ∧ xa = 0 ∧ xb = 0) ∨
     (i = .wmov z y ∧ xa = 0 ∧ xb = 0) ∨ (i = .wunpk sd a z ∧ ra ∧ xb = 0 ∧ canonical xa = true ∧ xa.toNat % 4 = 0) ∨
     (i = .wshft sd z y b ∧ xa = 0 ∧ rb)) →
    HoldsBank p s₁ cl → ((pushAll p s₁).thread p).pushing = false →
    let s₂ := releaseStores p .die true (pushAll p s₁)
    bankTl p cl s₂ = none → (s₂.bankOf cl).queue.length < 64 →
    ∃ u, exec i s = .next u ∧ Finished p s₁ (bankEntered i p cl xa xb none s₂ s₂) u)

/-- 12 R283, R289, R292-R299, Table 12-10. A free bank starts the operation that heads its queue with the configuration
that it captured, and each holds the datapath for the occupancy of the table. WZERO clears its accumulators and keeps the
others; WZERO.Z, WMOV, WSHFT and WMUL write their registers; WMAC and WEXT accumulate, ending with guard-overflow where a
pair was skipped (the occupancy of WEXT is log 45, DEDUCED), and only the bank of the cluster changes. WLDP packs its
segments, and so does WLDT from its tile, which it waits for until it is sealed, and which over-read is reported of when it
is stale; WSTA and WUNPK store. An access that fails fails the operation with what was done before it. WMACR accumulates
and then has its rotation to make; a rotation sends when the neighbour's buffer is empty and waits while it is not. Which
bytes the occupancy of an operation counts is log 85 (DEDUCED). -/
def Obligations.BankOperationsDoTheirWork : Prop :=
  ∀ s cl o os, StartsNext cl o os s →
    let b := s.bankOf cl
    let p := planOf (recWord o.cfg 0)
    let r := startedOp o s.clk
    let s₀ := takenOp cl os r s
    let kept := keepList o.cfg
    (∀ x y, o.op = .wzero x y → ∃ t m, exec (.bankOperationStart cl) s = .next t ∧
      OnBank cl s t { b with
        queue := os, acc := m
        run := some { r with stage := 2, ends := s.clk + max 1 ((o.xb.toNat + 2047) / 2048) } } ∧
      ∀ i, i < 65536 → FMap.getD m i 0 =
        if (i + 65536 - wbits o.xa 15 0) % 65536 < o.xb.toNat then 0 else FMap.getD b.acc i 0) ∧
    (∀ i, o.op = .wzeroZ i → ∃ t, exec (.bankOperationStart cl) s = .next t ∧
      OnBank cl s t { b with
        queue := os, z := b.z.set i { bits := 0, nseg := 0, tag := [], exp := [] }
        run := some { r with stage := 2, ends := s.clk + 1 } }) ∧
    (∀ d a, o.op = .wmov d a → ∃ t, exec (.bankOperationStart cl) s = .next t ∧
      OnBank cl s t { b with
        queue := os, z := b.z.set d b.z[a], run := some { r with stage := 2, ends := s.clk + 4 } }) ∧
    (∀ sd d a x, o.op = .wshft sd d a x → ∃ t, exec (.bankOperationStart cl) s = .next t ∧
      OnBank cl s t { b with
        queue := os, z := b.z.set d (shiftSegs p sd (sext (wbits o.xb 12 0) 13) b.z[a])
        run := some { r with stage := 2, ends := s.clk + 4 } }) ∧
    (∀ q m n x, o.op = .wmul q n m x → ∃ t, exec (.bankOperationStart cl) s = .next t ∧
      OnBank cl s t { b with
        queue := os
        z := (b.z.set (pairLo q) (mulPair p o.xa b.z[m] b.z[n]).1).set (pairHi q) (mulPair p o.xa b.z[m] b.z[n]).2
        run := some { r with
          stage := 2
          ends := s.clk + max 1 (((mulPairs p o.xa b.z[m] b.z[n]).length * p.k ^ 2 * p.cost4 + 786431) / 786432) } }) ∧
    (∀ m n x y, o.op = .wmac n m x y → ∃ t, exec (.bankOperationStart cl) s = .next t ∧
      let w := macAll p o.cfg (wbits o.xb 15 0) b.z[m] b.z[n] (pairsOf p o.xa b.z[m] b.z[n])
        { acc := b.acc, ovf := b.accOvf }
      OnBank cl s t { b with
        queue := os, acc := w.accs.acc, accOvf := w.accs.ovf
        run := some { r with
          stage := 2, ends := s.clk + macClk p kept w.done, prog := w.done
          fail := if w.skipped = 0 then none else some (Cause.guardOverflow, w.detail) } }) ∧
    (∀ dir m n x y, o.op = .wmacr dir n m x y → ∃ t, exec (.bankOperationStart cl) s = .next t ∧
      let w := macAll p o.cfg (wbits o.xb 15 0) b.z[m] b.z[n] (pairsOf p o.xa b.z[m] b.z[n])
        { acc := b.acc, ovf := b.accOvf }
      OnBank cl s t { b with
        queue := os, acc := w.accs.acc, accOvf := w.accs.ovf
        run := some { r with
          stage := 1, ends := s.clk + macClk p kept w.done, prog := w.done
          fail := if w.skipped = 0 then none else some (Cause.guardOverflow, w.detail) } }) ∧
    (∀ q x y, o.op = .wext q x y → ∃ t, exec (.bankOperationStart cl) s = .next t ∧
      let w := extAll p o.cfg (wbits o.xb 15 0) b.z[pairLo q] b.z[pairHi q] (extWindow o.xa b.z[pairLo q])
        { acc := b.acc, ovf := b.accOvf }
      OnBank cl s t { b with
        queue := os, acc := w.accs.acc, accOvf := w.accs.ovf
        run := some { r with
          stage := 2, ends := s.clk + max 1 ((w.done * kept.length + 2047) / 2048), prog := w.done
          fail := if w.skipped = 0 then none else some (Cause.guardOverflow, w.detail) } }) ∧
    (∀ sh, s.bankShare? cl = some sh →
      let g := bankAgent cl sh o s₀
      let s₁ := settleBank cl s₀
      let tab := s₁.decodeOf g.gang g.rank
      let segs := if wbits o.xb 15 0 = 0 ∨ p.g < wbits o.xb 15 0 then p.g else wbits o.xb 15 0
      (∀ sd rev i x y, o.op = .wldp sd rev i x y →
        (∀ xs s', xs.length = segs → Packed cl g p sd rev i o.xb tab o.xa 0 xs (setZ cl i ZVal.blank s₁) s' →
          exec (.bankOperationStart cl) s = .next (doneOp cl (max 1 ((packBytes p sd o.xb segs + 255) / 256)) none s')) ∧
        (∀ xs s' c a u, xs.length < segs → Packed cl g p sd rev i o.xb tab o.xa 0 xs (setZ cl i ZVal.blank s₁) s' →
          packSeg g p sd o.xb tab o.xa xs.length s' = .bad c a u →
          exec (.bankOperationStart cl) s =
            .next (doneOp cl (memClk (failedAt p sd o.xb o.xa xs.length c a)) (some (c, a)) u))) ∧
      (∀ sd rev i x y, o.op = .wldt sd rev i x y →
        ((handleLive g.gang o.xa s₁ = false ∨ handleSlot g.gang o.xa s₁ = some (.filling, false)) →
          exec (.bankOperationStart cl) s = .next s₁) ∧
        (handleLive g.gang o.xa s₁ = true → (∃ st, handleSlot g.gang o.xa s₁ = some (st, true)) →
          exec (.bankOperationStart cl) s = .next (doneOp cl 1 (some (Cause.overRead, o.xa)) s₁)) ∧
        (handleLive g.gang o.xa s₁ = true → handleSlot g.gang o.xa s₁ = some (.sealed, false) →
          let base := handleAddr g.gang o.xa s₁
          let s₂ := modRun cl (fun r => { r with tile := some base }) (acquireAt g .die s₁)
          ∀ xs s', xs.length = segs →
            Packed cl g p sd rev i o.xb (s₂.decodeOf g.gang g.rank) base 0 xs (setZ cl i ZVal.blank s₂) s' →
            exec (.bankOperationStart cl) s = .next (doneOp cl (max 1 ((packBytes p sd o.xb segs + 255) / 256)) none s'))) ∧
      (∀ x y, o.op = .wsta x y →
        let size := staSize (wbits o.xb 35 33)
        (∀ s', Stored cl g o (wbits o.xb 32 16) 0 s₀ s' → exec (.bankOperationStart cl) s =
          .next (doneOp cl (max 1 ((wbits o.xb 32 16 * size + 255) / 256)) none s')) ∧
        (∀ j s' c a u, j < wbits o.xb 32 16 → Stored cl g o j 0 s₀ s' →
          let i := (wbits o.xb 15 0 + j) % 65536
          bankWrite g o (o.xa + ofN (j * size)) size (staVal o.xb (accGet (s'.bankOf cl).acc i)) (wbits o.xb 35 33 == 5) s' =
            .bad c a u →
          exec (.bankOperationStart cl) s = .next (doneOp cl (max 1 ((j * size + 255) / 256)) (some (c, a))
            (if wbit o.xb 45 then modBank cl (fun b => { b with acc := FMap.del b.acc i }) u else u)))) ∧
      (∀ sd x i, o.op = .wunpk sd x i → ∀ s', Unpacked cl g o p sd i (b.z[i].nseg * p.k) 0 s₀ s' →
        exec (.bankOperationStart cl) s = .next (doneOp cl (max 1 ((b.z[i].nseg * p.k * 4 + 255) / 256)) none s')) ∧
      (∀ dir m n, o.op = .wrot dir n m →
        let nb := neighbours cl sh (recWord o.cfg 6) s₀
        let empty := fun (a : Bool) => if a then gangBank sh.gang nb.1 s = true ∧ (s.bankOf nb.1).bufA = none
          else gangBank sh.gang nb.2 s = true ∧ (s.bankOf nb.2).bufB = none
        (¬ empty (dirA dir) → ∃ t, exec (.bankOperationStart cl) s = .next t ∧
          OnBank cl s t { b with queue := os, run := some { r with stage := 1 } }) ∧
        (dir = .a → empty true → nb.1 ≠ cl → b.bufA = none → ∃ t, exec (.bankOperationStart cl) s = .next t ∧
          let at_ := s.clk + max 4 ((8 + 3 * b.z[m].nseg + 2047) / 2048)
          t.bankOf nb.1 = { s.bankOf nb.1 with bufA := some b.z[m], dueA := at_ } ∧
          t.bankOf cl = { b with queue := os, run := some { r with stage := 1, sentA := true, till := at_ } }) ∧
        (dir = .b → empty false → nb.2 ≠ cl → b.bufB = none → ∃ t, exec (.bankOperationStart cl) s = .next t ∧
          let at_ := s.clk + max 4 ((8 + 3 * b.z[n].nseg + 2047) / 2048)
          t.bankOf nb.2 = { s.bankOf nb.2 with bufB := some b.z[n], dueB := at_ } ∧
          t.bankOf cl = { b with queue := os, run := some { r with stage := 1, sentB := true, till := at_ } })))

/-- 12 R283, R285, R289; 15 R354. An operation whose occupancy has ended leaves the datapath and may complete 24 clk after
that; the oldest that may completes: BDONE takes its number and its registration completes. A failed one, once all before
it have completed, halts the bank with its cause, number, detail and progress and fails its registration. A rotation step
that waits goes on, in direction A, B or both, when a register has crossed to its buffer. The watchdog discards a bank that
completes nothing for 1,048,576 clk, and fails what of it was registered; that ACCOVF, BFDETAIL and BPROG stay is log 43
(DEDUCED). -/
def Obligations.BankOperationsComplete : Prop :=
  (∀ s cl t ts, (s.bankOf cl).run = none → (s.bankOf cl).tail = t :: ts → t.due ≤ s.clk →
    let s₁ := modBank cl (fun b => { b with
      tail := ts, bdone := t.op.seq, wd := if b.queue ≠ [] ∨ ts ≠ [] then some s.clk else none }) s
    (t.op.reg = none → exec (.bankOperationComplete cl) s = .next s₁) ∧
    (∀ x, t.op.reg = some x → exec (.bankOperationComplete cl) s = .next (tlComplete x s₁))) ∧
  (∀ s cl r, (s.bankOf cl).run = some r → r.stage = 2 → r.ends ≤ s.clk → r.fail = none →
    (∀ sd rev i a b, r.op.op ≠ .wldt sd rev i a b) → (s.bankOf cl).tail = [] →
    let left := modBank cl (fun b => { b with run := none, tail := [{ op := r.op, due := r.ends + 24 }] }) s
    (s.clk < r.ends + 24 → exec (.bankOperationComplete cl) s = .next left) ∧
    ((s.bankOf cl).queue = [] → exec (.bankOperationStart cl) s = .next left)) ∧
  (∀ s cl t ts, (s.bankOf cl).run = none → (s.bankOf cl).tail = t :: ts → s.clk < t.due →
    exec (.bankOperationComplete cl) s = .next s) ∧
  (∀ s cl sh r c d, (s.bankOf cl).tail = [] → s.bankShare? cl = some sh → (s.bankOf cl).run = some r →
    r.fail = some (c, d) → r.stage = 2 → r.ends ≤ s.clk →
    let s₁ := modBank cl (fun b => { b with
      run := none, halt := true, bfcause := c, bfseq := r.op.seq, bfdetail := d, bprog := r.prog, wd := none }) s
    (r.op.reg = none → exec (.bankOperationComplete cl) s = .next s₁) ∧
    (∀ x, r.op.reg = some x → exec (.bankOperationComplete cl) s = .next (tlFail x c s₁))) ∧
  (∀ s cl sh r dir m n, s.bankShare? cl = some sh → (s.bankOf cl).run = some r → r.stage = 1 →
    rotOf r.op.op = some (dir, m, n) → r.ends ≤ s.clk →
    let b := s.bankOf cl
    (∀ z, dir = .a → r.sentA = true → r.gotA = false → b.bufA = some z →
      (s.clk < b.dueA → ∃ t, exec (.rotationStepResume cl) s = .next t ∧ OnBank cl s t b) ∧
      (b.dueA ≤ s.clk → ∃ t, exec (.rotationStepResume cl) s = .next t ∧
        OnBank cl s t { b with
          z := b.z.set m z, bufA := none, run := some { r with gotA := true, stage := 2, ends := max s.clk r.till } })) ∧
    (∀ z, dir = .b → r.sentB = true → r.gotB = false → b.bufB = some z → b.dueB ≤ s.clk →
      ∃ t, exec (.rotationStepResume cl) s = .next t ∧
        OnBank cl s t { b with
          z := b.z.set n z, bufB := none, run := some { r with gotB := true, stage := 2, ends := max s.clk r.till } }) ∧
    (∀ y z, dir = .ab → r.sentA = true → r.sentB = true → r.gotA = false → r.gotB = false →
      b.bufA = some y → b.bufB = some z → b.dueA ≤ s.clk → b.dueB ≤ s.clk →
      ∃ t, exec (.rotationStepResume cl) s = .next t ∧
        OnBank cl s t { b with
          z := (b.z.set m y).set n z, bufA := none, bufB := none
          run := some { r with gotA := true, gotB := true, stage := 2, ends := max s.clk r.till } })) ∧
  (∀ s cl sh since o os, (s.bankOf cl).wd = some since → (s.bankOf cl).ops = o :: os → (s.bankOf cl).halt = false →
    since + 1048576 ≤ s.clk → s.bankShare? cl = some sh →
    exec (.bankWatchdogReset cl) s = .next ((o :: os).foldl
      (fun s x => match x.reg with
        | none => s
        | some y => tlFail y Cause.bankReset s)
      (dropMiss (.bank cl) (modBank cl (fun b => { b with
        z := Vector.replicate 16 { bits := 0, nseg := 0, tag := [], exp := [] }, acc := []
        cfg := Bank.launchCfg (unitPos sh s).1 (unitPos sh s).2, queue := [], run := none, tail := []
        bdone := b.bseq, halt := true, bfcause := Cause.bankReset, bfseq := o.seq, wd := none }) s))))

/-- 12 R275. Under STRICT, every coefficient that R279 extracts equals the exact sum it stands for, for every pair of
in-range elements: the guard plan's conditions are enough. -/
def Obligations.StrictExtractionIsExact : Prop :=
  ∀ (v : Word) (es fs : List Int) (za zb : ZVal) (i j ea eb m : Nat),
    let p := planOf v
    wgpBad v = none → p.lean = false → es.length = p.k → fs.length = p.k →
    (∀ e ∈ es, inSide p .a e) → (∀ f ∈ fs, inSide p .b f) →
    i < p.g → j < p.g → za.bits.toNat < 2 ^ (i * p.ks) → zb.bits.toNat < 2 ^ (j * p.ks) → m < 2 * p.k - 1 →
    extract p (p.sg == 1)
      ((za.putSeg p i es ea).seg p p.sa i * (zb.putSeg p j fs eb).seg p p.sb j) m = coefficient p.k es fs m

/-! ### Messages -/

/-- 03 R72, R73, R76, R84; 14 R320, R322, R329. MSEND checks its header and its registers, then its destination, performs a
release at `.pkg` and puts the message into its outbound queue. RPUT checks its selector and that it may reach the
context, performs a release at the scope that reaches it, and sends the value; that it is refused on these grounds and no
other is log 52. With a good header or selector, no pushed
element left and room in the queue, each completes. -/
def Obligations.SendersQueueTheirParcel : Prop :=
  (∀ p s a b, Clear (.msend a b) p s →
    let s₁ := atIssue (.msend a b) p s
    let h := getX p a s₁
    let bad := badHeader h = true ∨ p.engine.nregs < b.val + hCount h
    (bad → Traps (.msend a b) p s Cause.messageFormat h id) ∧
    (∀ c, ¬ bad → sendFault p h s₁ = some c → Traps (.msend a b) p s c h id) ∧
    (¬ bad → sendFault p h s₁ = none → SendsParcel (.msend a b) p s .pkg (destRank p h) fun s =>
      .msg { hdr := withSrc h (srcOf p s),
             pay := ((regRun p b (hCount h) s).take (hCount h)).map (fmtWord (hFmt h)) })) ∧
  (∀ p s a b, Clear (.rput a b) p s →
    let s₁ := atIssue (.rput a b) p s
    let t := getX p a s₁
    let own := wbit t 17 = false ∧ wbit t 16 = false
    let bad := wbits t 63 40 ≠ 0 ∨ wbits t 23 18 ≠ 0 ∨ s₁.nranks (s₁.thread p).gang ≤ wbits t 39 24 ∨
      (wbit t 16 = true ∧ (wbit t 17 = true ∨ wbits t 39 24 ≠ 0)) ∨
      (if wbit t 16 then 48 else 32) ≤ wbits t 12 7 ∨ (p.engine = .landing ∧ own)
    (bad → Traps (.rput a b) p s Cause.messageFormat t id) ∧
    (¬ bad → selDest p t s₁ = none → Traps (.rput a b) p s Cause.messageDest t id) ∧
    (∀ d, ¬ bad → selDest p t s₁ = some d →
      SendsParcel (.rput a b) p s
        (if p.cluster?.isSome ∧ p.cluster? = d.cluster? then .cl else if p.die = d.die then .die else .pkg)
        (fun _ => if wbit t 16 then none else (selShare p t s₁).map (·.rank))
        fun _ => .rput d (wbits t 4 0) (getX p b s₁))) ∧
  (∀ p s a b, Clear (.msend a b) p s →
    let s₁ := atIssue (.msend a b) p s
    let h := getX p a s₁
    let s₂ := releaseStores p .pkg true (pushAll p s₁)
    badHeader h = false → b.val + hCount h ≤ p.engine.nregs → sendFault p h s₁ = none →
    ((pushAll p s₁).thread p).pushing = false → (s₂.outq (outqOf p)).length < 8 →
    let pay := ((regRun p b (hCount h) s₂).take (hCount h)).map (fmtWord (hFmt h))
    ∃ u, exec (.msend a b) s = .next u ∧ Finished p s₁
      (post p (destRank p h s₂) (.msg { hdr := withSrc h (srcOf p s₂), pay := pay }) false s₂) u) ∧
  (∀ p s a b d, Clear (.rput a b) p s →
    let s₁ := atIssue (.rput a b) p s
    let t := getX p a s₁
    let s₂ := releaseStores p (rputScope p d) true (pushAll p s₁)
    selBad p t s₁ = false → selDest p t s₁ = some d →
    ((pushAll p s₁).thread p).pushing = false → (s₂.outq (outqOf p)).length < 8 →
    ∃ u, exec (.rput a b) s = .next u ∧ Finished p s₁
      (post p (if wbit t 16 then none else (selShare p t s₁).map (·.rank)) (.rput d (wbits t 4 0) (getX p b s₁))
        false s₂) u)

/-- 03 R85-R88; 14 R329. MREQ checks its control word, its address and its core, and its request enters the
outbound queue. MRET and WFM leave their context idle past the word; that MRET counts a GUARD range down and does not end it
is log 17. HSET writes an entry of the core's handler table. HMASK gives
the enable bits and replaces those it selects. QGET takes a value that is present in its receive register, clears the
register's bits and acquires at `.die`; QPEEK leaves it present; both wait while none is. -/
def Obligations.RequestHandlerAndReceiveWords : Prop :=
  ((∀ p s a b, Clear (.mreq a b) p s →
    let s₁ := atIssue (.mreq a b) p s
    let va := getX p a s₁
    let c := getX p b s₁
    let n := wbits c 18 16
    let bad := wbits c 63 27 ≠ 0 ∨ n = 0 ∨ 4 < wbits c 26 24 ∨ 14 ≤ wbits c 3 0
    let off := canonical va = false ∨ va.toNat % 8 ≠ 0 ∨ 128 < va.toNat % 128 + 8 * n
    (bad → Traps (.mreq a b) p s Cause.messageFormat c id) ∧
    (¬ bad → off → Traps (.mreq a b) p s Cause.access va id) ∧
    (¬ bad → ¬ off → (∀ sh, s₁.shareOf? p = some sh → sh.holdsCore (wbits c 23 19) = false) →
      Traps (.mreq a b) p s Cause.messageDest c id) ∧
    (∀ sh, ¬ bad → ¬ off → s₁.shareOf? p = some sh → sh.holdsCore (wbits c 23 19) = true →
      ((s₁.outq (outqOf p)).length < 8 → Completes (.mreq a b) p s fun s =>
        post p none (.mreq { n := s.reqCtr, place := p, gang := (s.thread p).gang, rank := (s.thread p).rank,
                             addr := va, ctl := c, user := !(s.thread p).mode }) false s) ∧
      (8 ≤ (s₁.outq (outqOf p)).length → Blocks (.mreq a b) p s .sending id))) ∧
  (∀ p s i, (i = .mret ∨ i = .wfm) → Clear i p s → CompletesAway i p s (idleAt p)) ∧
  (∀ p s a b k, p.core? = some k → Clear (.hset a b) p s →
    let s₁ := atIssue (.hset a b) p s
    let v := getX p a s₁
    let pc := getX p b s₁
    let bad := wbits v 63 7 ≠ 0 ∨ wbits v 3 0 = 15 ∨ pc.toNat % 4 ≠ 0
    let held := wbits v 3 0 = 14 ∧ (s₁.thread p).mode = false
    (bad → Traps (.hset a b) p s Cause.messageFormat v id) ∧
    (¬ bad → held → ∀ w, encode (.hset a b) = some w → Traps (.hset a b) p s Cause.privilege (w.setWidth 64) id) ∧
    (¬ bad → ¬ held → Completes (.hset a b) p s fun s => s.modCore k fun c =>
      { c with tab := c.tab.set (wbits v 3 0) { pc := pc, prio := wbits v 5 4, en := wbit v 6 } })) ∧
  (∀ p s d a b k, p.core? = some k → Clear (.hmask d a b) p s →
    let s₁ := atIssue (.hmask d a b) p s
    let sel := getX p a s₁
    let val := getX p b s₁
    let held := (sel.getLsbD 14 = true ∨ sel.getLsbD 15 = true) ∧ (s₁.thread p).mode = false
    (held → ∀ w, encode (.hmask d a b) = some w → Traps (.hmask d a b) p s Cause.privilege (w.setWidth 64) id) ∧
    (¬ held → CompletesWith (.hmask d a b) p s fun s t => ∃ old : Word,
      (∀ i, old.getLsbD i = (decide (i < 16) && (((s.core k).tab[i]?).map (·.en)).getD false)) ∧
      t = putX p d old (s.modCore k fun c => { c with tab := c.tab.mapIdx fun i e =>
        { e with en := decide (i < 16) && if sel.getLsbD i then val.getLsbD i else e.en } })))) ∧
  ((∀ p s d q, Clear (.qget d q) p s →
    (((atIssue (.qget d q) p s).thread p).qpres.getLsbD q = true → Completes (.qget d q) p s fun s =>
      acquire p .die (putX p d (s.thread p).q[q] (s.modThread p fun t =>
        { t with qpres := setBit t.qpres q false, qout := setBit t.qout q false, qgot := setBit t.qgot q false }))) ∧
    (((atIssue (.qget d q) p s).thread p).qpres.getLsbD q = false → Blocks (.qget d q) p s (.waiting 0 0) id)) ∧
  (∀ p s d q, Clear (.qpeek d q) p s →
    (((atIssue (.qpeek d q) p s).thread p).qpres.getLsbD q = true → Completes (.qpeek d q) p s fun s =>
      acquire p .die (putX p d (s.thread p).q[q] s)) ∧
    (((atIssue (.qpeek d q) p s).thread p).qpres.getLsbD q = false → Blocks (.qpeek d q) p s (.waiting 0 0) id)))

/-! ### Deques and barriers -/

/-- 14 R323, R324, R330. DQPUSH and DQPOP fault without a valid deque of their core. DQPUSH checks its task address,
performs a release, and says whether its entry went in at the bottom; DQPOP gives the entry at the bottom and acquires,
or 1 where the deque is empty; DQSTEAL checks its selector, sends its steal to the victim's unit, and gives what that
unit answers: the entry taken, with an acquire, or 1. -/
def Obligations.DequeWordsMoveEntries : Prop :=
  (∀ p s i sc d a b, (i = .dqpush sc d a b ∨ i = .dqpop d) → Clear i p s →
    (∀ sh c, ¬ OwnDeque p (atIssue i p s) sh c) → Traps i p s Cause.deque 3 id) ∧
  (∀ p s sc d a b sh c, Clear (.dqpush sc d a b) p s → OwnDeque p (atIssue (.dqpush sc d a b) p s) sh c →
    let i : Instr := .dqpush sc d a b
    let s₁ := atIssue i p s
    let pc := getX p a s₁
    let s₂ := releaseStores p sc true (pushAll p s₁)
    (pc.toNat % 4 ≠ 0 → Traps i p s Cause.deque 2 id) ∧
    (pc.toNat % 4 = 0 → ((pushAll p s₁).thread p).pushing = true → Blocks i p s (.waiting 0 0) (pushAll p)) ∧
    (pc.toNat % 4 = 0 → ((pushAll p s₁).thread p).pushing = false →
      let k := s₂.core (.scalar sh.cl c)
      (dequeCap sh k ≤ k.bot - k.top → Completes i p s fun _ => putX p d 0 s₂) ∧
      (k.bot - k.top < dequeCap sh k → Completes i p s fun _ =>
        let o := sh.spadBase + k.dqBase.toNat + 16 * (k.bot % dequeCap sh k)
        let s₃ := settleSpad sh.cl o 16 (some sh.cl) s₂
        putX p d 1 ((spadWrite sh.cl (o + 8) 8 (getX p b s₁).toNat (spadWrite sh.cl o 8 pc.toNat s₃)).modCore
          (.scalar sh.cl c) fun k => { k with bot := k.bot + 1 })))) ∧
  (∀ p s d sh c, Clear (.dqpop d) p s → OwnDeque p (atIssue (.dqpop d) p s) sh c →
    let s₁ := atIssue (.dqpop d) p s
    let k := s₁.core (.scalar sh.cl c)
    (k.bot ≤ k.top → Completes (.dqpop d) p s (putPair p d 1 0)) ∧
    (k.top < k.bot → Completes (.dqpop d) p s fun s =>
      let r := readEntry sh k (k.bot - 1) s
      putPair p d r.1.1 r.1.2 (acquire p .cl (r.2.modCore (.scalar sh.cl c) fun k => { k with bot := k.bot - 1 })))) ∧
  (∀ p s d a, Clear (.dqsteal d a) p s →
    let s₁ := atIssue (.dqsteal d a) p s
    let t := getX p a s₁
    let n := wbits t 12 7
    (stealBad p t s₁ = true → Traps (.dqsteal d a) p s Cause.deque 1 id) ∧
    (∀ sh, stealBad p t s₁ = false → selShare p t s₁ = some sh →
      (s₁.live sh = false → Blocks (.dqsteal d a) p s (.waiting 0 0) id) ∧
      (s₁.live sh = true → Blocks (.dqsteal d a) p s (.waiting 2 0) fun s =>
        s.modCluster sh.cl fun c =>
          { c with steals := c.steals ++ [{ thief := p, cl := sh.cl, core := n, clk := s.clk }] }))) ∧
  (∀ p s d a v w, p.engine ≠ .lane → Looks (.dqsteal d a) (.answered true v w) p s →
    CompletesLater (.dqsteal d a) p s fun s => putPair p d v w (acquire p .die s)) ∧
  (∀ p s d a v w, p.engine ≠ .lane → Looks (.dqsteal d a) (.answered false v w) p s →
    CompletesLater (.dqsteal d a) p s (putPair p d 1 0))

/-- 14 R326-R328, R331. A barrier word checks its selector. BARA and BAR perform a release and their arrival, for the phase
that stands or the next; an arrival with another quota faults, and one that can count for neither waits. BARA gives its
phase; BAR waits for it and then gives it, and acquires; BARW waits for the phase that xb names, and acquires. A phase is
complete when every member share has all its arrivals, and no earlier; an arrival counts for the phase that stands, else
for the next, and for neither while both have all theirs. The members of a die see a completed phase together,
the die that completed it at once and the others from the clk after it. -/
def Obligations.BarriersArriveWaitAndComplete : Prop :=
  ((∀ p s sc i d a b e, (i = .bar sc d a ∨ i = .bara sc d a ∨ i = .barw sc a b) → Clear i p s →
    barSel p (getX p a (atIssue i p s)) (atIssue i p s) = .error e → Traps i p s Cause.barrier (ofN e) id) ∧
  (∀ p s sc i d a sh b, (i = .bar sc d a ∨ i = .bara sc d a) → Clear i p s →
    let s₁ := atIssue i p s
    let q := barQuota (getX p a s₁)
    barSel p (getX p a s₁) s₁ = .ok (sh, b) →
    ((barOf sh b).arrival q = .quota → Traps i p s Cause.barrier 3 id) ∧
    ((barOf sh b).arrival q ≠ .quota → ((pushAll p s₁).thread p).pushing = true →
      Blocks i p s (.waiting 0 0) (pushAll p)) ∧
    ((barOf sh b).arrival q = .later → ((pushAll p s₁).thread p).pushing = false →
      Blocks i p s (.waiting 0 0) fun _ => releaseStores p sc true (pushAll p s₁)) ∧
    (∀ next ph, (barOf sh b).arrival q = (if next then .next else .this) →
      ph = (barOf sh b).c + (if next then 1 else 0) → ((pushAll p s₁).thread p).pushing = false →
      let s₂ := countArrival sh b q next (releaseStores p sc true (pushAll p s₁))
      (i = .bara sc d a → Completes i p s fun _ => putX p d (ofN ph) s₂) ∧
      (i = .bar sc d a → ∀ sh' b', barSel p (getX p a s₁) s₂ = .ok (sh', b') →
        (ph < (barOf sh' b').c → Completes i p s fun _ => putX p d (ofN ph) (acquire p sc s₂)) ∧
        ((barOf sh' b').c ≤ ph → Blocks i p s (.waiting 1 ph) fun _ => s₂)))) ∧
  (∀ p s sc a b sh n, Clear (.barw sc a b) p s →
    let s₁ := atIssue (.barw sc a b) p s
    let ph := (getX p b s₁).toNat
    barSel p (getX p a s₁) s₁ = .ok (sh, n) →
    (ph < (barOf sh n).c → Completes (.barw sc a b) p s (acquire p sc)) ∧
    ((barOf sh n).c ≤ ph → Blocks (.barw sc a b) p s (.waiting 0 ph) id)) ∧
  (∀ p s sc d a ph sh b, p.engine ≠ .lane → Looks (.bar sc d a) (.waiting 1 ph) p s →
    barSel p (getX p a s) s = .ok (sh, b) → ph < (barOf sh b).c →
    CompletesLater (.bar sc d a) p s fun s => putX p d (ofN ph) (acquire p sc s))) ∧
  ((∀ (s : State) g b ph, phaseFull g b ph s = true ↔
    ∀ sh ∈ s.sharesOf g, barMember sh b s = true →
      ph < (barOf sh b).c ∨ (ph = (barOf sh b).c ∧ (barOf sh b).quota0 ≠ 0 ∧ (barOf sh b).quota0 = (barOf sh b).got0) ∨
        (ph = (barOf sh b).c + 1 ∧ (barOf sh b).quota1 ≠ 0 ∧ (barOf sh b).quota1 = (barOf sh b).got1)) ∧
  (∀ (x : BarShare) q, 0 < q → x.got0 ≤ x.quota0 → x.got1 ≤ x.quota1 →
    (x.arrival q = .this ↔ x.quota0 = 0 ∨ (x.got0 < x.quota0 ∧ x.quota0 = q)) ∧
    (x.arrival q = .next ↔ x.quota0 ≠ 0 ∧ x.got0 = x.quota0 ∧ (x.quota1 = 0 ∨ (x.got1 < x.quota1 ∧ x.quota1 = q))) ∧
    (x.arrival q = .later ↔ x.quota0 ≠ 0 ∧ x.got0 = x.quota0 ∧ x.quota1 ≠ 0 ∧ x.got1 = x.quota1)) ∧
  (∀ (s : State) g (b : Fin 16) (die : Fin 4) sh ph,
    let onDie := fun (sh : Share) => sh ∈ s.sharesOf g ∧ barMember sh b.val s = true ∧ sh.cl / 48 = die.val
    onDie sh → (barOf sh b.val).c = ph → (∀ x, onDie x → ph ≤ (barOf x b.val).c) →
    let before := ∃ x ∈ s.sharesOf g, barMember x b.val s = true ∧ s.clk ≤ (barOf x b.val).last ph
    ((phaseFull g b.val ph s = false ∨ before) → exec (.barrierPhasePropagate g b die) s = .next s) ∧
    (phaseFull g b.val ph s = true → ¬ before →
      exec (.barrierPhasePropagate g b die) s = .next (seePhase g b.val die.val ph s))) ∧
  (∀ (s : State) g (b : Fin 16) (die : Fin 4),
    (∀ x ∈ s.sharesOf g, barMember x b.val s = true → x.cl / 48 ≠ die.val) →
    exec (.barrierPhasePropagate g b die) s = .next s) ∧
  (∀ (sh : Share) b q next (s : State), phaseFull sh.gang b ((barOf sh b).c + if next then 1 else 0)
      (s.modShare sh.gang sh.rank fun sh => { sh with bars := sh.bars.modify b fun x =>
        if next then { x with quota1 := q, got1 := x.got1 + 1, last1 := s.clk }
        else { x with quota0 := q, got0 := x.got0 + 1, last0 := s.clk } }) = false →
    countArrival sh b q next s =
      s.modShare sh.gang sh.rank fun sh => { sh with bars := sh.bars.modify b fun x =>
        if next then { x with quota1 := q, got1 := x.got1 + 1, last1 := s.clk }
        else { x with quota0 := q, got0 := x.got0 + 1, last0 := s.clk } }))

/-! ### Wave words, the gatherer, system words -/

/-- 07 R171-R181. On a scalar core a wave word runs as in a wave of one lane, lane 0: VSHFL finds its source only at lane 0;
a reduction of one value with the identities is that value, an exclusive scan gives the identity, and a float reduction
runs through the same tree; VBALL and VELECT give lane 0's bit and number; VQUANT shares an exponent among the lane's own
values; VDEQ scales an integer; VENC gives the low bits of xa. -/
def Obligations.WaveWordsOfOneLane : Prop :=
  (∀ p s m keep k d a b, Clear (.vshfl m keep false k d a b) p s → p.engine = .scalar →
    FReady (.vshfl m keep false k d a b) p s [] [] →
    Completes (.vshfl m keep false k d a b) p s fun s =>
      let hit := if m = .xor then decide (wbits (getX p b s) 5 0 = 0) else decide (getX p b s = 0)
      let s' := putX p d (if hit = true ∨ keep = true then getX p a s else 0) s
      if k.val = 0 then s' else putP p k.val hit s') ∧
  (∀ p s m keep k d a b, Clear (.vshfl m keep true k d a b) p s → p.engine = .scalar →
    FReady (.vshfl m keep true k d a b) p s [a] [d] →
    Completes (.vshfl m keep true k d a b) p s fun s =>
      let v := (s.thread p).fval a
      let hit := if m = .xor then decide (wbits (getX p b s) 5 0 = 0) else decide (getX p b s = 0)
      let s' := putF p 4 d (if hit = true ∨ keep = true then v else 0) (popAll p [a] (readF p [a] s))
      if k.val = 0 then s' else putP p k.val hit s') ∧
  (∀ p s op d a, Clear (.vred op d a) p s → p.engine = .scalar → op.float = false → FReady (.vred op d a) p s [] [] →
    Completes (.vred op d a) p s fun s => putX p d (getX p a s) s) ∧
  (∀ p s op ex d a, Clear (.vscan op ex d a) p s → p.engine = .scalar → op.float = false →
    FReady (.vscan op ex d a) p s [] [] →
    Completes (.vscan op ex d a) p s fun s => putX p d (if ex then ofN (redIdent op) else getX p a s) s) ∧
  (∀ p s i op ex d a, (i = .vred op d a ∧ ex = false ∨ i = .vscan op ex d a) → Clear i p s → p.engine = .scalar →
    op.float = true → FReady i p s [a] [d] →
    Completes i p s fun s =>
      let t := s.thread p
      let leaf := fun j => if j = 0 ∧ ex = false then dazBits fp32 t.daz (t.fval a).toNat else redIdent op
      let r := reduce (redCombine op t.ftz) t.ver1 ((List.range 64).map leaf)
      orFlags p r.2 (putF p 8 d (BitVec.ofNat 32 r.1) (popAll p [a] (readF p [a] s)))) ∧
  (∀ p s d n, Clear (.vball d n) p s → p.engine = .scalar →
    Completes (.vball d n) p s fun s => putX p d (asWord (getP p n s)) s) ∧
  (∀ p s d n, Clear (.velect d n) p s → p.engine = .scalar →
    Completes (.velect d n) p s fun s => putP p n.val true (putX p d 0 s)) ∧
  (∀ p s d a b k, Clear (.vquant d a b k) p s → p.engine = .scalar →
    let m := max 1 (2 ^ (k.val + 3) / 64)
    FReady (.vquant d a b k) p s (quantRegs p a m) [] →
    Completes (.vquant d a b k) p s fun s =>
      let t := s.thread p
      let w := wbits (t.getX b) 3 0 + 1
      let sg := wbit (t.getX b) 4 && decide (1 < w)
      let vs := quantVals p t a m
      let e := quantExp sg vs
      let rs := vs.map fun v =>
        if e = 0 then (0, if (unpack fp32 false v).isNan then 16 else 0) else quantElem w sg t.ver1 e v
      let x := if m = 1 then ofI ((rs.headD (0, 0)).1)
        else ofN ((rs.mapIdx fun i r => lowBits r.1 16 * 2 ^ (16 * i)).foldl (· + ·) 0)
      orFlags p (rs.foldl (fun fl r => Nat.lor fl r.2) 0) (putPair p d x (ofN e)
        (popAll p (quantRegs p a m) (readF p (quantRegs p a m) s)))) ∧
  (∀ p s d a b, Clear (.vdeq d a b) p s → p.engine = .scalar → FReady (.vdeq d a b) p s [] [d] →
    Completes (.vdeq d a b) p s fun s =>
      let v := (getX p a s).toInt
      let r := if v = 0 then (0, 0)
        else roundFmt fp32 .rne (s.thread p).ftz (decide (v < 0)) v.natAbs (((getX p b s).setWidth 9).toInt) false
      orFlags p r.2 (putF p 6 d (BitVec.ofNat 32 r.1) s)) ∧
  (∀ p s d a w, Clear (.venc d a w) p s → p.engine = .scalar →
    Completes (.venc d a w) p s fun s => putX p d (getX p a s &&& (BitVec.allOnes 64 >>> (63 - w.val))) s)

/-- 07 R162-R165, R172-R178, R180. At a wave's turn a word of any class but BANK runs, in ascending order, in every lane
that stands at the wave's pc, each lane by the same meaning that a context gives it. The cross-lane words give every
active lane of a wave: VSHFL, register a of the source lane, active or not, or its fill; VRED and VSCAN, the reduction of
the active lanes' values with the identity for the others, in the order that the lowest active lane's VER fixes, a sum of
64-bit values being their sum in either; VBALL, the active lanes' predicates; VELECT, the lowest active lane; VQUANT, its
values' elements under its block's exponent; VENC, its word of the packed fields. They read the lanes before any writes.
What a reduction combines for FMIN and FMAX with the identity is log 91. -/
def Obligations.WaveTurnRunsEveryLane : Prop :=
  (∀ i w, encode i = some w → w.toNat / 2 ^ 27 ≠ 25 →
    ∃ body : Body,
      (∀ s p, Issues s p → ∃ c k, p = c.place k ∧ exec i s = .next (issueCtx i body p c k s)) ∧
      (∀ s cl e sl b, s.turn = .issue (.wave cl e sl) b → s.standing (.wave cl e sl) ≠ [] →
        exec i s = .next (issueWave i (runLanes i body) cl e sl s))) ∧
  (∀ m keep fp k d a b, CompletesInWave (.vshfl m keep fp k d a b) fun _ pre p s =>
    let i : Int := p.laneNum
    let t := getX p b pre
    let j : Int := match m with
      | .idx => t.toNat
      | .up => i - t.toNat
      | .down => i + t.toNat
      | .xor => Nat.xor p.laneNum (t.toNat % 64)
    let reg := fun (q : Place) =>
      let t := (pre.thread q).land pre.clk
      if fp then (t.getF a).setWidth 64 else t.getX a
    let source := (pre.presentWith p).find? fun q => decide (j = (q.laneNum : Int))
    let v := match source with
      | some q => reg q
      | none => if keep then reg p else 0
    let s := if fp then setFReg p 4 d (v.setWidth 32) s else setX p 4 d v s
    if k.val = 0 then s else setPred p 4 k.val source.isSome s) ∧
  (∀ op ex i d a, (i = .vred op d a ∨ i = .vscan op ex d a) → CompletesInWave i fun act pre p s =>
    let use := fun j => i = .vred op d a ∨ j < p.laneNum ∨ (ex = false ∧ j = p.laneNum)
    let lead := pre.thread (act.headD p)
    let leaf := fun j => if use j then laneOr act j (redIdent op) fun q =>
        if op.float then dazBits fp32 lead.daz ((pre.thread q).getF a).toNat else (getX q a pre).toNat
      else redIdent op
    let r := reduce (redCombine op lead.ftz) lead.ver1 ((List.range 64).map leaf)
    if op.float then orFlags p r.2 (setFReg p 8 d (BitVec.ofNat 32 r.1) s) else setX p 8 d (ofN r.1) s) ∧
  (∀ ftz ver1 l, l.length = 64 → (∀ x ∈ l, x < 2 ^ 64) →
    reduce (redCombine .add ftz) ver1 l = (l.sum % 2 ^ 64, 0)) ∧
  (∀ d n, CompletesInWave (.vball d n) fun act pre p s =>
    setX p 4 d (ofN ((act.map fun q => if getP q n pre then 2 ^ q.laneNum else 0).sum)) s) ∧
  (∀ d n, CompletesInWave (.velect d n) fun act _ p s =>
    let e := (act.headD p).laneNum
    setPred p 4 n.val (p.laneNum == e) (setX p 4 d (ofN e) s)) ∧
  (∀ d a b k, CompletesInWave (.vquant d a b k) fun act pre p s =>
    let blk := 2 ^ (k.val + 3)
    let m := max 1 (blk / 64)
    let par := getX (act.headD p) b pre
    let w := wbits par 3 0 + 1
    let sg := wbit par 4 && decide (1 < w)
    let block := act.filter fun q => decide (q.laneNum / blk = p.laneNum / blk)
    let e := quantExp sg (block.flatMap fun q => quantVals q (pre.thread q) a m)
    let rs := (quantVals p (pre.thread p) a m).map fun v =>
      if e = 0 then (0, if (unpack fp32 false v).isNan then 16 else 0)
      else quantElem w sg (pre.thread p).ver1 e v
    let x := if m = 1 then ofI ((rs.headD (0, 0)).1)
      else ofN ((rs.mapIdx fun i r => lowBits r.1 16 * 2 ^ (16 * i)).foldl (· + ·) 0)
    orFlags p (rs.foldl (fun fl r => Nat.lor fl r.2) 0) (setXNext p 8 d (ofN e) (setX p 8 d x s))) ∧
  (∀ d a w, CompletesInWave (.venc d a w) fun act pre p s =>
    let n := w.val + 1
    let packed := (act.map fun q => (getX q a pre).toNat % 2 ^ n * 2 ^ (q.laneNum * n)).sum
    setX p 6 d (ofN (packed / 2 ^ (64 * p.laneNum))) s)

/-- 02 R55, R56, R58-R61; 07 R165. A word of a lane writes its result at once as a paced write: until its latency has
passed every read gives the register's value before it, and from then on the new value. Where CHKSB is 1, a lane that reads a
register before the latency of a paced write to it has passed in any lane takes the pacing trap, with the register's file and
number; elsewhere it reads the old value. CHKSB is written for the wave by its first lane. GUARD sets a range of the n words
after it with the condition p = neg false. PACE sets the stalls of the words after it in a wave, has no effect on a scalar or
landing core, and a wave may issue only when its stall has passed; a word that is guarded off in every lane takes its stall
too. That a younger paced write held behind an older one is read early is log 90. -/
def Obligations.GuardPaceAndPacedResults : Prop :=
  ((∀ (s : State) p (d : Reg) v lat clk, p.engine = .lane → (s.thread p).pend = [] → 0 < lat → d ≠ 0 →
    let t := (setX p lat d v s).thread p
    (clk < s.clk + lat → (t.land clk).getX d = (s.thread p).getX d) ∧
    (s.clk + lat ≤ clk → (t.land clk).getX d = v) ∧ t.landAll.getX d = v ∧
    (∀ r, r ≠ d → (t.land clk).getX r = (s.thread p).getX r)) ∧
  (∀ i w, encode i = some w → w.toNat / 2 ^ 27 ≠ 25 → ∀ cl e sl act s pre p r, WaveTurn i cl e sl act s pre → p ∈ act →
    earlyRead i act p pre = some r → (pre.tvecOf p).toNat % 4 = 0 →
    ∃ t, exec i s = .next t ∧ (t.thread p).cause = ofN Cause.pacing ∧
      (t.thread p).eval = ofN ((match r.1 with | .x => 0 | .f => 1 | .p => 2) * 256 + r.2) ∧
      (t.thread p).epc = (pre.thread p).pc ∧ (t.thread p).pc = pre.tvecOf p ∧ (t.thread p).mode = true) ∧
  (∀ i cl e sl ln act (s : State) w, (∀ m keep fp k d a b, i ≠ .vshfl m keep fp k d a b) → s.wave? cl e sl = some w →
    .lane cl e sl ln ∈ act →
    ((earlyRead i act (.lane cl e sl ln) s).isSome = true ↔ w.chksb = true ∧ ∃ q ∈ act, ∃ r ∈ readRegs i q s,
      ∃ y ∈ s.lanes cl e sl, ∃ x ∈ (s.thread y).pend, (x.file, x.reg) = r ∧ s.clk < x.due ∧
        (s.thread y).busyOn s.clk [r] = false)) ∧
  (∀ (s : State) p first v, (∀ cl e sl ln, p ≠ .lane cl e sl ln) → sysPut p first .chksb v s = s) ∧
  (∀ (s : State) cl e sl ln v, sysPut (.lane cl e sl ln) false .chksb v s = s ∧
    ∀ w, s.wave? cl e sl = some w →
      (sysPut (.lane cl e sl ln) true .chksb v s).wave? cl e sl = some { w with chksb := v.getLsbD 0 })) ∧
  ((∀ p s c neg n, Clear (.guard c neg n) p s → ∃ t, exec (.guard c neg n) s = .next t ∧
    Finished p (atIssue (.guard c neg n) p s) ((atIssue (.guard c neg n) p s).modThread p fun t =>
      { t with gcnd := t.getP c != neg, grem := n.val + 1 }) t ∧ (t.thread p).grem = n.val + 1) ∧
  (∀ p s s0 s1 s2 s3 s4 s5 s6 s7, Clear (.pace s0 s1 s2 s3 s4 s5 s6 s7) p s →
    Completes (.pace s0 s1 s2 s3 s4 s5 s6 s7) p s id) ∧
  (∀ (s0 s1 s2 s3 s4 s5 s6 s7 : Fin 8) cl e sl act s pre,
    let i : Instr := .pace s0 s1 s2 s3 s4 s5 s6 s7
    WaveRuns i cl e sl act s pre →
    ∃ t, exec i s = .next t ∧
      (∀ p ∈ act, (t.thread p).arch = (pre.thread p).arch ∧ (t.thread p).pc = (pre.thread p).pc + 4 ∧
        (t.thread p).pace = [s0, s1, s2, s3, s4, s5, s6, s7].map (·.val)) ∧
      (t.cluster cl).engNext = (pre.cluster cl).engNext ∧
      (∀ w, pre.wave? cl e sl = some w → ∃ w', t.wave? cl e sl = some w' ∧ w'.lastClk = w.lastClk)) ∧
  (∀ (s : State) cl e sl w p ls x q, canIssue s (.wave cl e sl) = true → s.wave? cl e sl = some w →
    s.standing (.wave cl e sl) = p :: ls → s.nextWord (.wave cl e sl) p (s.thread p).pc = .word x →
    isPace (instrOf x) = false → q ∈ p :: ls → w.lastClk + 1 + (s.thread q).pace.headD 0 ≤ s.clk) ∧
  (∀ i w, encode i = some w → w.toNat / 2 ^ 27 ≠ 25 → isControl i = false → ∀ (s : State) cl e sl b,
    let u := landWave cl e sl s
    s.turn = .issue (.wave cl e sl) b → s.standing (.wave cl e sl) ≠ [] →
    (∀ p ∈ u.standing (.wave cl e sl), (u.thread p).off = true) →
    ∃ t, exec i s = .next t ∧ ∀ p ∈ u.standing (.wave cl e sl),
      (t.thread p).arch = (u.thread p).arch ∧ (t.thread p).pc = (u.thread p).pc + 4 ∧
      (t.thread p).grem = (u.thread p).grem - 1 ∧ (t.thread p).pace = (u.thread p).pace.tail))

/-- 08 R182, R183, R195. MBPOST checks its address, its receive register and its gang, performs a release at `.cl`, and
completes once its request has entered a bucket, with the register outstanding. MBWAIT takes the reply and acquires. GFLUSH ends the
open buckets of its gang, or those of one address. MGPT has no effect. -/
def Obligations.MailboxWordsPostAndWait : Prop :=
  (∀ p s d a b, Clear (.mbpost d a b) p s →
    let i : Instr := .mbpost d a b
    let s₁ := atIssue i p s
    let t := s₁.thread p
    let pc := getX p a s₁
    let s₂ := releaseStores p .cl true (pushAll p s₁)
    let cl := p.cluster?.getD 0
    let off := pc.toNat % 4 ≠ 0 ∨ canonical pc = false
    let busy := t.qpres.getLsbD d = true ∨ t.qout.getLsbD d = true
    (off → Traps i p s Cause.access pc id) ∧
    (¬ off → b.val = 31 → Traps i p s Cause.mailbox 3 id) ∧
    (¬ off → b.val ≠ 31 → (gangDesc t.gang s₁).1 = 0 → Traps i p s Cause.mailbox 2 id) ∧
    (¬ off → b.val ≠ 31 → (gangDesc t.gang s₁).1 ≠ 0 → busy → Traps i p s Cause.mailbox 1 id) ∧
    (¬ off → ∀ hb : b.val + 1 < 32, (gangDesc t.gang s₁).1 ≠ 0 → ¬ busy →
      (((pushAll p s₁).thread p).pushing = true → Blocks i p s (.waiting 0 0) (pushAll p)) ∧
      (((pushAll p s₁).thread p).pushing = false →
        let t := s₂.thread p
        let r : Reply := { core := p.coreNum, ctx := p.ctxNum, idx := d.val }
        let q : Post :=
          { gang := t.gang, rank := t.rank, migr := false, pc := pc, queued := false,
            entry := { place := p, n := s₂.reqCtr, thread := { Thread.blank with
              gang := t.gang, rank := t.rank, x := (Thread.blank.x.set 2 (t.getX b)).set 3 (t.getX ⟨b.val + 1, hb⟩),
              pc := pc, run := .running, fmode := t.fmode, nbv := t.nbv, reply := some r } } }
        (s₂.split = true → Blocks i p s (.posting 0) fun _ =>
          s₂.modCluster cl fun c => { c with posts := c.posts ++ [q] }) ∧
        (∀ s₃, s₂.split = false → enterBucket cl q s₂ = some s₃ → Completes i p s fun _ =>
          s₃.modThread p fun t => { t with qout := setBit t.qout d.val true, qgot := setBit t.qgot d.val false }) ∧
        (s₂.split = false → enterBucket cl q s₂ = none → Blocks i p s (.posting 0) fun _ =>
          s₂.modCluster cl fun c => { c with posts := c.posts ++ [{ q with queued := true }] })))) ∧
  (∀ p s d a b, Looks (.mbpost d a b) (.posting 1) p s → CompletesLater (.mbpost d a b) p s id) ∧
  (∀ p s d q, Clear (.mbwait d q) p s →
    let t := (atIssue (.mbwait d q) p s).thread p
    (t.qpres.getLsbD q = true → Completes (.mbwait d q) p s fun s =>
      acquire p .cl (putX p d (s.thread p).q[q] (s.modThread p fun t =>
        { t with qpres := setBit t.qpres q false, qout := setBit t.qout q false, qgot := setBit t.qgot q false }))) ∧
    (t.qpres.getLsbD q = false → t.qout.getLsbD q = false → Traps (.mbwait d q) p s Cause.mailbox 4 id) ∧
    (t.qpres.getLsbD q = false → t.qout.getLsbD q = true → Blocks (.mbwait d q) p s (.waiting 0 0) id)) ∧
  (∀ p s a, Clear (.gflush a) p s → Completes (.gflush a) p s fun s =>
    (expireBuckets (p.cluster?.getD 0) s).modCluster (p.cluster?.getD 0) fun c =>
      { c with buckets := c.buckets.map fun b =>
          if b.st = .opened ∧ b.gang = (s.thread p).gang ∧ (a = 0 ∨ b.pc = (s.thread p).getX a)
          then { b with tmo := min b.tmo (s.clk - b.t0) } else b }) ∧
  (∀ p s, Clear .mgpt p s → Completes .mgpt p s id)

/-- 08 R189-R195. MIGR of a scalar thread ends any GUARD range, checks its address, its mode, the word at its target, its
streams, its receive registers and its gang; it writes the migration record that MGREC names, if one, and leaves with the
thread's state for a bucket of the gatherer, and its context is idle. That its stores are performed as it leaves is log
13. MIGR of the one lane at its wave's pc puts the lane into *migrating*. A migrating lane is placed on an idle context of
its share with its x0-x23, f0-f23 and predicates, its modes and its reply target, and with x24-x31 and f24-f31 from the
record that MGREC names where the record is valid, else 0; where no context is idle it stays. -/
def Obligations.MigrLeavesForTheGatherer : Prop :=
  (∀ p s a, Clear (.migr a) p s → p.engine = .scalar →
    let i : Instr := .migr a
    let s₁ := (atIssue i p s).modThread p fun t => { t with grem := 0, gcnd := false }
    let pc := getX p a (atIssue i p s)
    let off := pc.toNat % 4 ≠ 0 ∨ canonical pc = false
    (off → Traps i p s Cause.access pc fun _ => s₁) ∧
    (¬ off → (s₁.thread p).mode = true → Traps i p s Cause.migrState 1 fun _ => s₁) ∧
    (∀ s₂ c, ¬ off → (s₁.thread p).mode = false → fetchLine p pc s₁ = (.bad c, s₂) → Traps i p s c pc fun _ => s₂) ∧
    (∀ s₂ l, ¬ off → (s₁.thread p).mode = false → fetchLine p pc s₁ = (.line l, s₂) → lineWord l pc ≠ 0xE8000005 →
      Traps i p s Cause.migrTarget pc fun _ => s₂) ∧
    (∀ s₂ l, ¬ off → (s₁.thread p).mode = false → fetchLine p pc s₁ = (.line l, s₂) → lineWord l pc = 0xE8000005 →
      let s₃ := (forceLoads p s₂).modThread p (·.landAll)
      let t := s₃.thread p
      let bound := t.strm.any (·.isSome)
      (bound = true → Traps i p s Cause.migrState 2 fun _ => s₃) ∧
      (bound = false → t.qpres ≠ 0 → Traps i p s Cause.migrState 3 fun _ => s₃) ∧
      (bound = false → t.qpres = 0 → t.qout ≠ 0 → Traps i p s Cause.migrState 4 fun _ => s₃) ∧
      (bound = false → t.qpres = 0 → t.qout = 0 → (gangDesc t.gang s₃).1 = 0 →
        Traps i p s Cause.migrState 5 fun _ => s₃) ∧
      (bound = false → t.qpres = 0 → t.qout = 0 → (gangDesc t.gang s₃).1 ≠ 0 → t.mgrec.toNat % 128 ≠ 0 →
        Traps i p s Cause.access t.mgrec fun _ => s₃) ∧
      (∀ v, bound = false → t.qpres = 0 → t.qout = 0 → (gangDesc t.gang s₃).1 ≠ 0 → t.mgrec.toNat % 128 = 0 →
        (if t.mgrec = 0 then v = s₃ else StoresAll p (recordWords t) t.mgrec s₃ v) →
        let s₄ := settleStores p v
        let u := s₄.thread p
        let q : Post := { gang := u.gang, rank := u.rank, migr := true, pc := pc, queued := false,
                          entry := { place := p, n := s₄.reqCtr, thread := migrantLane u pc } }
        (s₄.split = true → Blocks i p s (.posting 0) fun _ =>
          s₄.modCluster (p.cluster?.getD 0) fun c => { c with posts := c.posts ++ [q] }) ∧
        (∀ s₅, s₄.split = false → enterBucket (p.cluster?.getD 0) q s₄ = some s₅ →
          CompletesAway i p s fun _ => s₅.modThread p fun t =>
            { t with run := .idle, reply := none, fetch := [], grem := 0, gcnd := false })))) ∧
  (∀ t : Thread, recordWords t =
    (List.finRange 8).map (fun i => t.getX ⟨24 + i.val, by omega⟩) ++
    (List.finRange 4).map (fun i => (t.getF ⟨25 + 2 * i.val, by omega⟩ ++ t.getF ⟨24 + 2 * i.val, by omega⟩ : Word)) ++
    [1, 0, 0, 0]) ∧
  (∀ cl e sl p s pre a s₂ l, WaveRuns (.migr a) cl e sl [p] s pre → (landWave cl e sl s).standing (.wave cl e sl) = [p] →
    let pc := getX p a pre
    let s₁ := pre.modThread p fun t => { t with grem := 0, gcnd := false }
    pc.toNat % 4 = 0 → canonical pc = true → (s₁.thread p).mode = false → fetchLine p pc s₁ = (.line l, s₂) →
    lineWord l pc = 0xE8000005 →
    let s₃ := (forceLoads p s₂).modThread p (·.landAll)
    (gangDesc (s₃.thread p).gang s₃).2 ≠ 0 → (s₃.thread p).mgrec.toNat % 128 = 0 →
    ∃ t, exec (.migr a) s = .next t ∧ (t.thread p).arch = (s₃.thread p).arch ∧
      (t.thread p).run = .wait (.migr a) (.migrating (s₃.cluster cl).migOrder) ∧ (t.thread p).grem = 0 ∧
      (t.cluster cl).migOrder = (s₃.cluster cl).migOrder + 1) ∧
  (∀ s cl n p a sh q ws u, migrants cl s = [(n, p, a)] → s.shareOf? p = some sh → s.live sh = true →
    idleContext sh s = some q → takeRecord p (s.thread p).mgrec s = (.got ws, u) →
    let old := s.thread p
    ∃ t, exec (.migrationPlacement cl) s = .next t ∧ t.thread? p = none ∧
      (∀ r : Reg, r.val < 24 → (t.thread q).getX r = old.getX r ∧ (t.thread q).getF r = old.getF r) ∧
      (∀ r : Reg, 24 ≤ r.val → (t.thread q).getX r = (ws[r.val - 24]?).getD 0 ∧
        (t.thread q).getF r = (((ws[8 + (r.val - 24) / 2]?).getD 0) >>> (32 * (r.val % 2))).setWidth 32) ∧
      (t.thread q).p = old.p ∧ (t.thread q).pc = old.getX a ∧ (t.thread q).run = .running ∧
      (t.thread q).gang = old.gang ∧ (t.thread q).rank = old.rank ∧ (t.thread q).fmode = old.fmode ∧
      (t.thread q).fflags = old.fflags ∧ (t.thread q).nbv = old.nbv ∧ (t.thread q).mgrec = old.mgrec ∧
      (t.thread q).reply = old.reply ∧ (t.thread q).qpres = 0 ∧ (t.thread q).qout = 0 ∧ (t.thread q).grem = 0 ∧
      (t.thread q).mode = false ∧ (t.thread q).pmode = false) ∧
  (∀ s p rec ws u, rec ≠ 0 → readRecord p 16 rec [] s = (.got ws, u) → (ws[12]?).getD 0 ≠ 1 →
    takeRecord p rec s = (.got [], u)) ∧
  (∀ s cl n p a sh, migrants cl s = [(n, p, a)] → s.shareOf? p = some sh → idleContext sh s = none →
    exec (.migrationPlacement cl) s = .next s)

/-- 02 R62-R64; 15 R358, R360-R362. SYSR gives the register's value to xd. SYSW writes it: FMODE keeps four bits, FFLAGS five,
STATUS two, GTIMEOUT 32, EGUARD five; a register of which the thread has no copy reads as a free value (log 15); NBV takes only a version the device acknowledges; a write of DQBASE or DQLIM empties
the deque; a read-only register keeps its value. YIELD steps back for at most 8 clk. PGINV performs a release at `.sys`,
performs what is under way in its range or was carried by a translation that goes, drops the translations and the cached
lines of its range, and acquires. -/
def Obligations.SystemWordsReadAndWriteRegisters : Prop :=
  (∀ p s d r v, Clear (.sysr d r) p s → sysVal p r (atIssue (.sysr d r) p s) = some v →
    Completes (.sysr d r) p s (putX p d v)) ∧
  (∀ p s d r, Clear (.sysr d r) p s → sysVal p r (atIssue (.sysr d r) p s) = none → CompletesWith (.sysr d r) p s
    fun s t => ∃ v, t = putX p d (v &&& fieldMask r) { s with frees := s.frees + 1 }) ∧
  (∀ p s r a, Clear (.sysw r a) p s → Completes (.sysw r a) p s fun s => sysPut p true r (getX p a s) s) ∧
  (∀ (s : State) p v, p.engine ≠ .lane →
    (∀ r f, (r, f) ∈ [(SysReg.fmode, (fun v => v &&& 15 : Word → Word)), (.fflags, fun v => v &&& 31),
        (.status, fun v => v &&& 3), (.cause, id), (.epc, id), (.eval, id), (.eguard, fun v => v &&& 31), (.escr, id)] →
      sysVal p r (sysPut p true r v s) = some (f v)) ∧
    (p.engine = .scalar → sysVal p .mgrec (sysPut p true .mgrec v s) = some v ∧
      sysVal p .dqbase (sysPut p true .dqbase v s) = some v ∧ sysVal p .dqlim (sysPut p true .dqlim v s) = some v) ∧
    (∀ c, p.core? = some c → p.engine = .scalar →
      ((sysPut p true .dqbase v s).core c).top = 0 ∧ ((sysPut p true .dqbase v s).core c).bot = 0 ∧
      ((sysPut p true .dqlim v s).core c).top = 0 ∧ ((sysPut p true .dqlim v s).core c).bot = 0) ∧
    ((∃ sh, s.shareOf? p = some sh) →
      sysVal p .tvec (sysPut p true .tvec v s) = some v ∧
      sysVal p .gtimeout (sysPut p true .gtimeout v s) = some (v &&& 0xFFFFFFFF)) ∧
    (∀ r, r ∈ [SysReg.guardst, .rank, .nranks, .cluster, .core, .context, .lane, .engine, .gangid, .trrdown, .trrdoth,
        .trwrown, .trwroth, .trlhit, .trlink0, .trlink1, .trcsav, .featcap0, .featcap1, .featcap2, .featcap3, .featack0,
        .featack1, .featack2, .featack3] → sysPut p true r v s = s)) ∧
  (∀ (s : State) p first v,
    let ok := v.toNat % 4 = 2 ∨ (v.toNat % 4 = 1 ∧ s.pkg.featAck.getLsbD 0 = true)
    (ok → sysPut p first .nbv v s = s.modThread p fun t => { t with nbv := ofN (v.toNat % 4) }) ∧
    (¬ ok → sysPut p first .nbv v s = s)) ∧
  (∀ p s, Clear .yield p s → ∃ t, exec .yield s = .next t ∧
    Finished p (atIssue .yield p s) (atIssue .yield p s) t ∧ (t.thread p).yieldUntil = s.clk + 8) ∧
  (∀ p s a, Clear (.pginv a) p s →
    let s₁ := atIssue (.pginv a) p s
    let sel := getX p a s₁
    ((pushAll p s₁).thread p).pushing = false →
    let s₂ := releaseStores p .sys true (pushAll p s₁)
    let s₃ := settleRange sel s₂
    ∃ u, exec (.pginv a) s = .next u ∧ Finished p s₁ (acquire p .sys { s₃ with clusters := s₃.clusters.map fun e =>
      (e.1, { e.2 with l1 := keepLines sel e.2.l1, ic := keepLines sel e.2.ic }) }) u) ∧
  (∀ p s a, Clear (.pginv a) p s →
    let sel := getX p a (atIssue (.pginv a) p s)
    Releases (.pginv a) p s (atIssue (.pginv a) p s) .sys true fun s =>
      let s := settleRange sel s
      acquire p .sys { s with clusters := s.clusters.map fun e =>
        (e.1, { e.2 with l1 := keepLines sel e.2.l1, ic := keepLines sel e.2.ic }) })

/-- 16 R363-R365; 08 R188. EXIT drains: the thread's accesses land, its streams close, and it waits while a stream is not done or a reply it asked
for has not arrived. A context of a cluster is then retired with its receive registers empty, after its reply, where it
holds a target, has entered its outbound queue, and waits in sending while that is full; a context lent by a gang returns.
The active lanes of a wave that hold nothing back and no reply target are gone with the word, and with its last lane the
wave, whose slot is free from the next clk; a request lane's value leaves as the reply. -/
def Obligations.ExitDrainsAndRetires : Prop :=
  (∀ p s a, Clear (.exit a) p s →
    let i : Instr := .exit a
    let s₁ := atIssue i p s
    let v := getX p a s₁
    let s₂ := closeStreams p ((forceLoads p s₁).modThread p fun t => { t.landAll with ending := some v })
    let t := s₂.thread p
    let held := t.streaming = true ∨ t.qout &&& ~~~t.qgot ≠ 0
    (held → Blocks i p s .draining fun _ => s₂) ∧
    (¬ held → t.reply = none → p.engine = .scalar → CompletesAway i p s fun _ => s₂.modThread p fun t =>
      { t with run := .retired, reply := none, ending := none, fetch := [], qpres := 0, qout := 0, qgot := 0 }) ∧
    (∀ r cl, ¬ held → t.reply = some r → p.cluster? = some cl → p.engine = .scalar →
      let s₃ := releaseStores p .cl true s₂
      ((s₃.outq (outqOf p)).length < 8 → ∀ w, t.ending = some w → CompletesAway i p s fun _ =>
        (post p (some (s₃.thread p).rank) (.rput (.ctx cl r.core r.ctx) r.idx w) true s₃).modThread p fun t =>
          { t with run := .retired, reply := none, ending := none, fetch := [], qpres := 0, qout := 0, qgot := 0 }) ∧
      (8 ≤ (s₃.outq (outqOf p)).length → Blocks i p s .sending fun _ => s₃)) ∧
    (¬ held → t.reply = none → p.engine = .landing → CompletesAway i p s fun _ =>
      { s₂.modThread p fun t =>
          { t with gang := 0, rank := 0, run := .idle, reply := none, ending := none, fetch := [] }
        with lent := s₂.lent.filter (·.1 != p.key) })) ∧
  (∀ cl e sl act s pre a, WaveRuns (.exit a) cl e sl act s pre →
    (∀ p ∈ act, (pre.thread p).strm.all (·.isNone) = true ∧
      (pre.thread p).qout &&& ~~~(pre.thread p).qgot = 0 ∧ (pre.thread p).reply = none) →
    ∃ t, exec (.exit a) s = .next t ∧ (∀ p ∈ act, t.thread? p = none) ∧
      (∀ q ∈ pre.lanes cl e sl, q ∉ act → (t.thread? q).isSome = true) ∧
      (act ≠ [] → (∀ q ∈ pre.lanes cl e sl, q ∈ act) →
        t.wave? cl e sl = none ∧ FMap.getD (t.cluster cl).slotFree (e * 16 + sl) 0 = s.clk + 1)) ∧
  (∀ cl e sl p s pre a r, WaveRuns (.exit a) cl e sl [p] s pre →
    (landWave cl e sl s).standing (.wave cl e sl) = [p] → (pre.thread p).strm.all (·.isNone) = true →
    (pre.thread p).qout &&& ~~~(pre.thread p).qgot = 0 → (pre.thread p).reply = some r →
    let v := getX p a pre
    let s₂ := closeStreams p ((forceLoads p pre).modThread p fun t => { t.landAll with ending := some v })
    let s₃ := releaseStores p .cl true s₂
    (mayEnqueue p s₃ = true → ∃ t x, exec (.exit a) s = .next t ∧ t.thread? p = none ∧
      t.outq (outqOf p) = s₃.outq (outqOf p) ++ [x] ∧ x.cargo = .rput (.ctx cl r.core r.ctx) r.idx v ∧
      x.reply = true ∧ x.rank = some (pre.thread p).rank) ∧
    (mayEnqueue p s₃ = false → ∃ t, exec (.exit a) s = .next t ∧ (t.thread p).run = .wait (.exit a) .sending))

/-! ### The host link and its registers -/

/-- 03 R66-R68. A write of eight doublewords to an aligned place of the submission area becomes a message, which FEATLOCK,
its header and its destination let into the window's buffer of 256; any other write to the area is counted and discarded,
and one beyond it has no effect. The oldest message passes once its destination accepts it, at most one in a clk; the
second look at its destination is log 41, and the dispatcher's buffer of 16 is log 22. A write to the record window is one
step (log 54). The
record window writes and reads the bytes of the host record region. BAR2 reads 0 in the submission area and its reserved
part, and an entry of the receive queue reads as its message. -/
def Obligations.HostWindowTakesMessages : Prop :=
  (∀ (s : State) off ws,
    let i : Instr := .hostWindowMessage off ws
    let m := mkMsg (recWord ws 0) hostSrc (ws.drop 1)
    let area := off < 0x40000 ∧ off % 64 = 0 ∧ ws.length = 8
    (0x40000 ≤ off → exec i s = .next s) ∧
    (off < 0x40000 → (off % 64 ≠ 0 ∨ ws.length ≠ 8) →
      exec i s = .next { s with pkg := { s.pkg with hmwErr := s.pkg.hmwErr + 1 } }) ∧
    (area → 256 ≤ s.pkg.window.length → exec i s = .next s) ∧
    (area → s.pkg.window.length < 256 → s.pkg.featLock = false → exec i s = .next (refuseWindow 3 m s)) ∧
    (area → s.pkg.window.length < 256 → s.pkg.featLock = true → badHeader (recWord ws 0) = true →
      exec i s = .next (refuseWindow 1 m s)) ∧
    (area → s.pkg.window.length < 256 → s.pkg.featLock = true → badHeader (recWord ws 0) = false →
      (hostMaySend m.hdr s = false → exec i s = .next (refuseWindow 2 m s)) ∧
      (hostMaySend m.hdr s = true →
        exec i s = .next { s with pkg := { s.pkg with window := s.pkg.window ++ [m] } }))) ∧
  (∀ (s : State) off len,
    ((0x40000 ≤ off ∨ len = 0 ∨ (off % 64 = 0 ∧ len = 64)) → exec (.submissionAreaBadWrite off len) s = .next s) ∧
    (off < 0x40000 → len ≠ 0 → ¬ (off % 64 = 0 ∧ len = 64) →
      exec (.submissionAreaBadWrite off len) s =
        .next { s with pkg := { s.pkg with hmwErr := s.pkg.hmwErr + 1 } })) ∧
  (∀ (s : State) m ms, s.pkg.window = m :: ms →
    let taken : State := { s with pkg := { s.pkg with window := ms, windowNext := s.clk + 1 } }
    (s.clk < s.pkg.windowNext → exec .windowPassMessage s = .next s) ∧
    (s.pkg.windowNext ≤ s.clk → hostMaySend m.hdr s = false →
      exec .windowPassMessage s = .next (refuseWindow 2 m taken)) ∧
    (s.pkg.windowNext ≤ s.clk → hostMaySend m.hdr s = true → hDest m.hdr = none →
      (s.disp.inbox.length < 16 → exec .windowPassMessage s = .next (dispPut m 0 taken)) ∧
      (16 ≤ s.disp.inbox.length → exec .windowPassMessage s = .next s)) ∧
    (∀ c, s.pkg.windowNext ≤ s.clk → hostMaySend m.hdr s = true → hDest m.hdr = some c →
      discarded c m.hdr s = false →
      (pathOpen c (hChan m.hdr) s = true → exec .windowPassMessage s = .next
        (taken.modCore c fun k => { k with inbox := k.inbox ++ [m] })) ∧
      (pathOpen c (hChan m.hdr) s = false → exec .windowPassMessage s = .next s))) ∧
  (∀ (s : State) off bs, exec (.bar4Write off bs) s = .next
    (if off + bs.length ≤ 0x4000000 then storeBytes (s.pkg.eopra.recordBase + off) bs s else s)) ∧
  (∀ (s : State) off len bs s', homeRead (s.pkg.eopra.recordBase + off) len s = (bs, s') →
    exec (.bar4Read off len) s = .next
      (if off + len ≤ 0x4000000 then { s' with pkg := { s'.pkg with hostRead := bs } } else s)) ∧
  (∀ (s : State) off, off < 0x80000 → bar2Read off s = 0) ∧
  (∀ (s : State) e m, e < 8192 → FMap.get? s.pkg.hrq e = some m → bar2Read (0x80000 + 64 * e) s = m.hdr ∧
    ∀ i w, i < 7 → m.pay[i]? = some w → bar2Read (0x80000 + 64 * e + 8 * (i + 1)) s = w)

/-- 03 R69, R71; 15 R357; 17 R372, R381. A write of FEATACK takes the bits that FEATCAP has, until FEATLOCK is set; FEATLOCK
is set once and is not set in *recovery*; HRQHEAD moves no further than HRQTAIL; PWRCAP is at most the fused limit; a 1 in
LINKSTAT asks for a failed link; bit 63 of a LOGTAIL clears OVF. A write to BAR0 by offset is the register's write, and a
read-only register keeps its value; that a write at an offset that is no multiple of 8, or that no table lists, has no
effect is log 87. -/
def Obligations.HostRegistersTakeWrites : Prop :=
  (∀ (s : State) (i : Fin 4) v,
    (s.pkg.featLock = true → exec (.featackWrite i v) s = .next s) ∧
    (s.pkg.featLock = false → ∃ a : BitVec 256,
      exec (.featackWrite i v) s = .next { s with pkg := { s.pkg with featAck := a } } ∧
      ∀ k, k < 256 → a.getLsbD k =
        if k / 64 = i.val then v.getLsbD (k % 64) && s.pkg.fuses.featcap.getLsbD k else s.pkg.featAck.getLsbD k)) ∧
  (∀ (s : State) v,
    ((s.pkg.featLock = true ∨ s.pkg.boot = .recovery) → exec (.featlockWrite v) s = .next s) ∧
    (s.pkg.featLock = false → s.pkg.boot ≠ .recovery →
      exec (.featlockWrite v) s = .next { s with pkg := { s.pkg with featLock := v.getLsbD 0 } })) ∧
  (∀ (s : State) (v : Word) n, s.pkg.hrqHead < 8192 → s.pkg.hrqTail < 8192 → v.toNat = (s.pkg.hrqHead + n) % 8192 →
    n < 8192 → n ≤ (s.pkg.hrqTail + 8192 - s.pkg.hrqHead) % 8192 →
    exec (.hrqheadWrite v) s = .next { s with pkg := { s.pkg with hrqHead := v.toNat } }) ∧
  (∀ (s : State) (v : Word) n, s.pkg.hrqHead < 8192 → s.pkg.hrqTail < 8192 → v.toNat = (s.pkg.hrqHead + n) % 8192 →
    n < 8192 → (s.pkg.hrqTail + 8192 - s.pkg.hrqHead) % 8192 < n → exec (.hrqheadWrite v) s = .next s) ∧
  (∀ (s : State) (v : Word), exec (.pwrcapWrite v) s = .next { s with pkg := { s.pkg with
    pwrCap := ofN (min v.toNat s.pkg.fuses.power) } }) ∧
  (∀ (s : State) (v : Word), ∃ l, exec (.linkstatWrite v) s = .next { s with pkg := { s.pkg with linkAsk := l } } ∧
    l.length = s.pkg.linkAsk.length ∧ ∀ k a, s.pkg.linkAsk[k]? = some a →
      l[k]? = some (a || (v.getLsbD k && (s.pkg.linkFail[k]?).getD false))) ∧
  (∀ (s : State) (d : Fin 4) v, exec (.logtailOvfClear d v) s = .next
    (if v.getLsbD 63 then { s with pkg := { s.pkg with
      logs := s.pkg.logs.modify d.val fun l => { l with ovf := false } } } else s)) ∧
  (∀ (s : State) v, (∀ i : Fin 4, exec (.registerWrite (0x20 + 8 * i.val) v) s = exec (.featackWrite i v) s) ∧
    exec (.registerWrite 0x40 v) s = exec (.featlockWrite v) s ∧
    exec (.registerWrite 0x50 v) s = exec (.hrqheadWrite v) s ∧
    exec (.registerWrite 0x1008 v) s = exec (.pwrcapWrite v) s ∧
    exec (.registerWrite 0x1028 v) s = exec (.linkstatWrite v) s ∧
    (∀ d : Fin 4, exec (.registerWrite (0x3008 + 16 * d.val) v) s = exec (.logtailOvfClear d v) s) ∧
    (∀ off, (off < 0x20 ∨ off = 0x48 ∨ off = 0x58 ∨ off = 0x1000 ∨ off = 0x1010 ∨ off = 0x1018 ∨ off = 0x1020 ∨
        off = 0x10B0 ∨ (0x2000 ≤ off ∧ off < 0x3000) ∨ 0x8000 ≤ off ∨ off % 8 ≠ 0) →
      exec (.registerWrite off v) s = .next s))

/-! ### Messages on their way -/

/-- 03 R69, R75, R76; 14 R321, R324; 10 R244. The message at the head of a core's outbound queue leaves it for the host's
receive queue, the dispatcher's buffer of 16 (log 22) or a core's inbound buffer, once that has room, and stays while it has none; for a
saved share it joins the share's spill queue; an MREQ joins those whose reply is to be sent. An RPUT writes its receive
register and sets its presence bit. A trigger message joins the mesh. The steal that reaches a cluster's unit is answered
with the entry at the victim's top, or with none; which steal from another cluster reaches it first is log 84. -/
def Obligations.ParcelsReachTheirDestination : Prop :=
  (∀ (s : State) c x xs m, s.outq (.core c) = x :: xs → x.cargo = .msg m → behind x s = false → parcelLost x s = false →
    let i : Instr := .messageDelivery (.core c)
    let out := fun s : State => s.modCore c fun k => { k with outq := k.outq.erase x }
    (hAgent m.hdr = 3 → (s.pkg.hrqTail + 1) % 8192 ≠ s.pkg.hrqHead → exec i s = .next (out { s with pkg := { s.pkg with
      hrq := FMap.put s.pkg.hrq s.pkg.hrqTail m, hrqTail := (s.pkg.hrqTail + 1) % 8192 } })) ∧
    (hAgent m.hdr = 2 → s.disp.inbox.length < 16 → exec i s = .next (out (dispPut m (dispKey x) s))) ∧
    (∀ sh d, hAgent m.hdr < 2 → parcelLend x = false → parcelCore x m.hdr s = some d → parcelShare x s = some sh →
      s.live sh = true → sh.spill = [] → discarded d m.hdr s = false → pathOpen d (hChan m.hdr) s = true →
      exec i s = .next (out (s.modCore d fun k => { k with inbox := k.inbox ++ [m] }))) ∧
    (∀ sh, hAgent m.hdr < 2 → parcelLend x = false → parcelShare x s = some sh → sh.saved.isSome = true →
      sh.spill.length < 4096 → (∃ d, parcelCore x m.hdr s = some d) →
      exec i s = .next (out (spillPut sh x s))) ∧
    (xs = [] → landMsg x m s = .wait → exec i s = .next s)) ∧
  (∀ (s : State) c x xs m, s.outq (.core c) = x :: xs → x.cargo = .mreq m → exec (.messageDelivery (.core c)) s =
    .next ({ s with mreqs := s.mreqs ++ [m] }.modCore c fun k => { k with outq := k.outq.erase x })) ∧
  (∀ (s : State) sh x, ∃ s' : State, spillPut sh x s = s'.modShare sh.gang sh.rank (fun y => { y with spill := y.spill ++ [x] }) ∧
    s'.shares = s.shares ∧ s'.threads = s.threads ∧ s'.cores = s.cores ∧ s'.mesh = s.mesh) ∧
  (∀ (s : State) c x d n v sh, s.outq (.core c) = [x] → x.cargo = .rput d n v → behind x s = false → parcelLost x s = false →
    parcelShare x s = some sh → s.live sh = true → sh.spill = [] → n < 32 → x.reply = false →
    exec (.rputArrival [.core c]) s = .next
      ((s.modCore c fun k => { k with outq := [] }).modThread (.ctx sh.cl d.coreNum d.ctxNum) fun t =>
        { t with q := t.q.set! n v, qpres := setBit t.qpres n true })) ∧
  (∀ (s : State) cl x xs, (s.cluster cl).trigQ = x :: xs → exec (.triggerMessageSend cl) s = .next
    { s.modCluster cl fun c => { c with trigQ := xs } with mesh := s.mesh ++ [x] }) ∧
  (∀ (s : State) cl x sh e s', nextSteal cl s = some x → s.shareOn? (s.thread x.thief).gang cl x.core = some sh →
    s.live sh = true → stealEntry sh x.core (s.modCluster cl fun c => { c with steals := c.steals.erase x }) = (e, s') →
    (∀ v w, e = some (v, w) → exec (.stealRequest cl) s = .next (answerWait x.thief (.answered true v w) s')) ∧
    (e = none → exec (.stealRequest cl) s = .next (answerWait x.thief (.answered false 1 0) s')))

/-- 03 R78, R85; 14 R319; 19 R384. A handler starts on an idle context with its message's header in x1, the payload in x2 to
x8, the pc of the channel's entry, a stall of 3 clk, and its other registers as they were once its loads have landed; a channel-15 message starts at its first payload
word with the next two in x2 and x3 and no value present; a payload word beyond COUNT reads 0 there (log 75). The words of
an MREQ are read and sent to its core; a failing read sends ERR, with COUNT words of 0 (log 25). A lend gives a landing-core context to the sender's gang and rank and starts it. -/
def Obligations.MessagesStartContexts : Prop :=
  (∀ (s : State) c (k : Fin 4) ch m, selects c k s = true → oldest k 15 (s.core c).inbox = none →
    selectChan c k s = some ch →
    (s.core c).inbox.find? (fun m => hChan m.hdr == ch && !hwOp m && forCtx m k) = some m →
    (∀ cl n, c = .scalar cl n → NothingSpilled cl n s) →
    ∃ t, exec (.handlerStart c k) s = .next t ∧
      let u := t.thread (c.place k)
      let o := (forceLoads (c.place k) (s.modCore c fun x => { x with hptr := (ch + 1) % 16 })).thread (c.place k)
      u.ready = s.clk + 3 ∧ u.x[1] = m.hdr ∧ (∀ i (_ : i < 7), u.x[2 + i] = recWord m.pay i) ∧ (∀ i (_ : i < 32), i = 0 ∨ 8 < i → u.x[i] = o.x[i]) ∧
      u.pc = (((s.core c).tab[ch]?).getD HEntry.blank).pc ∧ u.mode = s.supervisorCore c ∧ u.run = .running ∧
      u.f = o.f ∧ u.p = o.p ∧ u.q = o.q ∧ u.qpres = o.qpres ∧ u.gang = o.gang ∧ u.rank = o.rank ∧
      (t.core c).inbox = (s.core c).inbox.erase m ∧ (t.core c).hptr = (ch + 1) % 16) ∧
  (∀ (s : State) c (k : Fin 4) m, selects c k s = true → oldest k 15 (s.core c).inbox = some m →
    (∀ cl n, c = .scalar cl n → NothingSpilled cl n s) →
    ∃ t, exec (.directStart c k) s = .next t ∧
      let u := t.thread (c.place k)
      u.x[1] = m.hdr ∧ u.x[2] = recWord m.pay 1 ∧ u.x[3] = recWord m.pay 2 ∧ u.pc = recWord m.pay 0 ∧ u.run = .running ∧
      u.qpres = 0 ∧ u.mode = s.supervisorCore c ∧ (t.core c).inbox = (s.core c).inbox.erase m) ∧
  (∀ (s : State) n m, s.mreqs.find? (·.n == n) = some m → s.shareLive m.gang m.rank = true → s.missOf (.mreq n) = none →
    let s₁ := drain (fun e => e.place == m.place && meets e.va.toNat e.size m.addr.toNat (8 * rqCount m.ctl))
      (fun _ => 3) s
    (∀ ws s₂, mreqRead (mreqAgent m s₁) (rqCount m.ctl) m.addr [] s₁ = (.words ws, s₂) →
      exec (.mreqReply n) s = .next (mreqSend m (some ws) s₂)) ∧
    (∀ s₂, mreqRead (mreqAgent m s₁) (rqCount m.ctl) m.addr [] s₁ = (.failed, s₂) →
      exec (.mreqReply n) s = .next (mreqSend m none s₂))) ∧
  (∀ m sh src, (mreqMsg m sh none src).hdr.getLsbD 41 = true ∧
    (mreqMsg m sh none src).pay = List.replicate (rqCount m.ctl) 0 ∧ ∀ ws, (mreqMsg m sh (some ws) src).pay = ws) ∧
  (∀ (s : State) x m r l c k, nextLend s [] s.disp.lends = some (x, m, r, l, c, k) →
    ∃ t, exec .lend s = .next t ∧
      let u := t.thread (.lctx l c k)
      u.gang = x.gang ∧ u.rank = r ∧ u.pc = recWord m.pay 0 ∧ u.x[2] = recWord m.pay 1 ∧ u.x[3] = recWord m.pay 2 ∧
      u.mode = false ∧ u.run = .running ∧ u.qpres = 0 ∧ u.lay = List.replicate 64 (0, 0) ∧
      t.lent = s.lent ++ [(Place.key (.lctx l c k), x.gang, r)] ∧ t.disp.lends = s.disp.lends.erase x)

/-! ### Fetch and the gatherer -/

/-- 05 R99, R100, R391; 08 R183-R186, R191, R193. A group of eight words that a crew has asked for is delivered from the line
that holds it, 2 clk later where its cache holds the line. A post enters the bucket that takes it, or waits for one; an open bucket is released when its last clk has
passed; a released one becomes a wave whose lane i is its i-th entry, in a free slot; a migrating lane moves to an idle
context with its registers 0 to 23. -/
def Obligations.GathererFormsWaves : Prop :=
  (∀ (s : State) u r p l s', s.freqs.find? (fun r => r.u == u && r.taken) = some r → s.fetcher u = some p →
    fetchLine p r.addr { s with freqs := s.freqs.erase r } = (.line l, s') →
    exec (.fetchGroupDelivery u) s = .next
      (deliver u (s.thread p).pc { addr := r.addr, words := (List.range 8).map (fun i => lineWord l (r.addr + ofN (4 * i))),
                                   clk := s'.clk, bad := 0 } s')) ∧
  (∀ (s : State) r p l, s.fetcher r.u = some p →
    (s.icOf p).find? (fun l => l.gang == (s.thread p).gang && l.tag == r.addr.toNat / 128) = some l →
    acceptRequest r s = deliver r.u (s.thread p).pc
      { addr := r.addr, words := (List.range 8).map (fun i => lineWord l.data (r.addr + ofN (4 * i))), clk := s.clk + 2,
        bad := 0 } { s with freqs := s.freqs.erase r }) ∧
  (∀ (s : State) cl q, (s.cluster cl).posts = [q] → q.queued = false →
    let s₁ := s.modCluster cl fun c => { c with posts := [] }
    (∀ s₂, enterBucket cl q s₁ = some s₂ →
      exec (.bucketPostArrival cl 1) s = .next (posted q (answerWait q.entry.place (.posting 1) s₂))) ∧
    (enterBucket cl q s₁ = none → exec (.bucketPostArrival cl 1) s = .next
      (s₁.modCluster cl fun c => { c with posts := c.posts ++ [{ q with queued := true }] }))) ∧
  (∀ (s : State) cl (b : Fin 8) x, (s.cluster cl).buckets[b.val]? = some x → ∃ t, exec (.bucketTimeout cl b) s = .next t ∧
    (t.cluster cl).buckets[b.val]? = some (if x.st = .opened ∧ x.t0 + x.tmo < s.clk then
      { x with st := .released, order := (x.t0 + x.tmo) * 8 + b.val } else x) ∧
    (∀ j, j ≠ b.val → (t.cluster cl).buckets[j]? = (s.cluster cl).buckets[j]?) ∧
    { t with clusters := [] } = { s with clusters := [] }) ∧
  (∀ (s : State) cl (b : Fin 8) x sh e sl,
    let s₁ := expireBuckets cl s
    (s₁.cluster cl).buckets[b.val]? = some x → x.st = .released → firstReleased x (s₁.cluster cl).buckets = true →
    s₁.share? x.gang x.rank = some sh → s₁.live sh = true → launchSlot sh s₁ = some (e, sl) →
    (s.cluster cl).posts = [] →
    ∃ t, exec (.waveLaunch cl b) s = .next t ∧
      (∀ i y, x.entries[i]? = some y → t.thread (.lane sh.cl e sl i) =
        if x.migr then y.thread else { y.thread with acq := s.reqCtr }) ∧
      (∃ w, t.wave? sh.cl e sl = some w ∧ w.gang = sh.gang ∧ w.rank = sh.rank ∧ w.chksb = true)) ∧
  (∀ (s : State) cl n p a sh q, migrants cl s = [(n, p, a)] → s.shareOf? p = some sh → s.live sh = true →
    idleContext sh s = some q → (s.thread p).mgrec = 0 →
    ∃ t, exec (.migrationPlacement cl) s = .next t ∧
      let u := t.thread q
      u.pc = (s.thread p).getX a ∧ u.run = .running ∧ (∀ i (_ : i < 24), u.x[i] = (s.thread p).x[i]) ∧
      (∀ i (_ : i < 24), u.f[i] = (s.thread p).f[i]) ∧ (∀ i (_ : i < 8), u.x[24 + i] = 0) ∧ u.p = (s.thread p).p ∧
      u.gang = (s.thread p).gang ∧ u.rank = (s.thread p).rank)

/-! ### Launch, release, retirement -/

/-- 03 R79-R82; 04 R89-R91, R96; 16 R368-R371. The dispatcher takes its oldest message that no full queue holds up (a
later one may pass a launch that waits, log 96), and refuses it with its code or queues a new gang; the first clk after an
event that calls for a pass runs one, which places the head of a queue that fits and takes it from the queue, and leaves
one that does not; an event in the clk of a pass calls for one more; a head that has aged starts a pass. A placed gang
whose pages are mapped is loaded: its sections are stored at the addresses its root maps, and nowhere else; every core of
its shares takes the image's handlers and layouts, every share its decode table; its contexts are idle with all registers
0, but the entry contexts' pc, x2 and x3. The release message of a die starts every entry context there; a gang of which
nothing is left to run retires, and its completion message is sent. -/
def Obligations.GangsAreLaunchedAndRetired : Prop :=
  (∀ (s : State) x, (s.disp.inbox.filter fun x => decide (x.clk < s.clk)).find? (takable s) = some x →
    let s₁ : State := { s with disp := { s.disp with inbox := s.disp.inbox.erase x } }
    (∀ c, launchCode x s₁ = c → c ≠ 0 → exec .gangLaunch s = .next (refuse c x.msg x.desc s₁)) ∧
    (launchCode x s₁ = 0 → ∃ t g, exec .gangLaunch s = .next t ∧
      let id := nextId s₁ (s.gangs.length + 1) s.disp.ctr
      t.disp.ctr = id ∧ t.disp.pass = some (s.disp.pass.getD s.clk) ∧
      t.disp.queues = s.disp.queues.modify (descOf x.desc).queue (· ++ [id]) ∧
      t.gang? id = some g ∧ g.id = id ∧ g.desc = descOf x.desc ∧ g.phase = .queued)) ∧
  (∀ s : State, (∀ c, s.disp.pass = some c → s.clk ≤ c) → exec .dispatcherPass s = .next s) ∧
  (∀ (s : State) (q : Fin 8) g c, s.disp.pass = some c → c < s.clk → s.gang? g.id = some g → s.disp.queues[q.val]? = some [g.id] →
    (∀ k l, k ≠ q.val → s.disp.queues[k]? = some l → l = []) → s.disp.resv = [] →
    let s₁ : State := { s with disp := { s.disp with
      pass := if s.disp.again = true then some s.clk else none, again := false } }
    qualifies q.val g s₁ = false →
    (∀ rs, tryGang g [] s₁ = (true, rs) →
      exec .dispatcherPass s = .next (leaveQueue g.id q.val (placeGang g rs s₁))) ∧
    (∀ rs, tryGang g [] s₁ = (false, rs) → exec .dispatcherPass s = .next s₁)) ∧
  (∀ (s : State) (q : Fin 8) g, s.head? q.val = some g →
    ((g.id ∈ s.disp.aged ∨ s.clk - (s.disp.headSince[q.val]?).getD 0 < 110000) →
      exec (.headAgeingTimeout q) s = .next s) ∧
    (g.id ∉ s.disp.aged → 110000 ≤ s.clk - (s.disp.headSince[q.val]?).getD 0 → exec (.headAgeingTimeout q) s =
      .next { s with disp := { s.disp with
        aged := s.disp.aged ++ [g.id]
        pass := some (s.disp.pass.getD s.clk)
        again := s.disp.again || decide (s.disp.pass.getD s.clk < s.clk) } })) ∧
  (∀ (s : State) g root text data x, s.gang? g = some x →
    let plan := loadPlan x.desc.image x.desc.template 1 text s ++ loadPlan x.desc.image x.desc.template 2 data s
    ((x.phase ≠ .placed ∨ x.restoring = true ∨ planMapped root plan s = false) →
      exec (.gangLoad g root text data) s = .next s) ∧
    (x.phase = .placed → x.restoring = false → planMapped root plan s = true →
      ∃ t, exec (.gangLoad g root text data) s = .next t ∧ t.gang? g = some { x with
        phase := .loaded, root := root, text := textBase x.desc.image x.desc.template text s })) ∧
  (∀ (s : State) g root text data x, s.gang? g = some x → x.id = g → x.phase = .placed → x.restoring = false →
    let img := x.desc.image
    let k := x.desc.template
    let plan := loadPlan img k 1 text s ++ loadPlan img k 2 data s
    let base := textBase img k text s
    planMapped root plan s = true →
    (s.sharesOf g).Pairwise (fun a b => a.cl ≠ b.cl ∧ a.rank ≠ b.rank) →
    (∀ sh ∈ s.sharesOf g, sh.cl < 192 ∧ ∀ c ∈ sh.cores, c < 32) →
    ∃ t, exec (.gangLoad g root text data) s = .next t ∧
      t.dram = (plan.foldl (fun s x => loadBytes root (x.2.size / 0x10000 + 2) x.1
        (Memory.readBytes s.dram (img + x.2.off) x.2.size) s) s).dram ∧
      ∀ sh ∈ s.sharesOf g, s.share? g sh.rank = some sh → sh.cores.Nodup →
        (∃ y, t.share? g sh.rank = some y ∧ y.tab = handlersOf img k base s ∧ y.decode = decodeOfImage img k s ∧
          y.lay = layoutOfImage img k s) ∧
        (∀ c ∈ sh.cores, (t.core (.scalar sh.cl c)).tab = handlersOf img k base s ∧
          (t.core (.scalar sh.cl c)).lay = layoutOfImage img k s ∧
          (t.core (.scalar sh.cl c)).inbox = (s.core (.scalar sh.cl c)).inbox) ∧
        (∀ i c, i < sh.nctx → sh.cores[i / 4]? = some c →
          let u := t.thread (.ctx sh.cl c (i % 4))
          u.gang = g ∧ u.rank = sh.rank ∧ u.run = .idle ∧ u.mode = false ∧ u.nbv = 2 ∧ u.fmode = 0 ∧ u.fflags = 0 ∧
          u.qpres = 0 ∧ u.p = 1 ∧ u.f = Vector.replicate 32 0 ∧
          (∀ r : Reg, u.getX r = if i < x.desc.entryn ∧ r = 2 then x.desc.arg0
            else if i < x.desc.entryn ∧ r = 3 then x.desc.arg1 else 0) ∧
          (i < x.desc.entryn → u.pc = ofN (base + x.desc.entry)))) ∧
  (∀ (s : State) root va bs pa pte, s.Canonical → s.stores = [] → s.pkg.fenced = [] →
    va % 0x10000 + bs.length ≤ 0x10000 → loadPhys root va s = some (pa, pte) →
    let t := loadBytes root (bs.length / 0x10000 + 2) va bs s
    (∀ i b, bs[i]? = some b → Memory.byte t.dram (pa + i) = b) ∧
    ∀ a, (a < pa ∨ pa + bs.length ≤ a) → Memory.byte t.dram a = Memory.byte s.dram a) ∧
  (∀ (s : State) g (die : Fin 4) x sh, s.gang? g = some x → x.phase = .loaded → die.val ∉ x.released →
    (s.sharesOf g).filter (fun sh => sh.cl / 48 == die.val) = [sh] → s.share? g sh.rank = some sh →
    sh.saved = none → sh.spill = [] →
    let done := (s.gangDies g).all fun d => d == die.val || x.released.contains d
    ∃ t, exec (.gangRelease g die) s = .next t ∧ t.gang? g = some { x with
        released := x.released ++ [die.val], phase := if done then .running else .loaded
        restoring := x.restoring && !done } ∧
      ∀ c ∈ sh.contexts.take x.desc.entryn, (t.thread (.ctx sh.cl c.1 c.2)).run = .running ∧
        (t.thread (.ctx sh.cl c.1 c.2)).pc = (s.thread (.ctx sh.cl c.1 c.2)).pc) ∧
  (∀ (s : State) g x, s.gang? g = some x →
    (retires x s = false → exec (.gangRetire g) s = .next s) ∧
    (retires x s = true → FMap.wf s.gangs = true → ∃ t ms, exec (.gangRetire g) s = .next t ∧ t.gang? g = none ∧
      t.disp.pass = some (s.disp.pass.getD s.clk) ∧
      t.mesh = ms ++ [byMesh { hdr := withSrc (completionHeader x.desc) hostSrc, pay := [ofN x.desc.compl, x.desc.cookie] }]))

/-! ### Page faults, pre-emption, restore -/

/-- 15 R344-R351. The oldest failed walk of a cluster receives the next token while fewer than 256 are out, and its fault
message goes to the next pager core; a pager's *retry* lets the access walk again and its *kill* fails it; a pre-emption
command stops the share it names of a running gang, and waits for one not yet released; a stopped share that is ready is
saved and leaves its cluster; a saved gang is queued again, and loaded from its blocks once it is placed: each saved
context takes what its context record holds, which is what it was saved with, and goes on from there once its die is
released. -/
def Obligations.PagersAndPreemption : Prop :=
  (∀ (s : State) cl m, s.misses.find? (freshOn cl) = some m →
    let c := s.cluster cl
    let n := s.pkg.eopra.pagers
    (256 ≤ (outstanding cl s).length → exec (.faultTokenAssign cl) s = .next s) ∧
    ((outstanding cl s).length < 256 → ∃ t, exec (.faultTokenAssign cl) s = .next t ∧
      t.misses = changeFirst (freshOn cl) (fun m => { m with st := .token c.tokCtr }) s.misses ∧
      (t.cluster cl).tokCtr = (c.tokCtr + 1) % 2 ^ 32 ∧ (t.cluster cl).pagerTurn = (c.pagerTurn + 1) % n ∧
      t.mesh = s.mesh ++ [byMesh (faultMsg m c.tokCtr (32 - n + c.pagerTurn % n) (Config.freeWord s.frees))])) ∧
  (∀ (s : State) cl c m, hwHead (.scalar cl c) 2 s = some m → hwForm m = true → NothingSpilled cl c s →
    let s₁ := s.modCore (.scalar cl c) fun k => { k with inbox := k.inbox.erase m }
    let tok := (recWord m.pay 0).toNat
    (recWord m.pay 1 = 1 → exec (.pagerReply cl c) s = .next
      { s₁ with misses := s.misses.filter fun m => !tokenOn cl tok m }) ∧
    (recWord m.pay 1 = 2 → exec (.pagerReply cl c) s = .next
      { s₁ with misses := changeFirst (tokenOn cl tok) (fun m => { m with st := .killed }) s.misses }) ∧
    (recWord m.pay 1 ≠ 1 → recWord m.pay 1 ≠ 2 → exec (.pagerReply cl c) s = .next s₁)) ∧
  (∀ (s : State) cl c m x sh, hwHead (.scalar cl c) 1 s = some m → hwForm m = true → recWord m.pay 0 = 1 →
    NothingSpilled cl c s →
    let g := (recWord m.pay 1).toNat
    s.gang? g = some x → (s.sharesOf g).find? (fun sh => sh.cl == cl && sh.saved.isNone) = some sh →
    x.desc.save ≠ 0 → (∀ e ∈ s.lent, e.2.1 ≠ g) →
    let s₁ := s.modCore (.scalar cl c) fun k => { k with inbox := k.inbox.erase m }
    ((x.phase = .placed ∨ x.phase = .loaded) → exec (.preemptionCommand cl c) s = .next s) ∧
    (x.phase = .running → exec (.preemptionCommand cl c) s = .next
      ((s₁.modGang g fun x => { x with phase := .saving }).modShare g sh.rank fun y => { y with stopped := true })) ∧
    (x.phase = .saving → exec (.preemptionCommand cl c) s = .next
      (s₁.modShare g sh.rank fun y => { y with stopped := true }))) ∧
  (∀ (s : State) g r x sh, s.gang? g = some x → s.share? g r = some sh → sh.gang = g → sh.rank = r →
    ((sh.stopped = false ∨ sh.saved.isSome = true ∨ saveReady sh s = false) → exec (.shareSave g r) s = .next s) ∧
    (sh.stopped = true → sh.saved = none → saveReady sh s = true → ∃ t y, exec (.shareSave g r) s = .next t ∧
      t.share? g r = some y ∧ y.saved.isSome = true ∧ y.stopped = false ∧ y.cl = nowhere)) ∧
  (∀ (s : State) g x, s.gang? g = some x →
    ((x.phase = .queued ∨ x.phase = .loaded ∨ x.phase = .running ∨ x.phase = .saving) →
      exec (.gangRestore g) s = .next s) ∧
    (x.phase = .saved → (s.disp.queues[x.desc.queue]?.getD []).length < 256 → ∃ t, exec (.gangRestore g) s = .next t ∧
      t.gang? g = some { x with phase := .queued, restoring := true } ∧
      t.disp.queues = s.disp.queues.modify x.desc.queue (· ++ [g])) ∧
    (x.phase = .placed → x.restoring = true → ∃ t y, exec (.gangRestore g) s = .next t ∧ t.gang? g = some y ∧
      y.phase = .loaded)) ∧
  (∀ (s : State) g x, s.gang? g = some x → x.id = g → x.phase = .placed → x.restoring = true → s.pkg.poison = [] →
    ((s.sharesOf g).map (·.rank)).Nodup →
    ∃ t, exec (.gangRestore g) s = .next t ∧ t.dram = s.dram ∧
      ∀ sh ∈ s.sharesOf g, s.share? g sh.rank = some sh → ∀ v, sh.saved = some v →
        ∃ y v', t.share? g sh.rank = some y ∧ y.saved = some v' ∧ ∀ cl c k u, (.ctx cl c k, u) ∈ v.threads →
          (.ctx cl c k, readContext (contextAt (blockOf x sh.rank) c k) u s) ∈ v'.threads) ∧
  (∀ (s : State) a (t u : Thread) run,
    Memory.readBytes s.dram a (contextRecord t run).length = contextRecord t run →
    let w := readContext a u s
    w.x = t.x ∧ (∀ i : Reg, (i.val < 28 ∨ (t.strm[i.val - 28]?).getD none = none) → w.getF i = t.getF i) ∧ w.p = t.p ∧
    w.q = t.q ∧ w.qpres = t.qpres ∧ w.qout = t.qout ∧ w.pc = t.pc ∧ w.fmode = t.fmode &&& 15 ∧ w.fflags = t.fflags ∧
    w.nbv = t.nbv &&& 3 ∧ w.mgrec = t.mgrec ∧ w.mode = t.mode ∧ w.pmode = t.pmode ∧ w.cause = t.cause ∧ w.epc = t.epc ∧
    w.eval = t.eval ∧ w.eguard = t.eguard &&& 31 ∧ w.escr = t.escr ∧
    (t.grem ≤ 15 → w.grem = t.grem ∧ w.gcnd = t.gcnd) ∧
    ((run = .running ∨ run = .idle ∨ run = .retired) → w.run = run)) ∧
  (∀ (s : State) g (die : Fin 4) x sh v c k u, s.gang? g = some x → x.phase = .loaded → die.val ∉ x.released →
    (s.sharesOf g).filter (fun sh => sh.cl / 48 == die.val) = [sh] → s.share? g sh.rank = some sh →
    sh.saved = some v → sh.spill = [] → bucketsFit sh s = true → (.ctx (virtualCl sh.rank) c k, u) ∈ v.threads →
    (∀ pt ∈ v.threads, (movePlace (virtualCl sh.rank) sh.cl (newSlot sh v.waves) pt.1).key =
      Place.key (.ctx sh.cl c k) → pt.2 = u) →
    ∃ t, exec (.gangRelease g die) s = .next t ∧ t.thread (.ctx sh.cl c k) = u)

/-! ### The memory path -/

/-- 09 R196, R204-R207, R209, R211; 13 R304. A store alone on its way to DRAM is performed at its home's ordering point,
where its line has no other sharer or its page acts as MCA = 0: the home writes its bytes and no other; under MCA = 1 with
sharers it waits for their acknowledgements, of which the last writes the bytes; the home's acknowledgement ends it. A
performed load lands in its register. A writeback leaves memory as it is. The 512th activation of a row in a refresh
window captures it, and the window's start clears the counts. -/
def Obligations.StoresAndLoadsArePerformed : Prop :=
  (∀ (s : State) e pa mca nc cmp, s.Canonical → s.stores = [e] → e.stage = .slice → e.tgt = .dram pa mca nc cmp →
    e.merge = 0 → e.written = false →
    let others := (s.sharersOf (pa / 128)).filter fun d => !(!(e.direct || nc) && d == e.die)
    ((mca = false ∧ nc = false ∨ others = []) → ∃ t, exec (.homeRequest [.store e.n]) s = .next t ∧
      Memory.read t.dram pa e.size = e.data % 2 ^ (8 * e.size) ∧
      (∀ a, (a < pa ∨ pa + e.size ≤ a) → Memory.byte t.dram a = Memory.byte s.dram a) ∧
      t.stores = [{ e with stage := .home, since := e.since + 1, written := true, acks := others }]) ∧
    (¬ (mca = false ∧ nc = false) → others ≠ [] → ∃ t, exec (.homeRequest [.store e.n]) s = .next t ∧
      t.dram = s.dram ∧ t.stores = [{ e with stage := .home, since := e.since + 1, acks := others }])) ∧
  (∀ (s : State) e pa nc cmp (d : Fin 4), s.Canonical → s.stores = [e] → e.stage = .home →
    e.tgt = .dram pa true nc cmp → e.merge = 0 → e.written = false → e.acks = [d.val] →
    ∃ t, exec (.invalidationAcknowledge e.n d) s = .next t ∧
      Memory.read t.dram pa e.size = e.data % 2 ^ (8 * e.size) ∧
      (∀ a, (a < pa ∨ pa + e.size ≤ a) → Memory.byte t.dram a = Memory.byte s.dram a) ∧
      FMap.get? t.slices (copyKey (pa / 128) d.val) = none ∧ t.stores = [{ e with acks := [], written := true }]) ∧
  (∀ (s : State) e, s.stores = [e] → e.stage = .home → e.written = true → e.acks = [] →
    ∃ t, exec (.memoryReply (.store e.n)) s = .next t ∧ t.stores = [] ∧ t.dram = s.dram) ∧
  (∀ (s : State) p a (d : Reg) v, p.engine ≠ .lane → (s.thread p).loads = [a] → a.val = some v → a.file = .x → a.reg = d.val →
    exec (.memoryReply (.load p a.n)) s = .next (putX p d v (s.modThread p fun t => { t with loads := [] }))) ∧
  (∀ (s : State) p a size signed, (s.thread p).loads = [a] → a.val = none → a.kind = .load size signed → s.stores = [] →
    (∀ q, q.crew = p.crew → q ≠ p → (s.thread q).loads = []) →
    ∃ t v s', threadRead p a.va a.tgt size a.hint s = (v, s') ∧ exec (.homeRequest [.load p a.n]) s = .next t ∧
      (t.thread p).loads = [{ a with val := some (extend size signed v) }] ∧ t.dram = s'.dram) ∧
  (∀ (s : State) (l : Fin 8) line, s.homeLanding (line * 128) = l.val → FMap.get? (s.landing l.val).msc line = some true →
    ∃ t, exec (.lineWriteback l line) s = .next t ∧ t.dram = s.dram ∧
      FMap.get? (t.landing l.val).msc line = some false) ∧
  (∀ (s : State) (l : Fin 8) row,
    let n := FMap.getD (s.landing l.val).rows row 0 + 1
    (n ≠ 512 → exec (.rowCapture l row) s =
      .next (s.modLanding l.val fun d => { d with rows := FMap.put d.rows row n })) ∧
    (n = 512 → row ∉ (s.landing l.val).pinned → (s.landing l.val).pinned.length < 4096 →
      ∃ t, exec (.rowCapture l row) s = .next t ∧ (t.landing l.val).pinned = (s.landing l.val).pinned ++ [row] ∧
        (t.landing l.val).capt = (s.landing l.val).capt + 1 ∧ t.dram = s.dram)) ∧
  (∀ (s : State) (l : Fin 8), exec (.refreshWindowStart l) s = .next (s.modLanding l.val fun d => { d with rows := [] }))

/-- 10 R230-R233, R238-R240, R243; 17 R377; 11 R258, R259, R262. A read stream's next element comes to hand with its value or its
fault; a pushed element becomes a store of the thread, after those of its streams that it must follow; a copy moves on by
one sector, all reads before all writes, fails where its source tile is gone, or its destination tile (log 86), and
completes on its timeline once every peer has acknowledged its writes. A gallery request is performed after the clk's
hand-outs and answered, an engine's by the mesh port 34 (log 83); an available slot goes to the FIFO's head; a bay that has stood for 65,536 clk gives its waiters bay-stall fault. -/
def Obligations.EnginesMoveElementsAndTiles : Prop :=
  (∀ (s : State) p (i : Fin 4) m, strmAt p i.val s = some m → m.writes = false → m.sealed = true →
    (∀ c a, m.ahead.getLast? ≠ some (.bad c a)) → m.ahead.length < 64 →
    m.pos + m.ahead.length < strmLen m.record → s.missOf (.stream p i.val) = none →
    let a := m.addr (s.thread p).gang (m.pos + m.ahead.length) s
    (∀ v s', engineRead (s.agent p) a (fmtSize m.fmt) s = (.val v, s') →
      exec (.streamElementArrival p i) s = .next (modStrm p i.val
        (fun o => o.map fun m => { m with ahead := m.ahead ++ [.val (fmtPop m.fmt v)] }) s')) ∧
    (∀ c s', engineRead (s.agent p) a (fmtSize m.fmt) s = (.bad c, s') →
      exec (.streamElementArrival p i) s = .next (modStrm p i.val
        (fun o => o.map fun m => { m with ahead := m.ahead ++ [.bad c a] }) s'))) ∧
  (∀ (s : State) p (i : Fin 4) m clk v vs tg s', strmAt p i.val s = some m → m.push = (clk, v) :: vs →
    s.missOf (.stream p i.val) = none →
    let a := m.addr (s.thread p).gang m.base s
    pushedAt p a (fmtSize m.fmt) clk s = false →
    route (s.agent p) a (fmtSize m.fmt) .write s = (.to tg, s') →
    exec (.streamPushPerform p i) s = .next (modStrm p i.val
      (fun o => o.map fun m => { m with push := vs, base := m.base + 1 })
      (makeStore p a tg (fmtSize m.fmt) (fmtPush m.fmt v) .normal 0
        (drain (fun e => e.place == p && e.stage == .issued) (fun _ => 1) s')))) ∧
  (∀ (s : State) u c vs s₁ s₂, currentCopy (s.copies u) = some c → c.fin = none → s.missOf (.copy u) = none →
    c.report = false → c.started = true → c.done < cpTotal c.record → srcGone c s = false → dstGone c s = false →
    let j := c.done * cpSector c.record
    readSector (copyAgent u c s) c (copyTable u c s) (min (cpSector c.record) (cpCount c.record - j)) j [] s =
      .done vs s₁ →
    writeSector (copyAgent u c s) c vs j s₁ = .done () s₂ →
    exec (.copySectorComplete u) s = .next (setCopy u c
      (fun c => { c with started := true, done := c.done + 1, report := cpProg c.record != 0 }) (leaveFrames c.reg s₂))) ∧
  (∀ (s : State) u c, currentCopy (s.copies u) = some c → c.fin = none → s.missOf (.copy u) = none → c.report = false →
    c.started = true → c.done < cpTotal c.record → srcGone c s = true → exec (.copySectorComplete u) s = .next (setCopy u c
      (fun c => { c with started := true, fin := some (Cause.overRead, cpSrcHdl c.record) }) s)) ∧
  (∀ (s : State) u c, currentCopy (s.copies u) = some c → c.fin = none → s.missOf (.copy u) = none → c.report = false →
    c.started = true → c.done < cpTotal c.record → srcGone c s = false → dstGone c s = true → exec (.copySectorComplete u) s = .next (setCopy u c
      (fun c => { c with started := true, fin := some (Cause.overRead, cpDstHdl c.record) }) s)) ∧
  (∀ (s : State) u c, currentCopy (s.copies u) = some c → c.fin = none → cpTotal c.record ≤ c.done → c.report = false →
    cpSeal c.record = false → cpSrch c.record = false → cpProg c.record = 0 →
    (∀ x ∈ s.pkg.novilo, x.reg = some c.reg → x.acked = true) →
    let c' := { c with fin := some (0, 0) }
    exec (.copyComplete u) s = .next (tlComplete c.reg
      (modCopies u (fun cs => (cs.map fun x => if x = c then c' else x).filter (· != c')) s))) ∧
  (∀ (s : State) u c, currentCopy (s.copies u) = some c → c.fin = none →
    (∃ x ∈ s.pkg.novilo, x.reg = some c.reg ∧ x.acked = false) → exec (.copyComplete u) s = .next s) ∧
  (∀ (s : State) cl q a s', (s.cluster cl).gal = [q] →
    galPerform q (clusterHandOuts cl (s.modCluster cl fun c => { c with gal := [] })) = (a, s') →
    (q.port < 34 → q.clk < s.clk → exec (.galleryRequest cl 0) s = .next (galAnswer q.place a s')) ∧
    (q.port = 34 → exec (.galleryRequest cl 1) s = .next (galAnswer q.place a s'))) ∧
  (∀ (s : State) cl sh (b : Fin 8) y w k x, (FMap.vals s.shares).filter (fun sh => sh.cl == cl && s.live sh) = [sh] →
    s.share? sh.gang sh.rank = some sh → s.bayAt sh.gang sh.rank b.val = some y →
    (∀ j, j ≠ b.val → s.bayAt sh.gang sh.rank j = none) → y.fifo = [w] → y.freeSlot? s.clk = some k →
    y.slots[k]? = some x → waiterHere w s = true →
    exec (.galleryHandout cl) s = .next (answerWait w.place (.allocating (handleOf sh b.val k x.gen).toNat)
      (fillSlot sh.gang sh.rank b.val k w.cnt (modBay sh.gang sh.rank b.val (fun y => { y with fifo := [] }) s)))) ∧
  (∀ (s : State) g r (b : Fin 8) y c w, s.bayAt g r b.val = some y → y.freeSlot? s.clk = none → y.wd = some c →
    c + 65536 ≤ s.clk → s.shareLive g r = true → y.fifo = [w] → waiterHere w s = true →
    exec (.bayWatchdogExpiry g r b) s = .next (modBay g r b.val (fun y => ({ y with fifo := [] }).watch s.clk true)
      (answerWait w.place (.answered false (ofN Cause.bayStall) w.ref)
        (recordFault w.place w.pc w.ref Cause.bayStall s))))

/-! ### Heat, power, boot; errors and links -/

/-- 17 R373, R374, R378, R380; 04 R95; 03 R71. A sample sets the sensor, the throttle and the eligibility, and trips at
110.0 °C (a cluster) or 105.0 °C (a landing); a clean window after a cool sample makes a cluster eligible again; a power
sample over a limit starts the skip, and eight clean ones end it; a droop event skips 8 clk; boot starts the firmware
column, or enters *recovery* with its cause and FEATLOCK 0; device reset ends everything but fuses and TRIPCNT, and DRAM and
the scratchpads then hold free values; an SPDM response carries the four measurements, signed. What the sensors read at
reset and when the windows begin, and that a sensor is sampled once in a 1 µs interval, is log 7; what a device reset keeps and
leaves in memory is log 29; what a response is made of, and the hash and the signature as opaque functions, is log 63; where the contexts
of the column start is log 95. -/
def Obligations.HeatPowerAndBoot : Prop :=
  (∀ (s : State) c t, c < 192 → (s.cluster c).lastSample ≠ micro s.clk → ∃ u, exec (.temperatureSample c t) s = .next u ∧
    let o := s.cluster c
    (u.cluster c).temp = t ∧ (u.cluster c).hot = (if 1000 ≤ t then true else if t < 970 then false else o.hot) ∧
    (u.cluster c).eligible = (o.eligible && !(decide (950 ≤ t) || decide (16 ≤ o.droops.sum))) ∧
    u.pkg.boot = (if 1100 ≤ t then .tripped else s.pkg.boot) ∧
    u.pkg.tripCnt = (if 1100 ≤ t then s.pkg.tripCnt + 1 else s.pkg.tripCnt) ∧
    (∀ k, k ≠ c → u.cluster k = s.cluster k) ∧ u.threads = s.threads ∧ u.dram = s.dram) ∧
  (∀ (s : State) c t, (c < 192 → (s.cluster c).lastSample = micro s.clk) →
    (192 ≤ c → (s.landing (c - 192)).lastSample = micro s.clk) → exec (.temperatureSample c t) s = .next s) ∧
  (∀ (s : State) l t, l < 8 → (s.landing l).lastSample ≠ micro s.clk → ∃ u, exec (.temperatureSample (192 + l) t) s = .next u ∧ (u.landing l).temp = t ∧
    u.pkg.boot = (if 1050 ≤ t then .tripped else s.pkg.boot) ∧
    u.pkg.tripCnt = (if 1050 ≤ t then s.pkg.tripCnt + 1 else s.pkg.tripCnt) ∧ u.clusters = s.clusters) ∧
  (∀ s : State, (s.clk < s.disp.winStart + 110000 → exec .eligibilityWindowEnd s = .next s) ∧
    (s.disp.winStart + 110000 ≤ s.clk → ∃ u, exec .eligibilityWindowEnd s = .next u ∧
      u.disp.winStart = s.disp.winStart + 110000 ∧
      ∀ c x, FMap.get? s.clusters c = some x → (u.cluster c).winClean = true ∧
        (u.cluster c).eligible = (x.eligible || (x.winClean && x.coolSince.any fun k => decide (k < s.disp.winStart))))) ∧
  (∀ (s : State) a w, let cap := s.pkg.pwrCap.toNat
    let above := 9000 < a ∨ cap < w
    let clean := a * 100 < 9000 * 95 ∧ w * 100 < cap * 95
    let to_ (b : Bool) (n : Nat) : Host.Outcome State Fault Refusal :=
      .next { s with pkg := { s.pkg with pwrNow := ofN w, skip := b, cleanSamples := n, lastSample := micro s.clk } }
    (s.pkg.lastSample = micro s.clk → exec (.powerSample a w) s = .next s) ∧
    (s.pkg.lastSample ≠ micro s.clk → (above → exec (.powerSample a w) s = to_ true 0) ∧
    (¬ above → s.pkg.skip = false → exec (.powerSample a w) s = to_ false s.pkg.cleanSamples) ∧
    (¬ above → s.pkg.skip = true → ¬ clean → exec (.powerSample a w) s = to_ true 0) ∧
    (¬ above → s.pkg.skip = true → clean → s.pkg.cleanSamples < 7 →
      exec (.powerSample a w) s = to_ true (s.pkg.cleanSamples + 1)) ∧
    (¬ above → s.pkg.skip = true → clean → 7 ≤ s.pkg.cleanSamples → exec (.powerSample a w) s = to_ false 0))) ∧
  (∀ (s : State) c, c < 192 → ∃ u, exec (.droopEvent c) s = .next u ∧ (u.cluster c).skipUntil = s.clk + 8 ∧
    (u.cluster c).droops.sum = (s.cluster c).droops.sum + 1 ∧ u.threads = s.threads ∧ u.dram = s.dram) ∧
  (∀ (s : State) ecdsa lms, s.pkg.boot = .unbooted →
    let rec_ (n : Nat) : Host.Outcome State Fault Refusal :=
      .next { s with pkg := { s.pkg with boot := .recovery, bootstat := n, featLock := false } }
    exec (.eopraBoot none ecdsa lms) s = rec_ 3 ∧
    ∀ (x : Eopra) image, ((ecdsa && lms) = false → exec (.eopraBoot (some ⟨x, image⟩) ecdsa lms) s = rec_ 1) ∧
      (ecdsa = true → lms = true → x.version < s.pkg.fuses.version →
        exec (.eopraBoot (some ⟨x, image⟩) ecdsa lms) s = rec_ 2) ∧
      (ecdsa = true → lms = true → s.pkg.fuses.version ≤ x.version → x.wf = true →
        ∃ u, exec (.eopraBoot (some ⟨x, image⟩) ecdsa lms) s = .next u ∧
          u.pkg = { s.pkg with boot := .running, bootstat := 0, eopra := x, firmware := image } ∧
          (∀ cl c, cl < 48 → cl % 8 = 0 → 32 - x.pagers - x.column ≤ c → c < 32 - x.pagers →
            (u.thread (.ctx cl c 0)).pc = Config.columnStart cl c ∧ (u.thread (.ctx cl c 0)).mode = true ∧
            (u.thread (.ctx cl c 0)).run = .running) ∧
          (∀ q, (∀ cl c, cl < 48 → cl % 8 = 0 → 32 - x.pagers - x.column ≤ c → c < 32 - x.pagers →
            q.key ≠ (Place.ctx cl c 0).key) → u.thread q = s.thread q) ∧
          u.dram = s.dram ∧ u.clusters = s.clusters)) ∧
  (∀ s : State, ∃ u, exec .deviceReset s = .next u ∧ u.gangs = [] ∧ u.shares = [] ∧
    u.threads = [] ∧ u.mesh = [] ∧ u.pkg.boot = .unbooted ∧ u.pkg.featLock = false ∧ u.pkg.featAck = 0 ∧
    u.pkg.fuses = s.pkg.fuses ∧ u.pkg.tripCnt = s.pkg.tripCnt ∧ u.pkg.errCnt = [] ∧ u.clk = 0 ∧
    u.dram = (Config.resetDram s.frees).foldl (fun m x => Memory.setByte m x.1 x.2) [] ∧
    (∀ cl, cl < 192 → (u.cluster cl).spad =
      ((Config.resetSpads s.frees).filter fun x => x.1 == cl && decide (x.2.1 < 0x200000)).foldl
        (fun m x => Memory.setByte m x.2.1 x.2.2) [])) ∧
  (∀ (s : State) n,
    let ms := [Config.measure (.bootRom s.pkg.fuses.rom), Config.measure (.eopra s.pkg.eopra),
      Config.measure (.firmware s.pkg.firmware), Config.measure (.featcap s.pkg.fuses.featcap)]
    exec (.spdmRequest n) s = .next { s with pkg := { s.pkg with spdm := s.pkg.spdm ++
      [{ nonce := n, measured := ms, sig := Config.sign (Config.identityKey s.pkg.fuses.secret) n ms }] } })

/-- 15 R355-R357; 17 R375-R377; 13 R316, R318. An event counts in its unit and leaves a record unless one is pending; a
die's log takes the record of its lowest unit, or is marked when full; a data error in what a thread uses is a precise
trap; the eighth failed retry of one flit, or a missing acknowledgement, fails a link; with a path left no die is fenced, and
else the dies that none reaches are: each thread of a context there has ended, and each gang with a share there is marked; a
link is restored when software has asked for it. A Novilo frame of copy data lands at its home and is acknowledged, and one
of messages is delivered, once and in order. In which die's log the record of a link stands is log 30; that a data error
withdraws what a waiting thread has asked for is log 33; how frames are numbered and acknowledged is log 37. -/
def Obligations.ErrorsAndLinks : Prop :=
  (∀ (s : State) u k a, unitOk u = true → ∃ t, exec (.errorEvent u k a) s = .next t ∧
    let n := FMap.getD s.pkg.errCnt u 0 + 1
    FMap.getD t.pkg.errCnt u 0 = n ∧ (∀ j, j ≠ u → FMap.getD t.pkg.errCnt j 0 = FMap.getD s.pkg.errCnt j 0) ∧
    (∀ r, FMap.get? s.pkg.errPend u = some r → FMap.get? t.pkg.errPend u = some r) ∧
    (FMap.get? s.pkg.errPend u = none → ∃ r, FMap.get? t.pkg.errPend u = some r ∧ wbits r.w0 15 0 = u % 65536 ∧
      wbits r.w0 63 24 = n.toNat % 2 ^ 40 ∧ r.w1 = ofN a) ∧
    (k = 1 → 3072 ≤ u → u < 3584 → s.inDram a = true → FMap.get? t.pkg.poison (a / 128) = some 0) ∧
    t.threads = s.threads ∧ t.dram = s.dram) ∧
  (∀ (s : State) (d : Fin 4) e l, s.pkg.errPend.find? (fun e => unitDie e.1 == d.val) = some e →
    s.pkg.logs[d.val]? = some l → l.next ≤ s.clk → l.head.toNat ≤ l.tail → l.tail < 2 ^ 63 - 1 →
    ∃ t, exec (.errorLogCapture d) s = .next t ∧ t.pkg.errPend = FMap.del s.pkg.errPend e.1 ∧
      t.pkg.logs[d.val]? = some (if 64 ≤ l.tail - l.head.toNat then { l with ovf := true, next := s.clk + 1 }
        else { l with recs := FMap.put l.recs (l.tail % 64) e.2, tail := l.tail + 1, next := s.clk + 1 })) ∧
  (∀ (s : State) p t a, s.thread? p = some t → t.unended = true → s.interrupted p = false →
    (t.run = .running → a ≠ t.pc ∧ readsRegister p s = true) →
    let s₁ := abandon p (forceLoads p s)
    (s₁.tvecOf p).toNat % 4 = 0 →
    ∃ u, exec (.dataError (.thread p) a) s = .next u ∧ Trapped p Cause.dataError a t.pc s₁ u) ∧
  (∀ (s : State) p t a, s.thread? p = some t → t.run = .running → s.interrupted p = false →
    (a = t.pc → exec (.dataError (.thread p) a) s = .next (fetchFault Cause.dataError p s)) ∧
    (a ≠ t.pc → readsRegister p s = false → exec (.dataError (.thread p) a) s = .next s)) ∧
  (∀ (s : State) (k : Fin 4) flit ok m, s.pkg.linkFail = [false, false, false, false] →
    s.pkg.linkTry[k.val]? = some m →
    let n := FMap.getD m flit 0 + 1
    (ok = true ∨ n < 8 → ∃ t, exec (.linkFlitRetry k ⟨flit, ok⟩) s = .next t ∧ t.pkg.linkFail = s.pkg.linkFail ∧
      (∃ m', t.pkg.linkTry[k.val]? = some m' ∧ FMap.getD m' flit 0 = (if ok then 0 else n) ∧
        ∀ j, j ≠ flit → FMap.getD m' j 0 = FMap.getD m j 0) ∧
      (∀ j, j ≠ k.val → t.pkg.linkTry[j]? = s.pkg.linkTry[j]?) ∧
      FMap.getD t.pkg.errCnt (3840 + k.val) 0 = FMap.getD s.pkg.errCnt (3840 + k.val) 0 + 1) ∧
    (ok = false → 8 ≤ n → ∃ t, exec (.linkFlitRetry k ⟨flit, ok⟩) s = .next t ∧
      t.pkg.linkFail = s.pkg.linkFail.set k.val true ∧ t.pkg.fenced = s.pkg.fenced ∧ t.gangs = s.gangs)) ∧
  (∀ (s : State) (k : Fin 4), s.pkg.linkFail = [false, false, false, false] →
    ∃ t, exec (.linkAckTimeout k) s = .next t ∧ t.pkg.linkFail = s.pkg.linkFail.set k.val true ∧
      t.pkg.fenced = s.pkg.fenced ∧ t.gangs = s.gangs ∧
      FMap.getD t.pkg.errCnt (3840 + k.val) 0 = FMap.getD s.pkg.errCnt (3840 + k.val) 0 + 1) ∧
  (∀ (s : State) (k : Fin 4), s.pkg.linkFail[k.val]? = some false → s.pkg.fenced = [] →
    ∃ t, exec (.linkAckTimeout k) s = .next t ∧ t.pkg.linkFail = s.pkg.linkFail.set k.val true ∧
      t.pkg.fenced = (List.range 4).filter (fun d => !t.reached.contains d) ∧
      (∀ cl c n, cl < 192 → c < 32 → n < 4 → cl / 48 ∈ t.pkg.fenced → (s.thread? (.ctx cl c n)).isSome = true →
        (t.thread (.ctx cl c n)).run = .retired) ∧
      (∀ sh ∈ FMap.vals s.shares, sh.cl / 48 ∈ t.pkg.fenced → ∀ x, s.gang? sh.gang = some x → x.id = sh.gang →
        ∃ y, t.gang? sh.gang = some y ∧ y.summary.fenced = true)) ∧
  (∀ (s : State) (k : Fin 4), s.pkg.linkFail[k.val]? = some true → s.pkg.fenced = [] →
    (s.pkg.linkAsk[k.val]? = some false → exec (.linkRestore k) s = .next s) ∧
    (s.pkg.linkAsk[k.val]? = some true → exec (.linkRestore k) s = .next { s with pkg := { s.pkg with
      linkFail := s.pkg.linkFail.set k.val false, linkAsk := s.pkg.linkAsk.set k.val false } })) ∧
  (∀ (s : State) (f : NvFrame), let got : Instr := .noviloFrameReceive f.toNvHead f.body
    f.wf = true → f.etherType = s.pkg.eopra.etherType →
    let due := FMap.getD s.pkg.nvGot (f.port * 256 + f.peer) 0
    let back : NvSent := { frame := { f with body := .ack }, reg := none, left := true, acked := false }
    let counted := FMap.put s.pkg.nvGot (f.port * 256 + f.peer) (f.number + 1)
    (∀ pa bs, f.body = .data [(pa, bs)] → f.number = due → bs ≠ [] → pa % 128 + bs.length ≤ 128 →
      inInterleaved pa bs.length s = true → s.homeDie pa ∉ s.pkg.fenced → s.stores = [] → s.sharersOf (pa / 128) = [] →
      ∃ t, exec got s = .next t ∧ t.dram = Memory.write s.dram pa bs.length (leNat bs) ∧
        t.pkg.nvGot = counted ∧ t.pkg.novilo = s.pkg.novilo ++ [back] ∧ t.threads = s.threads) ∧
    (∀ ms, f.body = .messages ms → f.number = due → exec got s = .next { s with
      pkg := { s.pkg with nvGot := counted, nvIn := s.pkg.nvIn ++ ms.map fun m => (f.port, f.peer, m) } }) ∧
    (∀ ms, f.body = .messages ms → f.number ≠ due → exec got s = .next s) ∧
    (∀ ws, f.body = .data ws → due < f.number → exec got s = .next s) ∧
    (∀ ws, f.body = .data ws → f.number < due → exec got s = .next { s with
      pkg := { s.pkg with novilo := s.pkg.novilo ++ [back] } }) ∧
    (f.body = .ack → exec got s = .next { s with pkg := { s.pkg with
      novilo := s.pkg.novilo.map fun x => if x.answered f then { x with acked := true } else x } })) ∧
  (∀ (s : State) (f : NvFrame), f.etherType ≠ s.pkg.eopra.etherType →
    exec (.noviloFrameReceive f.toNvHead f.body) s = .next s)

/-! ### Addresses and the memories -/

/-- 01 R22-R25; 09 R217; 15 R340, R341, R343. An address that is no multiple of its access's size, or not canonical,
faults; one of the own cluster's window in the RAW view names the share's storage within its size; one of the window of a
rank that the gang does not have faults; any other is walked for: four levels of entries lead to a leaf, a failed walk is reported with its reason and level, an entry in a line with
a data error makes the access a data error, a page that does not permit the access faults, and one that does leads to
the physical address of the leaf's frame, where its home is on no fenced die. A CAS that fails has found another entry at the home than the walker read, and
an access whose two CAS have failed is reported as contended. Which stores come between a walk and its CAS is a free
value (log 20). -/
def Obligations.AddressesAreRouted : Prop :=
  (∀ g a w need (s : State), (canonical a = false ∨ a.toNat % w ≠ 0) → route g a w need s = (.bad Cause.access, s)) ∧
  (∀ g o w need (s : State) cl sh, g.cl = some cl → s.share? g.gang g.rank = some sh → sh.cl = cl → need ≠ .exec →
    cl / 48 ∉ s.pkg.fenced → o < 0x200000 → o % w = 0 → w = 1 ∨ w = 2 ∨ w = 4 ∨ w = 8 →
    let a := ofN (0x00FFFF0000000000 + o)
    (o + w ≤ sh.spadSize → route g a w need s = (.to (.spad cl (sh.spadBase + o) 0 sh.gang sh.rank), s)) ∧
    (sh.spadSize < o + w → route g a w need s = (.bad Cause.access, s))) ∧
  (∀ g k o w need (s : State), k < 65536 → o < 0x800000 → s.share? g.gang k = none →
    route g (rankAddr k o) w need s = (.bad Cause.access, s)) ∧
  (∀ (s : State) root va,
    let e (t : Nat) (k : Nat) := ofN (Memory.read s.dram (t + 8 * wbits va (55 - 10 * k) (46 - 10 * k)) 8)
    let nextOf (v : Word) := wbits v 51 13 * 8192
    let down (v : Word) (k : Nat) := wbit v 0 = true ∧ s.entryOk v k = true ∧ wbit v 7 = false
    let t₁ := nextOf (e root 0)
    let t₂ := nextOf (e t₁ 1)
    let t₃ := nextOf (e t₂ 2)
    (wbit (e root 0) 0 = false → s.walk root va = .fail 0 0) ∧
    (down (e root 0) 0 → down (e t₁ 1) 1 → down (e t₂ 2) 2 →
      (wbit (e t₃ 3) 0 = false → s.walk root va = .fail 0 3) ∧
      (wbit (e t₃ 3) 0 = true → s.entryOk (e t₃ 3) 3 = false → s.walk root va = .fail 1 3) ∧
      (wbit (e t₃ 3) 0 = true → s.entryOk (e t₃ 3) 3 = true →
        s.walk root va = .leaf (e t₃ 3) (t₃ + 8 * wbits va 25 16) 0))) ∧
  (∀ (s : State) g a w need x, canonical a = true → a.toNat % w = 0 → inWindow a = false → s.gang? g.gang = some x →
    s.tlb.find? (·.hits g.die (sliceOf a.toNat) g.gang a) = none →
    let r := walkReads a 4 x.root 0 s
    (r.1 = true → route g a w need s = (.bad Cause.dataError, r.2)) ∧
    (s.stores = [] → s.pkg.poison = [] →
      (∀ c l, s.walk x.root a = .fail c l → route g a w need s = (.missed c l, r.2) ∧ r.2.dram = s.dram) ∧
      (∀ pte at_ up, s.walk x.root a = .leaf pte at_ up → permits pte need g.user = false → ∃ t,
        route g a w need s = (.bad Cause.access, t)) ∧
      (∀ pte at_ up, s.walk x.root a = .leaf pte at_ up → permits pte need g.user = true → g.col = none →
        let pa := wbits pte 51 13 * 8192 + a.toNat % 2 ^ (16 + 10 * up)
        s.inDram pa = true → (s.homeDie pa ∈ s.pkg.fenced → ∃ t, route g a w need s = (.bad Cause.dieFence, t)) ∧
          (s.homeDie pa ∉ s.pkg.fenced → ∃ t mca nc cmp,
            route g a w need s = (.to (.dram pa mca nc cmp), t) ∧ mca = (!s.pkg.featAck.getLsbD 1 || wbit pte 11) ∧
            nc = wbit pte 63 ∧ cmp = (s.pkg.featAck.getLsbD 2 && wbit pte 12))))) ∧
  (∀ j at_ pte d (s t : State), casEntry j at_ pte d s = (none, t) → ofN (Memory.read t.dram at_ 8) ≠ pte) ∧
  (∀ j at_ pte d e (s t : State), casEntry j at_ pte d s = (some e, t) → e = marked pte d) ∧
  (∀ (s : State) g a w need, canonical a = true → a.toNat % w = 0 → inWindow a = false →
    s.tlb.find? (·.hits g.die (sliceOf a.toNat) g.gang a) = none → (walkTwice g a need s).1 = none →
    ∃ l t, route g a w need s = (.missed 2 l, t))

/-- The memories and the maps over them stay in their canonical form at every step of every mover: DRAM and every
scratchpad list rising addresses and no byte that reads as an unlisted one, and so for the slices' copies and the
directory. The form is the model's own (log 6). -/
def Obligations.StepKeepsMemoryCanonical : Prop := ∀ s t, s.Canonical → step s = .next t → t.Canonical
end

