-- ==== Sys2Proof/Laws/Dispatch.lean ====
section
/-!
SUPPORT. The dispatcher, arm by arm: what each instruction's execution calls.
-/

namespace Sys2Proof.Machine

theorem exec_add (d a b : Reg) (s : State) : exec (.add d a b) s = execAdd d a b s := rfl
theorem exec_sub (d a b : Reg) (s : State) : exec (.sub d a b) s = execSub d a b s := rfl
theorem exec_and (d a b : Reg) (s : State) : exec (.and d a b) s = execAnd d a b s := rfl
theorem exec_or (d a b : Reg) (s : State) : exec (.or d a b) s = execOr d a b s := rfl
theorem exec_xor (d a b : Reg) (s : State) : exec (.xor d a b) s = execXor d a b s := rfl
theorem exec_andn (d a b : Reg) (s : State) : exec (.andn d a b) s = execAndn d a b s := rfl
theorem exec_orn (d a b : Reg) (s : State) : exec (.orn d a b) s = execOrn d a b s := rfl
theorem exec_xnor (d a b : Reg) (s : State) : exec (.xnor d a b) s = execXnor d a b s := rfl
theorem exec_shl (d a b : Reg) (s : State) : exec (.shl d a b) s = execShl d a b s := rfl
theorem exec_shr (d a b : Reg) (s : State) : exec (.shr d a b) s = execShr d a b s := rfl
theorem exec_sar (d a b : Reg) (s : State) : exec (.sar d a b) s = execSar d a b s := rfl
theorem exec_rol (d a b : Reg) (s : State) : exec (.rol d a b) s = execRol d a b s := rfl
theorem exec_ror (d a b : Reg) (s : State) : exec (.ror d a b) s = execRor d a b s := rfl
theorem exec_mul (d a b : Reg) (s : State) : exec (.mul d a b) s = execMul d a b s := rfl
theorem exec_mulh (d a b : Reg) (s : State) : exec (.mulh d a b) s = execMulh d a b s := rfl
theorem exec_mulhu (d a b : Reg) (s : State) : exec (.mulhu d a b) s = execMulhu d a b s := rfl
theorem exec_div (d a b : Reg) (s : State) : exec (.div d a b) s = execDiv d a b s := rfl
theorem exec_divu (d a b : Reg) (s : State) : exec (.divu d a b) s = execDivu d a b s := rfl
theorem exec_rem (d a b : Reg) (s : State) : exec (.rem d a b) s = execRem d a b s := rfl
theorem exec_remu (d a b : Reg) (s : State) : exec (.remu d a b) s = execRemu d a b s := rfl
theorem exec_min (d a b : Reg) (s : State) : exec (.min d a b) s = execMin d a b s := rfl
theorem exec_max (d a b : Reg) (s : State) : exec (.max d a b) s = execMax d a b s := rfl
theorem exec_minu (d a b : Reg) (s : State) : exec (.minu d a b) s = execMinu d a b s := rfl
theorem exec_maxu (d a b : Reg) (s : State) : exec (.maxu d a b) s = execMaxu d a b s := rfl
theorem exec_slt (d a b : Reg) (s : State) : exec (.slt d a b) s = execSlt d a b s := rfl
theorem exec_sltu (d a b : Reg) (s : State) : exec (.sltu d a b) s = execSltu d a b s := rfl
theorem exec_clz (d a : Reg) (s : State) : exec (.clz d a) s = execClz d a s := rfl
theorem exec_ctz (d a : Reg) (s : State) : exec (.ctz d a) s = execCtz d a s := rfl
theorem exec_pop (d a : Reg) (s : State) : exec (.pop d a) s = execPop d a s := rfl
theorem exec_brev (d a : Reg) (s : State) : exec (.brev d a) s = execBrev d a s := rfl
theorem exec_bswap (d a : Reg) (s : State) : exec (.bswap d a) s = execBswap d a s := rfl
theorem exec_sextB (d a : Reg) (s : State) : exec (.sextB d a) s = execSextB d a s := rfl
theorem exec_sextH (d a : Reg) (s : State) : exec (.sextH d a) s = execSextH d a s := rfl
theorem exec_sextW (d a : Reg) (s : State) : exec (.sextW d a) s = execSextW d a s := rfl
theorem exec_zextB (d a : Reg) (s : State) : exec (.zextB d a) s = execZextB d a s := rfl
theorem exec_zextH (d a : Reg) (s : State) : exec (.zextH d a) s = execZextH d a s := rfl
theorem exec_zextW (d a : Reg) (s : State) : exec (.zextW d a) s = execZextW d a s := rfl
theorem exec_addw (d a b : Reg) (s : State) : exec (.addw d a b) s = execAddw d a b s := rfl
theorem exec_subw (d a b : Reg) (s : State) : exec (.subw d a b) s = execSubw d a b s := rfl
theorem exec_mulw (d a b : Reg) (s : State) : exec (.mulw d a b) s = execMulw d a b s := rfl
theorem exec_addi (d a : Reg) (i : BitVec 17) (s : State) : exec (.addi d a i) s = execAddi d a i s := rfl
theorem exec_andi (d a : Reg) (i : BitVec 17) (s : State) : exec (.andi d a i) s = execAndi d a i s := rfl
theorem exec_ori (d a : Reg) (i : BitVec 17) (s : State) : exec (.ori d a i) s = execOri d a i s := rfl
theorem exec_xori (d a : Reg) (i : BitVec 17) (s : State) : exec (.xori d a i) s = execXori d a i s := rfl
theorem exec_shli (d a : Reg) (n : Fin 64) (s : State) : exec (.shli d a n) s = execShli d a n s := rfl
theorem exec_shri (d a : Reg) (n : Fin 64) (s : State) : exec (.shri d a n) s = execShri d a n s := rfl
theorem exec_sari (d a : Reg) (n : Fin 64) (s : State) : exec (.sari d a n) s = execSari d a n s := rfl
theorem exec_roli (d a : Reg) (n : Fin 64) (s : State) : exec (.roli d a n) s = execRoli d a n s := rfl
theorem exec_slti (d a : Reg) (i : BitVec 17) (s : State) : exec (.slti d a i) s = execSlti d a i s := rfl
theorem exec_lui (d : Reg) (i : BitVec 22) (s : State) : exec (.lui d i) s = execLui d i s := rfl
theorem exec_luih (d : Reg) (i : BitVec 22) (s : State) : exec (.luih d i) s = execLuih d i s := rfl
theorem exec_addpc (d : Reg) (i : BitVec 22) (s : State) : exec (.addpc d i) s = execAddpc d i s := rfl
theorem exec_lea (d a b : Reg) (c0 : Fin 8) (i : BitVec 7) (s : State) :
    exec (.lea d a b c0 i) s = execLea d a b c0 i s := rfl
theorem exec_bfxu (d a : Reg) (l p : Fin 64) (s : State) : exec (.bfxu d a l p) s = execBfxu d a l p s := rfl
theorem exec_bfx (d a : Reg) (l p : Fin 64) (s : State) : exec (.bfx d a l p) s = execBfx d a l p s := rfl
theorem exec_bfi (d a : Reg) (l p : Fin 64) (s : State) : exec (.bfi d a l p) s = execBfi d a l p s := rfl
theorem exec_mhpk (d a b : Reg) (l : Fin 8) (s : State) : exec (.mhpk d a b l) s = execMhpk d a b l s := rfl
theorem exec_mhun (c0 : Bool) (d a : Reg) (l : Fin 8) (s : State) :
    exec (.mhun c0 d a l) s = execMhun c0 d a l s := rfl
theorem exec_layw (a b : Reg) (s : State) : exec (.layw a b) s = execLayw a b s := rfl
theorem exec_layr (d a : Reg) (s : State) : exec (.layr d a) s = execLayr d a s := rfl
theorem exec_prdx (d : Reg) (g : Fin 3) (s : State) : exec (.prdx d g) s = execPrdx d g s := rfl
theorem exec_xprd (a : Reg) (g : Fin 3) (s : State) : exec (.xprd a g) s = execXprd a g s := rfl
theorem exec_pcmp (c : Cc) (p : Pred) (a b : Reg) (s : State) : exec (.pcmp c p a b) s = execPcmp c p a b s := rfl
theorem exec_pcmpi (c : Cc) (p : Pred) (a : Reg) (i : BitVec 5) (s : State) :
    exec (.pcmpi c p a i) s = execPcmpi c p a i s := rfl
theorem exec_fcmp (c : Fcc) (p : Pred) (a b : Reg) (s : State) : exec (.fcmp c p a b) s = execFcmp c p a b s := rfl
theorem exec_pand (p a b : Pred) (s : State) : exec (.pand p a b) s = execPand p a b s := rfl
theorem exec_por (p a b : Pred) (s : State) : exec (.por p a b) s = execPor p a b s := rfl
theorem exec_pxor (p a b : Pred) (s : State) : exec (.pxor p a b) s = execPxor p a b s := rfl
theorem exec_pandn (p a b : Pred) (s : State) : exec (.pandn p a b) s = execPandn p a b s := rfl
theorem exec_porn (p a b : Pred) (s : State) : exec (.porn p a b) s = execPorn p a b s := rfl
theorem exec_pnot (p a : Pred) (s : State) : exec (.pnot p a) s = execPnot p a s := rfl
theorem exec_br (o : BitVec 25) (s : State) : exec (.br o) s = execBr o s := rfl
theorem exec_call (o : BitVec 25) (s : State) : exec (.call o) s = execCall o s := rfl
theorem exec_brp (p : Pred) (o : BitVec 18) (s : State) : exec (.brp p o) s = execBrp p o s := rfl
theorem exec_brn (p : Pred) (o : BitVec 18) (s : State) : exec (.brn p o) s = execBrn p o s := rfl
theorem exec_jmpr (a : Reg) (s : State) : exec (.jmpr a) s = execJmpr a s := rfl
theorem exec_callr (a : Reg) (s : State) : exec (.callr a) s = execCallr a s := rfl
theorem exec_ret (s : State) : exec .ret s = execRet s := rfl
theorem exec_fadd (r : Rnd) (d a b : Reg) (s : State) : exec (.fadd r d a b) s = execFadd r d a b s := rfl
theorem exec_fsub (r : Rnd) (d a b : Reg) (s : State) : exec (.fsub r d a b) s = execFsub r d a b s := rfl
theorem exec_fmul (r : Rnd) (d a b : Reg) (s : State) : exec (.fmul r d a b) s = execFmul r d a b s := rfl
theorem exec_fdiv (r : Rnd) (d a b : Reg) (s : State) : exec (.fdiv r d a b) s = execFdiv r d a b s := rfl
theorem exec_fsqrt (r : Rnd) (d a : Reg) (s : State) : exec (.fsqrt r d a) s = execFsqrt r d a s := rfl
theorem exec_fmin (r : Rnd) (d a b : Reg) (s : State) : exec (.fmin r d a b) s = execFmin r d a b s := rfl
theorem exec_fmax (r : Rnd) (d a b : Reg) (s : State) : exec (.fmax r d a b) s = execFmax r d a b s := rfl
theorem exec_fabs (r : Rnd) (d a : Reg) (s : State) : exec (.fabs r d a) s = execFabs r d a s := rfl
theorem exec_fneg (r : Rnd) (d a : Reg) (s : State) : exec (.fneg r d a) s = execFneg r d a s := rfl
theorem exec_fsgnj (r : Rnd) (d a b : Reg) (s : State) : exec (.fsgnj r d a b) s = execFsgnj r d a b s := rfl
theorem exec_frcp (r : Rnd) (d a : Reg) (s : State) : exec (.frcp r d a) s = execFrcp r d a s := rfl
theorem exec_frsq (r : Rnd) (d a : Reg) (s : State) : exec (.frsq r d a) s = execFrsq r d a s := rfl
theorem exec_fexp2 (r : Rnd) (d a : Reg) (s : State) : exec (.fexp2 r d a) s = execFexp2 r d a s := rfl
theorem exec_flog2 (r : Rnd) (d a : Reg) (s : State) : exec (.flog2 r d a) s = execFlog2 r d a s := rfl
theorem exec_fsin (r : Rnd) (d a : Reg) (s : State) : exec (.fsin r d a) s = execFsin r d a s := rfl
theorem exec_fcos (r : Rnd) (d a : Reg) (s : State) : exec (.fcos r d a) s = execFcos r d a s := rfl
theorem exec_fclass (r : Rnd) (d a : Reg) (s : State) : exec (.fclass r d a) s = execFclass r d a s := rfl
theorem exec_f2i (r : Rnd) (d a : Reg) (s : State) : exec (.f2i r d a) s = execF2i r d a s := rfl
theorem exec_f2iu (r : Rnd) (d a : Reg) (s : State) : exec (.f2iu r d a) s = execF2iu r d a s := rfl
theorem exec_i2f (r : Rnd) (d a : Reg) (s : State) : exec (.i2f r d a) s = execI2f r d a s := rfl
theorem exec_iu2f (r : Rnd) (d a : Reg) (s : State) : exec (.iu2f r d a) s = execIu2f r d a s := rfl
theorem exec_f2bf (r : Rnd) (d a : Reg) (s : State) : exec (.f2bf r d a) s = execF2bf r d a s := rfl
theorem exec_bf2f (r : Rnd) (d a : Reg) (s : State) : exec (.bf2f r d a) s = execBf2f r d a s := rfl
theorem exec_f2h (r : Rnd) (d a : Reg) (s : State) : exec (.f2h r d a) s = execF2h r d a s := rfl
theorem exec_h2f (r : Rnd) (d a : Reg) (s : State) : exec (.h2f r d a) s = execH2f r d a s := rfl
theorem exec_hadd2 (r : Rnd) (d a b : Reg) (s : State) : exec (.hadd2 r d a b) s = execHadd2 r d a b s := rfl
theorem exec_hmul2 (r : Rnd) (d a b : Reg) (s : State) : exec (.hmul2 r d a b) s = execHmul2 r d a b s := rfl
theorem exec_hmin2 (r : Rnd) (d a b : Reg) (s : State) : exec (.hmin2 r d a b) s = execHmin2 r d a b s := rfl
theorem exec_hmax2 (r : Rnd) (d a b : Reg) (s : State) : exec (.hmax2 r d a b) s = execHmax2 r d a b s := rfl
theorem exec_fmvXf (r : Rnd) (d a : Reg) (s : State) : exec (.fmvXf r d a) s = execFmvXf r d a s := rfl
theorem exec_fmvFx (r : Rnd) (d a : Reg) (s : State) : exec (.fmvFx r d a) s = execFmvFx r d a s := rfl
theorem exec_fma (r : Rnd) (d a b c : Reg) (s : State) : exec (.fma r d a b c) s = execFma r d a b c s := rfl
theorem exec_fms (r : Rnd) (d a b c : Reg) (s : State) : exec (.fms r d a b c) s = execFms r d a b c s := rfl
theorem exec_fnma (r : Rnd) (d a b c : Reg) (s : State) : exec (.fnma r d a b c) s = execFnma r d a b c s := rfl
theorem exec_fnms (r : Rnd) (d a b c : Reg) (s : State) : exec (.fnms r d a b c) s = execFnms r d a b c s := rfl
theorem exec_hfma2 (r : Rnd) (d a b c : Reg) (s : State) : exec (.hfma2 r d a b c) s = execHfma2 r d a b c s := rfl
theorem exec_hfma2h (r : Rnd) (d a b c : Reg) (s : State) : exec (.hfma2h r d a b c) s = execHfma2h r d a b c s := rfl
theorem exec_ldB (h : Hint) (d a : Reg) (o : BitVec 12) (s : State) : exec (.ldB h d a o) s = execLdB h d a o s := rfl
theorem exec_ldBu (h : Hint) (d a : Reg) (o : BitVec 12) (s : State) :
    exec (.ldBu h d a o) s = execLdBu h d a o s := rfl
theorem exec_ldH (h : Hint) (d a : Reg) (o : BitVec 12) (s : State) : exec (.ldH h d a o) s = execLdH h d a o s := rfl
theorem exec_ldHu (h : Hint) (d a : Reg) (o : BitVec 12) (s : State) :
    exec (.ldHu h d a o) s = execLdHu h d a o s := rfl
theorem exec_ldW (h : Hint) (d a : Reg) (o : BitVec 12) (s : State) : exec (.ldW h d a o) s = execLdW h d a o s := rfl
theorem exec_ldWu (h : Hint) (d a : Reg) (o : BitVec 12) (s : State) :
    exec (.ldWu h d a o) s = execLdWu h d a o s := rfl
theorem exec_ldD (h : Hint) (d a : Reg) (o : BitVec 12) (s : State) : exec (.ldD h d a o) s = execLdD h d a o s := rfl
theorem exec_fld (h : Hint) (d a : Reg) (o : BitVec 12) (s : State) : exec (.fld h d a o) s = execFld h d a o s := rfl
theorem exec_stB (h : Hint) (d a : Reg) (o : BitVec 12) (s : State) : exec (.stB h d a o) s = execStB h d a o s := rfl
theorem exec_stH (h : Hint) (d a : Reg) (o : BitVec 12) (s : State) : exec (.stH h d a o) s = execStH h d a o s := rfl
theorem exec_stW (h : Hint) (d a : Reg) (o : BitVec 12) (s : State) : exec (.stW h d a o) s = execStW h d a o s := rfl
theorem exec_stD (h : Hint) (d a : Reg) (o : BitVec 12) (s : State) : exec (.stD h d a o) s = execStD h d a o s := rfl
theorem exec_fst (h : Hint) (d a : Reg) (o : BitVec 12) (s : State) : exec (.fst h d a o) s = execFst h d a o s := rfl
theorem exec_lda (z : MemSize) (c0 : Scope) (d a : Reg) (i : BitVec 5) (s : State) :
    exec (.lda z c0 d a i) s = execLda z c0 d a i s := rfl
theorem exec_strel (z : MemSize) (c0 : Scope) (b a : Reg) (i : BitVec 5) (s : State) :
    exec (.strel z c0 b a i) s = execStrel z c0 b a i s := rfl
theorem exec_fence (c0 : Scope) (s : State) : exec (.fence c0) s = execFence c0 s := rfl
theorem exec_atomAdd (z : MemSize) (c0 : Scope) (d a b : Reg) (s : State) :
    exec (.atomAdd z c0 d a b) s = execAtomAdd z c0 d a b s := rfl
theorem exec_atomMin (z : MemSize) (c0 : Scope) (d a b : Reg) (s : State) :
    exec (.atomMin z c0 d a b) s = execAtomMin z c0 d a b s := rfl
theorem exec_atomMax (z : MemSize) (c0 : Scope) (d a b : Reg) (s : State) :
    exec (.atomMax z c0 d a b) s = execAtomMax z c0 d a b s := rfl
theorem exec_atomMinu (z : MemSize) (c0 : Scope) (d a b : Reg) (s : State) :
    exec (.atomMinu z c0 d a b) s = execAtomMinu z c0 d a b s := rfl
theorem exec_atomMaxu (z : MemSize) (c0 : Scope) (d a b : Reg) (s : State) :
    exec (.atomMaxu z c0 d a b) s = execAtomMaxu z c0 d a b s := rfl
theorem exec_atomAnd (z : MemSize) (c0 : Scope) (d a b : Reg) (s : State) :
    exec (.atomAnd z c0 d a b) s = execAtomAnd z c0 d a b s := rfl
theorem exec_atomOr (z : MemSize) (c0 : Scope) (d a b : Reg) (s : State) :
    exec (.atomOr z c0 d a b) s = execAtomOr z c0 d a b s := rfl
theorem exec_atomXor (z : MemSize) (c0 : Scope) (d a b : Reg) (s : State) :
    exec (.atomXor z c0 d a b) s = execAtomXor z c0 d a b s := rfl
theorem exec_atomSwap (z : MemSize) (c0 : Scope) (d a b : Reg) (s : State) :
    exec (.atomSwap z c0 d a b) s = execAtomSwap z c0 d a b s := rfl
theorem exec_cas (z : MemSize) (c0 : Scope) (d a b : Reg) (s : State) :
    exec (.cas z c0 d a b) s = execCas z c0 d a b s := rfl
theorem exec_amergeI (z : MemSize) (c0 : Scope) (a b : Reg) (s : State) :
    exec (.amergeI z c0 a b) s = execAmergeI z c0 a b s := rfl
theorem exec_amergeF (c0 : Scope) (a b : Reg) (s : State) : exec (.amergeF c0 a b) s = execAmergeF c0 a b s := rfl
theorem exec_pref (c0 : Scope) (a : Reg) (s : State) : exec (.pref c0 a) s = execPref c0 a s := rfl
theorem exec_cinv (c0 : Scope) (a : Reg) (s : State) : exec (.cinv c0 a) s = execCinv c0 a s := rfl
theorem exec_cflush (c0 : Scope) (a : Reg) (s : State) : exec (.cflush c0 a) s = execCflush c0 a s := rfl
theorem exec_sbind (c0 : Fin 4) (a : Reg) (s : State) : exec (.sbind c0 a) s = execSbind c0 a s := rfl
theorem exec_sclose (c0 : Fin 4) (s : State) : exec (.sclose c0) s = execSclose c0 s := rfl
theorem exec_sstat (d : Reg) (c0 : Fin 4) (s : State) : exec (.sstat d c0) s = execSstat d c0 s := rfl
theorem exec_tcopy (d a : Reg) (s : State) : exec (.tcopy d a) s = execTcopy d a s := rfl
theorem exec_tlwait (c0 : Scope) (a b : Reg) (s : State) : exec (.tlwait c0 a b) s = execTlwait c0 a b s := rfl
theorem exec_tlread (k : TlSel) (d a : Reg) (s : State) : exec (.tlread k d a) s = execTlread k d a s := rfl
theorem exec_tlarm (a b : Reg) (s : State) : exec (.tlarm a b) s = execTlarm a b s := rfl
theorem exec_galloc (d a b : Reg) (s : State) : exec (.galloc d a b) s = execGalloc d a b s := rfl
theorem exec_gtry (d a b : Reg) (s : State) : exec (.gtry d a b) s = execGtry d a b s := rfl
theorem exec_gseal (a : Reg) (s : State) : exec (.gseal a) s = execGseal a s := rfl
theorem exec_gtake (d a : Reg) (s : State) : exec (.gtake d a) s = execGtake d a s := rfl
theorem exec_gdone (a : Reg) (s : State) : exec (.gdone a) s = execGdone a s := rfl
theorem exec_gdrop (a b : Reg) (s : State) : exec (.gdrop a b) s = execGdrop a b s := rfl
theorem exec_gstatBay (d a : Reg) (s : State) : exec (.gstatBay d a) s = execGstatBay d a s := rfl
theorem exec_gstatTile (d a : Reg) (s : State) : exec (.gstatTile d a) s = execGstatTile d a s := rfl
theorem exec_gbay (d a b : Reg) (s : State) : exec (.gbay d a b) s = execGbay d a b s := rfl
theorem exec_wcfg (g : Cfg) (a : Reg) (s : State) : exec (.wcfg g a) s = execWcfg g a s := rfl
theorem exec_wrcf (a : Reg) (g : Cfg) (s : State) : exec (.wrcf a g) s = execWrcf a g s := rfl
theorem exec_wldp (c0 : Side) (rev : Bool) (i : ZReg) (a b : Reg) (s : State) :
    exec (.wldp c0 rev i a b) s = execWldp c0 rev i a b s := rfl
theorem exec_wldt (c0 : Side) (rev : Bool) (i : ZReg) (a b : Reg) (s : State) :
    exec (.wldt c0 rev i a b) s = execWldt c0 rev i a b s := rfl
theorem exec_wmul (p : Fin 8) (zb za : ZReg) (a : Reg) (s : State) :
    exec (.wmul p zb za a) s = execWmul p zb za a s := rfl
theorem exec_wmac (zb za : ZReg) (a b : Reg) (s : State) : exec (.wmac zb za a b) s = execWmac zb za a b s := rfl
theorem exec_wext (p : Fin 8) (a b : Reg) (s : State) : exec (.wext p a b) s = execWext p a b s := rfl
theorem exec_wrot (t : Dir) (zb za : ZReg) (s : State) : exec (.wrot t zb za) s = execWrot t zb za s := rfl
theorem exec_wmacr (t : Dir) (zb za : ZReg) (a b : Reg) (s : State) :
    exec (.wmacr t zb za a b) s = execWmacr t zb za a b s := rfl
theorem exec_wsta (a b : Reg) (s : State) : exec (.wsta a b) s = execWsta a b s := rfl
theorem exec_wzero (a b : Reg) (s : State) : exec (.wzero a b) s = execWzero a b s := rfl
theorem exec_wzeroZ (i : ZReg) (s : State) : exec (.wzeroZ i) s = execWzeroZ i s := rfl
theorem exec_wwait (a : Reg) (s : State) : exec (.wwait a) s = execWwait a s := rfl
theorem exec_wstat (clr : Bool) (a : Reg) (sel : Fin 7) (s : State) :
    exec (.wstat clr a sel) s = execWstat clr a sel s := rfl
theorem exec_wmov (d a : ZReg) (s : State) : exec (.wmov d a) s = execWmov d a s := rfl
theorem exec_wunpk (c0 : Side) (a : Reg) (i : ZReg) (s : State) : exec (.wunpk c0 a i) s = execWunpk c0 a i s := rfl
theorem exec_wshft (c0 : Side) (d a : ZReg) (b : Reg) (s : State) :
    exec (.wshft c0 d a b) s = execWshft c0 d a b s := rfl
theorem exec_msend (a b : Reg) (s : State) : exec (.msend a b) s = execMsend a b s := rfl
theorem exec_mreq (a b : Reg) (s : State) : exec (.mreq a b) s = execMreq a b s := rfl
theorem exec_mret (s : State) : exec .mret s = execMret s := rfl
theorem exec_hset (a b : Reg) (s : State) : exec (.hset a b) s = execHset a b s := rfl
theorem exec_hmask (d a b : Reg) (s : State) : exec (.hmask d a b) s = execHmask d a b s := rfl
theorem exec_rput (a b : Reg) (s : State) : exec (.rput a b) s = execRput a b s := rfl
theorem exec_qget (d a : Reg) (s : State) : exec (.qget d a) s = execQget d a s := rfl
theorem exec_qpeek (d a : Reg) (s : State) : exec (.qpeek d a) s = execQpeek d a s := rfl
theorem exec_dqpush (c0 : Scope) (d a b : Reg) (s : State) : exec (.dqpush c0 d a b) s = execDqpush c0 d a b s := rfl
theorem exec_dqpop (d : Reg) (s : State) : exec (.dqpop d) s = execDqpop d s := rfl
theorem exec_dqsteal (d a : Reg) (s : State) : exec (.dqsteal d a) s = execDqsteal d a s := rfl
theorem exec_bar (c0 : Scope) (d a : Reg) (s : State) : exec (.bar c0 d a) s = execBar c0 d a s := rfl
theorem exec_bara (c0 : Scope) (d a : Reg) (s : State) : exec (.bara c0 d a) s = execBara c0 d a s := rfl
theorem exec_barw (c0 : Scope) (a b : Reg) (s : State) : exec (.barw c0 a b) s = execBarw c0 a b s := rfl
theorem exec_pace (s0 s1 s2 s3 s4 s5 s6 s7 : Fin 8) (s : State) :
    exec (.pace s0 s1 s2 s3 s4 s5 s6 s7) s = execPace s0 s1 s2 s3 s4 s5 s6 s7 s := rfl
theorem exec_guard (p : Pred) (neg : Bool) (n : Fin 8) (s : State) :
    exec (.guard p neg n) s = execGuard p neg n s := rfl
theorem exec_vshfl (m : Shfl) (keep fp : Bool) (k : Fin 4) (d a b : Reg) (s : State) :
    exec (.vshfl m keep fp k d a b) s = execVshfl m keep fp k d a b s := rfl
theorem exec_vred (op : RedOp) (d a : Reg) (s : State) : exec (.vred op d a) s = execVred op d a s := rfl
theorem exec_vscan (op : RedOp) (ex : Bool) (d a : Reg) (s : State) :
    exec (.vscan op ex d a) s = execVscan op ex d a s := rfl
theorem exec_vball (d : Reg) (p : Pred) (s : State) : exec (.vball d p) s = execVball d p s := rfl
theorem exec_velect (d : Reg) (p : Pred) (s : State) : exec (.velect d p) s = execVelect d p s := rfl
theorem exec_vquant (d a b : Reg) (k : Fin 6) (s : State) : exec (.vquant d a b k) s = execVquant d a b k s := rfl
theorem exec_vdeq (d a b : Reg) (s : State) : exec (.vdeq d a b) s = execVdeq d a b s := rfl
theorem exec_venc (d a : Reg) (w : Fin 16) (s : State) : exec (.venc d a w) s = execVenc d a w s := rfl
theorem exec_mbpost (d a b : Reg) (s : State) : exec (.mbpost d a b) s = execMbpost d a b s := rfl
theorem exec_mbwait (d a : Reg) (s : State) : exec (.mbwait d a) s = execMbwait d a s := rfl
theorem exec_gflush (a : Reg) (s : State) : exec (.gflush a) s = execGflush a s := rfl
theorem exec_migr (a : Reg) (s : State) : exec (.migr a) s = execMigr a s := rfl
theorem exec_mgpt (s : State) : exec .mgpt s = execMgpt s := rfl
theorem exec_trap (i : BitVec 12) (s : State) : exec (.trap i) s = execTrap i s := rfl
theorem exec_eret (s : State) : exec .eret s = execEret s := rfl
theorem exec_sysr (d : Reg) (r : SysReg) (s : State) : exec (.sysr d r) s = execSysr d r s := rfl
theorem exec_sysw (r : SysReg) (a : Reg) (s : State) : exec (.sysw r a) s = execSysw r a s := rfl
theorem exec_wfm (s : State) : exec .wfm s = execWfm s := rfl
theorem exec_yield (s : State) : exec .yield s = execYield s := rfl
theorem exec_exit (a : Reg) (s : State) : exec (.exit a) s = execExit a s := rfl
theorem exec_pginv (a : Reg) (s : State) : exec (.pginv a) s = execPginv a s := rfl
theorem exec_brk (i : BitVec 12) (s : State) : exec (.brk i) s = execBrk i s := rfl
theorem exec_illegalInstruction (w : W32) (s : State) :
    exec (.illegalInstruction w) s = execIllegalInstruction w s := rfl
theorem exec_hostWindowMessage (off : Nat) (data : List Word) (s : State) :
    exec (.hostWindowMessage off data) s = execHostWindowMessage off data s := rfl
theorem exec_submissionAreaBadWrite (off len : Nat) (s : State) :
    exec (.submissionAreaBadWrite off len) s = execSubmissionAreaBadWrite off len s := rfl
theorem exec_windowPassMessage (s : State) : exec .windowPassMessage s = execWindowPassMessage s := rfl
theorem exec_bar4Write (off : Nat) (data : List Byte) (s : State) :
    exec (.bar4Write off data) s = execBar4Write off data s := rfl
theorem exec_bar4Read (off len : Nat) (s : State) : exec (.bar4Read off len) s = execBar4Read off len s := rfl
theorem exec_featackWrite (i : Fin 4) (v : Word) (s : State) :
    exec (.featackWrite i v) s = execFeatackWrite i v s := rfl
theorem exec_featlockWrite (v : Word) (s : State) : exec (.featlockWrite v) s = execFeatlockWrite v s := rfl
theorem exec_hrqheadWrite (v : Word) (s : State) : exec (.hrqheadWrite v) s = execHrqheadWrite v s := rfl
theorem exec_pwrcapWrite (v : Word) (s : State) : exec (.pwrcapWrite v) s = execPwrcapWrite v s := rfl
theorem exec_linkstatWrite (v : Word) (s : State) : exec (.linkstatWrite v) s = execLinkstatWrite v s := rfl
theorem exec_logtailOvfClear (die : Fin 4) (v : Word) (s : State) :
    exec (.logtailOvfClear die v) s = execLogtailOvfClear die v s := rfl
theorem exec_registerWrite (off : Nat) (v : Word) (s : State) :
    exec (.registerWrite off v) s = execRegisterWrite off v s := rfl
theorem exec_messageDelivery (src : OutQ) (s : State) :
    exec (.messageDelivery src) s = execMessageDelivery src s := rfl
theorem exec_handlerStart (c : CoreId) (k : Fin 4) (s : State) :
    exec (.handlerStart c k) s = execHandlerStart c k s := rfl
theorem exec_directStart (c : CoreId) (k : Fin 4) (s : State) :
    exec (.directStart c k) s = execDirectStart c k s := rfl
theorem exec_mreqReply (n : Nat) (s : State) : exec (.mreqReply n) s = execMreqReply n s := rfl
theorem exec_gangLaunch (s : State) : exec .gangLaunch s = execGangLaunch s := rfl
theorem exec_dispatcherPass (s : State) : exec .dispatcherPass s = execDispatcherPass s := rfl
theorem exec_headAgeingTimeout (q : Fin 8) (s : State) :
    exec (.headAgeingTimeout q) s = execHeadAgeingTimeout q s := rfl
theorem exec_gangLoad (g root text data : Nat) (s : State) :
    exec (.gangLoad g root text data) s = execGangLoad g root text data s := rfl
theorem exec_gangRelease (g : Nat) (die : Fin 4) (s : State) :
    exec (.gangRelease g die) s = execGangRelease g die s := rfl
theorem exec_temperatureSample (sensor t : Nat) (s : State) :
    exec (.temperatureSample sensor t) s = execTemperatureSample sensor t s := rfl
theorem exec_eligibilityWindowEnd (s : State) : exec .eligibilityWindowEnd s = execEligibilityWindowEnd s := rfl
theorem exec_powerSample (amps watts : Nat) (s : State) :
    exec (.powerSample amps watts) s = execPowerSample amps watts s := rfl
theorem exec_droopEvent (cl : Nat) (s : State) : exec (.droopEvent cl) s = execDroopEvent cl s := rfl
theorem exec_fetchGroupDelivery (u : Crew) (s : State) :
    exec (.fetchGroupDelivery u) s = execFetchGroupDelivery u s := rfl
theorem exec_bucketPostArrival (cl n : Nat) (s : State) :
    exec (.bucketPostArrival cl n) s = execBucketPostArrival cl n s := rfl
theorem exec_bucketTimeout (cl : Nat) (b : Fin 8) (s : State) :
    exec (.bucketTimeout cl b) s = execBucketTimeout cl b s := rfl
theorem exec_waveLaunch (cl : Nat) (b : Fin 8) (s : State) : exec (.waveLaunch cl b) s = execWaveLaunch cl b s := rfl
theorem exec_migrationPlacement (cl : Nat) (s : State) :
    exec (.migrationPlacement cl) s = execMigrationPlacement cl s := rfl
theorem exec_rputArrival (srcs : List OutQ) (s : State) : exec (.rputArrival srcs) s = execRputArrival srcs s := rfl
theorem exec_homeRequest (rs : List MemReq) (s : State) : exec (.homeRequest rs) s = execHomeRequest rs s := rfl
theorem exec_invalidationAcknowledge (n : Nat) (die : Fin 4) (s : State) :
    exec (.invalidationAcknowledge n die) s = execInvalidationAcknowledge n die s := rfl
theorem exec_lineWriteback (l : Fin 8) (line : Nat) (s : State) :
    exec (.lineWriteback l line) s = execLineWriteback l line s := rfl
theorem exec_rowCapture (l : Fin 8) (row : Nat) (s : State) :
    exec (.rowCapture l row) s = execRowCapture l row s := rfl
theorem exec_refreshWindowStart (l : Fin 8) (s : State) :
    exec (.refreshWindowStart l) s = execRefreshWindowStart l s := rfl
theorem exec_streamElementArrival (p : Place) (f : Fin 4) (s : State) :
    exec (.streamElementArrival p f) s = execStreamElementArrival p f s := rfl
theorem exec_streamPushPerform (p : Place) (f : Fin 4) (s : State) :
    exec (.streamPushPerform p f) s = execStreamPushPerform p f s := rfl
theorem exec_copySectorComplete (u : CopyUnit) (s : State) :
    exec (.copySectorComplete u) s = execCopySectorComplete u s := rfl
theorem exec_copyComplete (u : CopyUnit) (s : State) : exec (.copyComplete u) s = execCopyComplete u s := rfl
theorem exec_triggerMessageSend (cl : Nat) (s : State) :
    exec (.triggerMessageSend cl) s = execTriggerMessageSend cl s := rfl
theorem exec_galleryRequest (cl n : Nat) (s : State) :
    exec (.galleryRequest cl n) s = execGalleryRequest cl n s := rfl
theorem exec_galleryHandout (cl : Nat) (s : State) : exec (.galleryHandout cl) s = execGalleryHandout cl s := rfl
theorem exec_bayWatchdogExpiry (g rank : Nat) (b : Fin 8) (s : State) :
    exec (.bayWatchdogExpiry g rank b) s = execBayWatchdogExpiry g rank b s := rfl
theorem exec_bankOperationStart (cl : Nat) (s : State) :
    exec (.bankOperationStart cl) s = execBankOperationStart cl s := rfl
theorem exec_bankOperationComplete (cl : Nat) (s : State) :
    exec (.bankOperationComplete cl) s = execBankOperationComplete cl s := rfl
theorem exec_rotationStepResume (cl : Nat) (s : State) :
    exec (.rotationStepResume cl) s = execRotationStepResume cl s := rfl
theorem exec_bankWatchdogReset (cl : Nat) (s : State) :
    exec (.bankWatchdogReset cl) s = execBankWatchdogReset cl s := rfl
theorem exec_barrierPhasePropagate (g : Nat) (b : Fin 16) (die : Fin 4) (s : State) :
    exec (.barrierPhasePropagate g b die) s = execBarrierPhasePropagate g b die s := rfl
theorem exec_stealRequest (cl : Nat) (s : State) : exec (.stealRequest cl) s = execStealRequest cl s := rfl
theorem exec_faultTokenAssign (cl : Nat) (s : State) :
    exec (.faultTokenAssign cl) s = execFaultTokenAssign cl s := rfl
theorem exec_pagerReply (cl c : Nat) (s : State) : exec (.pagerReply cl c) s = execPagerReply cl c s := rfl
theorem exec_preemptionCommand (cl c : Nat) (s : State) :
    exec (.preemptionCommand cl c) s = execPreemptionCommand cl c s := rfl
theorem exec_shareSave (g rank : Nat) (s : State) : exec (.shareSave g rank) s = execShareSave g rank s := rfl
theorem exec_gangRestore (g : Nat) (s : State) : exec (.gangRestore g) s = execGangRestore g s := rfl
theorem exec_lend (s : State) : exec .lend s = execLend s := rfl
theorem exec_errorEvent (unit kind addr : Nat) (s : State) :
    exec (.errorEvent unit kind addr) s = execErrorEvent unit kind addr s := rfl
theorem exec_dataError (a : Asker) (addr : Word) (s : State) :
    exec (.dataError a addr) s = execDataError a addr s := rfl
theorem exec_errorLogCapture (die : Fin 4) (s : State) :
    exec (.errorLogCapture die) s = execErrorLogCapture die s := rfl
theorem exec_linkFlitRetry (link : Fin 4) (again : FlitRetry) (s : State) :
    exec (.linkFlitRetry link again) s = execLinkFlitRetry link again s := rfl
theorem exec_linkAckTimeout (link : Fin 4) (s : State) :
    exec (.linkAckTimeout link) s = execLinkAckTimeout link s := rfl
theorem exec_noviloFrameReceive (head : NvHead) (body : NvBody) (s : State) :
    exec (.noviloFrameReceive head body) s = execNoviloFrameReceive head body s := rfl
theorem exec_spdmRequest (nonce : Nat) (s : State) : exec (.spdmRequest nonce) s = execSpdmRequest nonce s := rfl
theorem exec_deviceReset (s : State) : exec .deviceReset s = execDeviceReset s := rfl
theorem exec_eopraBoot (flash : Option BootFlash) (ecdsa lms : Bool) (s : State) :
    exec (.eopraBoot flash ecdsa lms) s = execEopraBoot flash ecdsa lms s := rfl
theorem exec_gangRetire (g : Nat) (s : State) : exec (.gangRetire g) s = execGangRetire g s := rfl
theorem exec_memoryReply (r : MemReq) (s : State) : exec (.memoryReply r) s = execMemoryReply r s := rfl
theorem exec_linkRestore (link : Fin 4) (s : State) : exec (.linkRestore link) s = execLinkRestore link s := rfl

end Sys2Proof.Machine
end

