-- ==== Sys2Proof/Laws/Map.lean ====
section
/-!
SUPPORT. Sparse maps and memory: what a read gives after a write, and that every operation keeps the canonical
form.
-/

namespace Sys2Proof.Machine

/-! ### Reads after writes -/

@[simp] theorem FMap.get?_put_self {α : Type} (m : FMap α) (k : Nat) (v : α) :
    FMap.get? (FMap.put m k v) k = some v := by
  induction m with
  | nil => simp [FMap.put, FMap.get?]
  | cons c m ih =>
    obtain ⟨j, w⟩ := c
    simp only [FMap.put]
    split
    · simp [FMap.get?]
    · split
      · simp [FMap.get?]
      · rename_i h
        have : j ≠ k := fun e => h e.symm
        simp [FMap.get?, this, ih]

theorem FMap.get?_put_of_ne {α : Type} (m : FMap α) (k j : Nat) (v : α) (h : j ≠ k) :
    FMap.get? (FMap.put m k v) j = FMap.get? m j := by
  induction m with
  | nil => simp [FMap.put, FMap.get?, Ne.symm h]
  | cons c m ih =>
    obtain ⟨i, w⟩ := c
    simp only [FMap.put]
    split
    · simp [FMap.get?, Ne.symm h]
    · split
      · rename_i e
        subst e
        simp [FMap.get?, Ne.symm h]
      · simp only [FMap.get?, ih]

@[simp] theorem FMap.getD_put_self {α : Type} (m : FMap α) (k : Nat) (v d : α) :
    FMap.getD (FMap.put m k v) k d = v := by
  simp [FMap.getD]

theorem FMap.getD_put_of_ne {α : Type} (m : FMap α) (k j : Nat) (v d : α) (h : j ≠ k) :
    FMap.getD (FMap.put m k v) j d = FMap.getD m j d := by
  simp [FMap.getD, FMap.get?_put_of_ne m k j v h]

theorem FMap.get?_del_of_ne {α : Type} (m : FMap α) (k j : Nat) (h : j ≠ k) :
    FMap.get? (FMap.del m k) j = FMap.get? m j := by
  induction m with
  | nil => rfl
  | cons c m ih =>
    obtain ⟨i, w⟩ := c
    simp only [FMap.del]
    split
    · rename_i e
      subst e
      simp [FMap.get?, Ne.symm h, ih]
    · simp only [FMap.get?, ih]

/-! ### The canonical form -/

theorem FMap.get?_eq_none_of_sortedFrom {α : Type} (m : FMap α) (lo k : Nat) (h : FMap.sortedFrom lo m = true)
    (hk : k < lo) : FMap.get? m k = none := by
  induction m generalizing lo with
  | nil => rfl
  | cons c m ih =>
    obtain ⟨j, w⟩ := c
    simp only [FMap.sortedFrom, Bool.and_eq_true, decide_eq_true_eq] at h
    have : j ≠ k := by omega
    simp only [FMap.get?, this, if_false]
    exact ih (j + 1) h.2 (by omega)

theorem FMap.sortedFrom_mono {α : Type} (m : FMap α) (lo hi : Nat) (h : FMap.sortedFrom hi m = true) (hl : lo ≤ hi) :
    FMap.sortedFrom lo m = true := by
  cases m with
  | nil => rfl
  | cons c m =>
    obtain ⟨j, w⟩ := c
    simp only [FMap.sortedFrom, Bool.and_eq_true, decide_eq_true_eq] at h ⊢
    exact ⟨by omega, h.2⟩

theorem FMap.sortedFrom_put {α : Type} (m : FMap α) (lo k : Nat) (v : α) (h : FMap.sortedFrom lo m = true)
    (hk : lo ≤ k) : FMap.sortedFrom lo (FMap.put m k v) = true := by
  induction m generalizing lo with
  | nil => simp [FMap.put, FMap.sortedFrom, hk]
  | cons c m ih =>
    obtain ⟨j, w⟩ := c
    simp only [FMap.sortedFrom, Bool.and_eq_true, decide_eq_true_eq] at h
    simp only [FMap.put]
    split
    · simp only [FMap.sortedFrom, Bool.and_eq_true, decide_eq_true_eq]
      exact ⟨hk, by omega, h.2⟩
    · split
      · rename_i e
        subst e
        simp only [FMap.sortedFrom, Bool.and_eq_true, decide_eq_true_eq]
        exact h
      · simp only [FMap.sortedFrom, Bool.and_eq_true, decide_eq_true_eq]
        exact ⟨h.1, ih (j + 1) h.2 (by omega)⟩

theorem FMap.sortedFrom_del {α : Type} (m : FMap α) (lo k : Nat) (h : FMap.sortedFrom lo m = true) :
    FMap.sortedFrom lo (FMap.del m k) = true := by
  induction m generalizing lo with
  | nil => rfl
  | cons c m ih =>
    obtain ⟨j, w⟩ := c
    simp only [FMap.sortedFrom, Bool.and_eq_true, decide_eq_true_eq] at h
    simp only [FMap.del]
    split
    · exact FMap.sortedFrom_mono _ lo (j + 1) (ih (j + 1) h.2) (by omega)
    · simp only [FMap.sortedFrom, Bool.and_eq_true, decide_eq_true_eq]
      exact ⟨h.1, ih (j + 1) h.2⟩

theorem FMap.sortedFrom_filter {α : Type} (f : Nat × α → Bool) (m : FMap α) (lo : Nat)
    (h : FMap.sortedFrom lo m = true) : FMap.sortedFrom lo (m.filter f) = true := by
  induction m generalizing lo with
  | nil => rfl
  | cons c m ih =>
    obtain ⟨j, w⟩ := c
    simp only [FMap.sortedFrom, Bool.and_eq_true, decide_eq_true_eq] at h
    simp only [List.filter]
    split
    · simp only [FMap.sortedFrom, Bool.and_eq_true, decide_eq_true_eq]
      exact ⟨h.1, ih (j + 1) h.2⟩
    · exact FMap.sortedFrom_mono _ lo (j + 1) (ih (j + 1) h.2) (by omega)

theorem FMap.get?_del_self {α : Type} (m : FMap α) (k : Nat) : FMap.get? (FMap.del m k) k = none := by
  induction m with
  | nil => rfl
  | cons c m ih =>
    obtain ⟨j, w⟩ := c
    simp only [FMap.del]
    split
    · exact ih
    · rename_i e
      simpa only [FMap.get?, if_neg e] using ih

/-! ### Memory -/

theorem FMap.mem_put {α : Type} (m : FMap α) (k : Nat) (v : α) (c : Nat × α) (h : c ∈ FMap.put m k v) :
    c = (k, v) ∨ c ∈ m := by
  induction m with
  | nil => simpa [FMap.put] using h
  | cons d m ih =>
    obtain ⟨j, w⟩ := d
    simp only [FMap.put] at h
    split at h
    · rcases List.mem_cons.mp h with e | e
      · exact .inl e
      · exact .inr e
    · split at h
      · rcases List.mem_cons.mp h with e | e
        · exact .inl e
        · exact .inr (List.mem_cons_of_mem _ e)
      · rcases List.mem_cons.mp h with e | e
        · exact .inr (e ▸ List.mem_cons_self)
        · rcases ih e with e | e
          · exact .inl e
          · exact .inr (List.mem_cons_of_mem _ e)

theorem FMap.mem_del {α : Type} (m : FMap α) (k : Nat) (c : Nat × α) (h : c ∈ FMap.del m k) : c ∈ m := by
  induction m with
  | nil => exact h
  | cons d m ih =>
    obtain ⟨j, w⟩ := d
    simp only [FMap.del] at h
    split at h
    · exact List.mem_cons_of_mem _ (ih h)
    · rcases List.mem_cons.mp h with e | e
      · exact e ▸ List.mem_cons_self
      · exact List.mem_cons_of_mem _ (ih e)

theorem Memory.wf_nil : Memory.wf [] = true := rfl

/-- A byte written keeps the canonical form. -/
theorem Memory.wf_setByte (m : Memory) (a : Nat) (b : Byte) (h : Memory.wf m = true) :
    Memory.wf (Memory.setByte m a b) = true := by
  simp only [Memory.wf, FMap.wf, Bool.and_eq_true, List.all_eq_true] at h ⊢
  simp only [Memory.setByte]
  split
  · exact ⟨FMap.sortedFrom_del m 0 a h.1, fun c hc => h.2 c (FMap.mem_del m a c hc)⟩
  · rename_i hb
    refine ⟨FMap.sortedFrom_put m 0 a b h.1 (Nat.zero_le a), fun c hc => ?_⟩
    rcases FMap.mem_put m a b c hc with e | e
    · subst e
      simpa using hb
    · exact h.2 c e

/-- A number written keeps the canonical form. -/
theorem Memory.wf_write (n : Nat) : ∀ (m : Memory) (a v : Nat), Memory.wf m = true →
    Memory.wf (Memory.write m a n v) = true := by
  induction n with
  | zero => exact fun m a v h => h
  | succ n ih => exact fun m a v h => ih _ _ _ (Memory.wf_setByte m a _ h)

/-- A list of bytes written keeps the canonical form. -/
theorem Memory.wf_writeBytes (bs : List Byte) : ∀ (m : Memory) (a : Nat), Memory.wf m = true →
    Memory.wf (Memory.writeBytes m a bs) = true := by
  induction bs with
  | nil => exact fun m a h => h
  | cons b bs ih => exact fun m a h => ih _ _ (Memory.wf_setByte m a b h)

/-- A range cleared keeps the canonical form. -/
theorem Memory.wf_clear (m : Memory) (lo n : Nat) (h : Memory.wf m = true) :
    Memory.wf (Memory.clear m lo n) = true := by
  simp only [Memory.wf, FMap.wf, Bool.and_eq_true, List.all_eq_true] at h ⊢
  exact ⟨FMap.sortedFrom_filter _ m 0 h.1, fun c hc => h.2 c (List.mem_filter.mp hc).1⟩

/-- What a byte reads as after a byte is written. -/
theorem Memory.byte_setByte (m : Memory) (a b : Nat) (v : Byte) (h : Memory.wf m = true) :
    Memory.byte (Memory.setByte m a v) b = if b = a then v else Memory.byte m b := by
  simp only [Memory.wf, FMap.wf, Bool.and_eq_true] at h
  simp only [Memory.byte, Memory.setByte]
  split
  · rename_i hv
    split
    · rename_i e
      subst e
      rw [FMap.getD, FMap.get?_del_self m b, hv]
      rfl
    · rename_i e
      simp only [FMap.getD, FMap.get?_del_of_ne m a b e]
  · split
    · rename_i e
      subst e
      simp
    · rename_i e
      exact FMap.getD_put_of_ne m a b v 0 e

/-- A byte outside the bytes written reads as before. -/
theorem Memory.byte_write_of_lt (n : Nat) : ∀ (m : Memory) (a v b : Nat), Memory.wf m = true → b < a →
    Memory.byte (Memory.write m a n v) b = Memory.byte m b := by
  induction n with
  | zero => intro m a v b _ _; rfl
  | succ n ih =>
    intro m a v b h hb
    rw [Memory.write, ih _ _ _ b (Memory.wf_setByte m a _ h) (by omega), Memory.byte_setByte m a b _ h,
      if_neg (by omega)]

/-- A byte outside the bytes written reads as before. -/
theorem Memory.byte_write_outside (n : Nat) : ∀ (m : Memory) (a v b : Nat), Memory.wf m = true →
    (b < a ∨ a + n ≤ b) → Memory.byte (Memory.write m a n v) b = Memory.byte m b := by
  induction n with
  | zero => intro m a v b _ _; rfl
  | succ n ih =>
    intro m a v b h hb
    rw [Memory.write, ih _ _ _ b (Memory.wf_setByte m a _ h) (by omega), Memory.byte_setByte m a b _ h,
      if_neg (by omega)]

/-- A number read back where it was written. -/
theorem Memory.read_write (n : Nat) : ∀ (m : Memory) (a v : Nat), Memory.wf m = true →
    Memory.read (Memory.write m a n v) a n = v % 256 ^ n := by
  induction n with
  | zero => intro m a v _; simp [Memory.read, Nat.mod_one]
  | succ n ih =>
    intro m a v h
    have h1 := Memory.wf_setByte m a (BitVec.ofNat 8 (v % 256)) h
    rw [Memory.write, Memory.read, ih _ _ _ h1, Memory.byte_write_of_lt n _ _ _ a h1 (by omega),
      Memory.byte_setByte m a a _ h, if_pos rfl]
    have hp : (256 : Nat) ^ (n + 1) = 256 * 256 ^ n := by rw [Nat.pow_succ, Nat.mul_comm]
    rw [hp, Nat.mod_mul]
    simp

/-! ### Parts of a number read -/

theorem Memory.read_lt (n : Nat) : ∀ (m : Memory) (a : Nat), Memory.read m a n < 256 ^ n := by
  induction n with
  | zero => intro m a; simp [Memory.read]
  | succ n ih =>
    intro m a
    have h := ih m (a+1)
    have hb := (Memory.byte m a).isLt
    simp only [Memory.read, Nat.pow_succ]
    omega

theorem Memory.read_add (k : Nat) : ∀ (m : Memory) (a n : Nat),
    Memory.read m a (k + n) = Memory.read m a k + 256 ^ k * Memory.read m (a + k) n := by
  induction k with
  | zero => intro m a n; simp [Memory.read]
  | succ k ih =>
    intro m a n
    rw [Nat.succ_add, Memory.read, ih m (a+1) n, Memory.read, Nat.pow_succ]
    have : a + 1 + k = a + (k + 1) := by omega
    rw [this, Nat.mul_add, Nat.mul_comm (256 ^ k) 256, Nat.mul_assoc, Nat.add_assoc]

theorem Memory.read_take (m : Memory) (a k n : Nat) : Memory.read m a (k + n) % 256 ^ k = Memory.read m a k := by
  rw [Memory.read_add, Nat.add_mul_mod_self_left, Nat.mod_eq_of_lt (Memory.read_lt k m a)]

theorem Memory.read_drop (m : Memory) (a k n : Nat) : Memory.read m a (k + n) / 256 ^ k = Memory.read m (a + k) n := by
  rw [Memory.read_add, Nat.add_mul_div_left _ _ (Nat.pow_pos (by omega)), Nat.div_eq_of_lt (Memory.read_lt k m a), Nat.zero_add]

end Sys2Proof.Machine
end

