-- ==== Sys2Proof/Laws/State.lean ====
section
/-!
SUPPORT. The named updates of the state: one lemma for each field of the state and each update, and what a read
of a thread, a core, a cluster or a landing gives after one.
-/

namespace Sys2Proof.Machine

/-! ### setThread -/

@[simp] theorem State.setThread_clk (s : State) (p : Place) (t : Thread) : (s.setThread p t).clk = s.clk := rfl
@[simp] theorem State.setThread_turn (s : State) (p : Place) (t : Thread) : (s.setThread p t).turn = s.turn := rfl
@[simp] theorem State.setThread_agenda (s : State) (p : Place) (t : Thread) : (s.setThread p t).agenda = s.agenda := rfl
@[simp] theorem State.setThread_draws (s : State) (p : Place) (t : Thread) : (s.setThread p t).draws = s.draws := rfl
@[simp] theorem State.setThread_frees (s : State) (p : Place) (t : Thread) : (s.setThread p t).frees = s.frees := rfl
@[simp] theorem State.setThread_pkg (s : State) (p : Place) (t : Thread) : (s.setThread p t).pkg = s.pkg := rfl
@[simp] theorem State.setThread_disp (s : State) (p : Place) (t : Thread) : (s.setThread p t).disp = s.disp := rfl
@[simp] theorem State.setThread_gangs (s : State) (p : Place) (t : Thread) : (s.setThread p t).gangs = s.gangs := rfl
@[simp] theorem State.setThread_shares (s : State) (p : Place) (t : Thread) : (s.setThread p t).shares = s.shares := rfl
@[simp] theorem State.setThread_waves (s : State) (p : Place) (t : Thread) : (s.setThread p t).waves = s.waves := rfl
@[simp] theorem State.setThread_cores (s : State) (p : Place) (t : Thread) : (s.setThread p t).cores = s.cores := rfl
@[simp] theorem State.setThread_clusters (s : State) (p : Place) (t : Thread) : (s.setThread p t).clusters = s.clusters := rfl
@[simp] theorem State.setThread_landings (s : State) (p : Place) (t : Thread) : (s.setThread p t).landings = s.landings := rfl
@[simp] theorem State.setThread_mesh (s : State) (p : Place) (t : Thread) : (s.setThread p t).mesh = s.mesh := rfl
@[simp] theorem State.setThread_mreqs (s : State) (p : Place) (t : Thread) : (s.setThread p t).mreqs = s.mreqs := rfl
@[simp] theorem State.setThread_lent (s : State) (p : Place) (t : Thread) : (s.setThread p t).lent = s.lent := rfl
@[simp] theorem State.setThread_dram (s : State) (p : Place) (t : Thread) : (s.setThread p t).dram = s.dram := rfl
@[simp] theorem State.setThread_slices (s : State) (p : Place) (t : Thread) : (s.setThread p t).slices = s.slices := rfl
@[simp] theorem State.setThread_sharers (s : State) (p : Place) (t : Thread) : (s.setThread p t).sharers = s.sharers := rfl
@[simp] theorem State.setThread_aside (s : State) (p : Place) (t : Thread) : (s.setThread p t).aside = s.aside := rfl
@[simp] theorem State.setThread_tlb (s : State) (p : Place) (t : Thread) : (s.setThread p t).tlb = s.tlb := rfl
@[simp] theorem State.setThread_stores (s : State) (p : Place) (t : Thread) : (s.setThread p t).stores = s.stores := rfl
@[simp] theorem State.setThread_reqCtr (s : State) (p : Place) (t : Thread) : (s.setThread p t).reqCtr = s.reqCtr := rfl
@[simp] theorem State.setThread_misses (s : State) (p : Place) (t : Thread) : (s.setThread p t).misses = s.misses := rfl
@[simp] theorem State.setThread_freqs (s : State) (p : Place) (t : Thread) : (s.setThread p t).freqs = s.freqs := rfl
@[simp] theorem State.setThread_slot (s : State) (p : Place) (t : Thread) : (s.setThread p t).slot = s.slot := rfl

/-! ### modThread -/

@[simp] theorem State.modThread_clk (s : State) (p : Place) (f : Thread → Thread) : (s.modThread p f).clk = s.clk := rfl
@[simp] theorem State.modThread_turn (s : State) (p : Place) (f : Thread → Thread) : (s.modThread p f).turn = s.turn := rfl
@[simp] theorem State.modThread_agenda (s : State) (p : Place) (f : Thread → Thread) : (s.modThread p f).agenda = s.agenda := rfl
@[simp] theorem State.modThread_draws (s : State) (p : Place) (f : Thread → Thread) : (s.modThread p f).draws = s.draws := rfl
@[simp] theorem State.modThread_frees (s : State) (p : Place) (f : Thread → Thread) : (s.modThread p f).frees = s.frees := rfl
@[simp] theorem State.modThread_pkg (s : State) (p : Place) (f : Thread → Thread) : (s.modThread p f).pkg = s.pkg := rfl
@[simp] theorem State.modThread_disp (s : State) (p : Place) (f : Thread → Thread) : (s.modThread p f).disp = s.disp := rfl
@[simp] theorem State.modThread_gangs (s : State) (p : Place) (f : Thread → Thread) : (s.modThread p f).gangs = s.gangs := rfl
@[simp] theorem State.modThread_shares (s : State) (p : Place) (f : Thread → Thread) : (s.modThread p f).shares = s.shares := rfl
@[simp] theorem State.modThread_waves (s : State) (p : Place) (f : Thread → Thread) : (s.modThread p f).waves = s.waves := rfl
@[simp] theorem State.modThread_cores (s : State) (p : Place) (f : Thread → Thread) : (s.modThread p f).cores = s.cores := rfl
@[simp] theorem State.modThread_clusters (s : State) (p : Place) (f : Thread → Thread) : (s.modThread p f).clusters = s.clusters := rfl
@[simp] theorem State.modThread_landings (s : State) (p : Place) (f : Thread → Thread) : (s.modThread p f).landings = s.landings := rfl
@[simp] theorem State.modThread_mesh (s : State) (p : Place) (f : Thread → Thread) : (s.modThread p f).mesh = s.mesh := rfl
@[simp] theorem State.modThread_mreqs (s : State) (p : Place) (f : Thread → Thread) : (s.modThread p f).mreqs = s.mreqs := rfl
@[simp] theorem State.modThread_lent (s : State) (p : Place) (f : Thread → Thread) : (s.modThread p f).lent = s.lent := rfl
@[simp] theorem State.modThread_dram (s : State) (p : Place) (f : Thread → Thread) : (s.modThread p f).dram = s.dram := rfl
@[simp] theorem State.modThread_slices (s : State) (p : Place) (f : Thread → Thread) : (s.modThread p f).slices = s.slices := rfl
@[simp] theorem State.modThread_sharers (s : State) (p : Place) (f : Thread → Thread) : (s.modThread p f).sharers = s.sharers := rfl
@[simp] theorem State.modThread_aside (s : State) (p : Place) (f : Thread → Thread) : (s.modThread p f).aside = s.aside := rfl
@[simp] theorem State.modThread_tlb (s : State) (p : Place) (f : Thread → Thread) : (s.modThread p f).tlb = s.tlb := rfl
@[simp] theorem State.modThread_stores (s : State) (p : Place) (f : Thread → Thread) : (s.modThread p f).stores = s.stores := rfl
@[simp] theorem State.modThread_reqCtr (s : State) (p : Place) (f : Thread → Thread) : (s.modThread p f).reqCtr = s.reqCtr := rfl
@[simp] theorem State.modThread_misses (s : State) (p : Place) (f : Thread → Thread) : (s.modThread p f).misses = s.misses := rfl
@[simp] theorem State.modThread_freqs (s : State) (p : Place) (f : Thread → Thread) : (s.modThread p f).freqs = s.freqs := rfl
@[simp] theorem State.modThread_slot (s : State) (p : Place) (f : Thread → Thread) : (s.modThread p f).slot = s.slot := rfl

/-! ### delThread -/

@[simp] theorem State.delThread_clk (s : State) (p : Place) : (s.delThread p).clk = s.clk := rfl
@[simp] theorem State.delThread_turn (s : State) (p : Place) : (s.delThread p).turn = s.turn := rfl
@[simp] theorem State.delThread_agenda (s : State) (p : Place) : (s.delThread p).agenda = s.agenda := rfl
@[simp] theorem State.delThread_draws (s : State) (p : Place) : (s.delThread p).draws = s.draws := rfl
@[simp] theorem State.delThread_frees (s : State) (p : Place) : (s.delThread p).frees = s.frees := rfl
@[simp] theorem State.delThread_pkg (s : State) (p : Place) : (s.delThread p).pkg = s.pkg := rfl
@[simp] theorem State.delThread_disp (s : State) (p : Place) : (s.delThread p).disp = s.disp := rfl
@[simp] theorem State.delThread_gangs (s : State) (p : Place) : (s.delThread p).gangs = s.gangs := rfl
@[simp] theorem State.delThread_shares (s : State) (p : Place) : (s.delThread p).shares = s.shares := rfl
@[simp] theorem State.delThread_waves (s : State) (p : Place) : (s.delThread p).waves = s.waves := rfl
@[simp] theorem State.delThread_cores (s : State) (p : Place) : (s.delThread p).cores = s.cores := rfl
@[simp] theorem State.delThread_clusters (s : State) (p : Place) : (s.delThread p).clusters = s.clusters := rfl
@[simp] theorem State.delThread_landings (s : State) (p : Place) : (s.delThread p).landings = s.landings := rfl
@[simp] theorem State.delThread_mesh (s : State) (p : Place) : (s.delThread p).mesh = s.mesh := rfl
@[simp] theorem State.delThread_mreqs (s : State) (p : Place) : (s.delThread p).mreqs = s.mreqs := rfl
@[simp] theorem State.delThread_lent (s : State) (p : Place) : (s.delThread p).lent = s.lent := rfl
@[simp] theorem State.delThread_dram (s : State) (p : Place) : (s.delThread p).dram = s.dram := rfl
@[simp] theorem State.delThread_slices (s : State) (p : Place) : (s.delThread p).slices = s.slices := rfl
@[simp] theorem State.delThread_sharers (s : State) (p : Place) : (s.delThread p).sharers = s.sharers := rfl
@[simp] theorem State.delThread_aside (s : State) (p : Place) : (s.delThread p).aside = s.aside := rfl
@[simp] theorem State.delThread_tlb (s : State) (p : Place) : (s.delThread p).tlb = s.tlb := rfl
@[simp] theorem State.delThread_stores (s : State) (p : Place) : (s.delThread p).stores = s.stores := rfl
@[simp] theorem State.delThread_reqCtr (s : State) (p : Place) : (s.delThread p).reqCtr = s.reqCtr := rfl
@[simp] theorem State.delThread_misses (s : State) (p : Place) : (s.delThread p).misses = s.misses := rfl
@[simp] theorem State.delThread_freqs (s : State) (p : Place) : (s.delThread p).freqs = s.freqs := rfl
@[simp] theorem State.delThread_slot (s : State) (p : Place) : (s.delThread p).slot = s.slot := rfl

/-! ### modCore -/

@[simp] theorem State.modCore_clk (s : State) (c : CoreId) (f : Core → Core) : (s.modCore c f).clk = s.clk := rfl
@[simp] theorem State.modCore_turn (s : State) (c : CoreId) (f : Core → Core) : (s.modCore c f).turn = s.turn := rfl
@[simp] theorem State.modCore_agenda (s : State) (c : CoreId) (f : Core → Core) : (s.modCore c f).agenda = s.agenda := rfl
@[simp] theorem State.modCore_draws (s : State) (c : CoreId) (f : Core → Core) : (s.modCore c f).draws = s.draws := rfl
@[simp] theorem State.modCore_frees (s : State) (c : CoreId) (f : Core → Core) : (s.modCore c f).frees = s.frees := rfl
@[simp] theorem State.modCore_pkg (s : State) (c : CoreId) (f : Core → Core) : (s.modCore c f).pkg = s.pkg := rfl
@[simp] theorem State.modCore_disp (s : State) (c : CoreId) (f : Core → Core) : (s.modCore c f).disp = s.disp := rfl
@[simp] theorem State.modCore_gangs (s : State) (c : CoreId) (f : Core → Core) : (s.modCore c f).gangs = s.gangs := rfl
@[simp] theorem State.modCore_shares (s : State) (c : CoreId) (f : Core → Core) : (s.modCore c f).shares = s.shares := rfl
@[simp] theorem State.modCore_threads (s : State) (c : CoreId) (f : Core → Core) : (s.modCore c f).threads = s.threads := rfl
@[simp] theorem State.modCore_waves (s : State) (c : CoreId) (f : Core → Core) : (s.modCore c f).waves = s.waves := rfl
@[simp] theorem State.modCore_clusters (s : State) (c : CoreId) (f : Core → Core) : (s.modCore c f).clusters = s.clusters := rfl
@[simp] theorem State.modCore_landings (s : State) (c : CoreId) (f : Core → Core) : (s.modCore c f).landings = s.landings := rfl
@[simp] theorem State.modCore_mesh (s : State) (c : CoreId) (f : Core → Core) : (s.modCore c f).mesh = s.mesh := rfl
@[simp] theorem State.modCore_mreqs (s : State) (c : CoreId) (f : Core → Core) : (s.modCore c f).mreqs = s.mreqs := rfl
@[simp] theorem State.modCore_lent (s : State) (c : CoreId) (f : Core → Core) : (s.modCore c f).lent = s.lent := rfl
@[simp] theorem State.modCore_dram (s : State) (c : CoreId) (f : Core → Core) : (s.modCore c f).dram = s.dram := rfl
@[simp] theorem State.modCore_slices (s : State) (c : CoreId) (f : Core → Core) : (s.modCore c f).slices = s.slices := rfl
@[simp] theorem State.modCore_sharers (s : State) (c : CoreId) (f : Core → Core) : (s.modCore c f).sharers = s.sharers := rfl
@[simp] theorem State.modCore_aside (s : State) (c : CoreId) (f : Core → Core) : (s.modCore c f).aside = s.aside := rfl
@[simp] theorem State.modCore_tlb (s : State) (c : CoreId) (f : Core → Core) : (s.modCore c f).tlb = s.tlb := rfl
@[simp] theorem State.modCore_stores (s : State) (c : CoreId) (f : Core → Core) : (s.modCore c f).stores = s.stores := rfl
@[simp] theorem State.modCore_reqCtr (s : State) (c : CoreId) (f : Core → Core) : (s.modCore c f).reqCtr = s.reqCtr := rfl
@[simp] theorem State.modCore_misses (s : State) (c : CoreId) (f : Core → Core) : (s.modCore c f).misses = s.misses := rfl
@[simp] theorem State.modCore_freqs (s : State) (c : CoreId) (f : Core → Core) : (s.modCore c f).freqs = s.freqs := rfl
@[simp] theorem State.modCore_slot (s : State) (c : CoreId) (f : Core → Core) : (s.modCore c f).slot = s.slot := rfl

/-! ### modCluster -/

@[simp] theorem State.modCluster_clk (s : State) (cl : Nat) (f : Cluster → Cluster) : (s.modCluster cl f).clk = s.clk := rfl
@[simp] theorem State.modCluster_turn (s : State) (cl : Nat) (f : Cluster → Cluster) : (s.modCluster cl f).turn = s.turn := rfl
@[simp] theorem State.modCluster_agenda (s : State) (cl : Nat) (f : Cluster → Cluster) : (s.modCluster cl f).agenda = s.agenda := rfl
@[simp] theorem State.modCluster_draws (s : State) (cl : Nat) (f : Cluster → Cluster) : (s.modCluster cl f).draws = s.draws := rfl
@[simp] theorem State.modCluster_frees (s : State) (cl : Nat) (f : Cluster → Cluster) : (s.modCluster cl f).frees = s.frees := rfl
@[simp] theorem State.modCluster_pkg (s : State) (cl : Nat) (f : Cluster → Cluster) : (s.modCluster cl f).pkg = s.pkg := rfl
@[simp] theorem State.modCluster_disp (s : State) (cl : Nat) (f : Cluster → Cluster) : (s.modCluster cl f).disp = s.disp := rfl
@[simp] theorem State.modCluster_gangs (s : State) (cl : Nat) (f : Cluster → Cluster) : (s.modCluster cl f).gangs = s.gangs := rfl
@[simp] theorem State.modCluster_shares (s : State) (cl : Nat) (f : Cluster → Cluster) : (s.modCluster cl f).shares = s.shares := rfl
@[simp] theorem State.modCluster_threads (s : State) (cl : Nat) (f : Cluster → Cluster) : (s.modCluster cl f).threads = s.threads := rfl
@[simp] theorem State.modCluster_waves (s : State) (cl : Nat) (f : Cluster → Cluster) : (s.modCluster cl f).waves = s.waves := rfl
@[simp] theorem State.modCluster_cores (s : State) (cl : Nat) (f : Cluster → Cluster) : (s.modCluster cl f).cores = s.cores := rfl
@[simp] theorem State.modCluster_landings (s : State) (cl : Nat) (f : Cluster → Cluster) : (s.modCluster cl f).landings = s.landings := rfl
@[simp] theorem State.modCluster_mesh (s : State) (cl : Nat) (f : Cluster → Cluster) : (s.modCluster cl f).mesh = s.mesh := rfl
@[simp] theorem State.modCluster_mreqs (s : State) (cl : Nat) (f : Cluster → Cluster) : (s.modCluster cl f).mreqs = s.mreqs := rfl
@[simp] theorem State.modCluster_lent (s : State) (cl : Nat) (f : Cluster → Cluster) : (s.modCluster cl f).lent = s.lent := rfl
@[simp] theorem State.modCluster_dram (s : State) (cl : Nat) (f : Cluster → Cluster) : (s.modCluster cl f).dram = s.dram := rfl
@[simp] theorem State.modCluster_slices (s : State) (cl : Nat) (f : Cluster → Cluster) : (s.modCluster cl f).slices = s.slices := rfl
@[simp] theorem State.modCluster_sharers (s : State) (cl : Nat) (f : Cluster → Cluster) : (s.modCluster cl f).sharers = s.sharers := rfl
@[simp] theorem State.modCluster_aside (s : State) (cl : Nat) (f : Cluster → Cluster) : (s.modCluster cl f).aside = s.aside := rfl
@[simp] theorem State.modCluster_tlb (s : State) (cl : Nat) (f : Cluster → Cluster) : (s.modCluster cl f).tlb = s.tlb := rfl
@[simp] theorem State.modCluster_stores (s : State) (cl : Nat) (f : Cluster → Cluster) : (s.modCluster cl f).stores = s.stores := rfl
@[simp] theorem State.modCluster_reqCtr (s : State) (cl : Nat) (f : Cluster → Cluster) : (s.modCluster cl f).reqCtr = s.reqCtr := rfl
@[simp] theorem State.modCluster_misses (s : State) (cl : Nat) (f : Cluster → Cluster) : (s.modCluster cl f).misses = s.misses := rfl
@[simp] theorem State.modCluster_freqs (s : State) (cl : Nat) (f : Cluster → Cluster) : (s.modCluster cl f).freqs = s.freqs := rfl
@[simp] theorem State.modCluster_slot (s : State) (cl : Nat) (f : Cluster → Cluster) : (s.modCluster cl f).slot = s.slot := rfl

/-! ### modLanding -/

@[simp] theorem State.modLanding_clk (s : State) (l : Nat) (f : Landing → Landing) : (s.modLanding l f).clk = s.clk := rfl
@[simp] theorem State.modLanding_turn (s : State) (l : Nat) (f : Landing → Landing) : (s.modLanding l f).turn = s.turn := rfl
@[simp] theorem State.modLanding_agenda (s : State) (l : Nat) (f : Landing → Landing) : (s.modLanding l f).agenda = s.agenda := rfl
@[simp] theorem State.modLanding_draws (s : State) (l : Nat) (f : Landing → Landing) : (s.modLanding l f).draws = s.draws := rfl
@[simp] theorem State.modLanding_frees (s : State) (l : Nat) (f : Landing → Landing) : (s.modLanding l f).frees = s.frees := rfl
@[simp] theorem State.modLanding_pkg (s : State) (l : Nat) (f : Landing → Landing) : (s.modLanding l f).pkg = s.pkg := rfl
@[simp] theorem State.modLanding_disp (s : State) (l : Nat) (f : Landing → Landing) : (s.modLanding l f).disp = s.disp := rfl
@[simp] theorem State.modLanding_gangs (s : State) (l : Nat) (f : Landing → Landing) : (s.modLanding l f).gangs = s.gangs := rfl
@[simp] theorem State.modLanding_shares (s : State) (l : Nat) (f : Landing → Landing) : (s.modLanding l f).shares = s.shares := rfl
@[simp] theorem State.modLanding_threads (s : State) (l : Nat) (f : Landing → Landing) : (s.modLanding l f).threads = s.threads := rfl
@[simp] theorem State.modLanding_waves (s : State) (l : Nat) (f : Landing → Landing) : (s.modLanding l f).waves = s.waves := rfl
@[simp] theorem State.modLanding_cores (s : State) (l : Nat) (f : Landing → Landing) : (s.modLanding l f).cores = s.cores := rfl
@[simp] theorem State.modLanding_clusters (s : State) (l : Nat) (f : Landing → Landing) : (s.modLanding l f).clusters = s.clusters := rfl
@[simp] theorem State.modLanding_mesh (s : State) (l : Nat) (f : Landing → Landing) : (s.modLanding l f).mesh = s.mesh := rfl
@[simp] theorem State.modLanding_mreqs (s : State) (l : Nat) (f : Landing → Landing) : (s.modLanding l f).mreqs = s.mreqs := rfl
@[simp] theorem State.modLanding_lent (s : State) (l : Nat) (f : Landing → Landing) : (s.modLanding l f).lent = s.lent := rfl
@[simp] theorem State.modLanding_dram (s : State) (l : Nat) (f : Landing → Landing) : (s.modLanding l f).dram = s.dram := rfl
@[simp] theorem State.modLanding_slices (s : State) (l : Nat) (f : Landing → Landing) : (s.modLanding l f).slices = s.slices := rfl
@[simp] theorem State.modLanding_sharers (s : State) (l : Nat) (f : Landing → Landing) : (s.modLanding l f).sharers = s.sharers := rfl
@[simp] theorem State.modLanding_aside (s : State) (l : Nat) (f : Landing → Landing) : (s.modLanding l f).aside = s.aside := rfl
@[simp] theorem State.modLanding_tlb (s : State) (l : Nat) (f : Landing → Landing) : (s.modLanding l f).tlb = s.tlb := rfl
@[simp] theorem State.modLanding_stores (s : State) (l : Nat) (f : Landing → Landing) : (s.modLanding l f).stores = s.stores := rfl
@[simp] theorem State.modLanding_reqCtr (s : State) (l : Nat) (f : Landing → Landing) : (s.modLanding l f).reqCtr = s.reqCtr := rfl
@[simp] theorem State.modLanding_misses (s : State) (l : Nat) (f : Landing → Landing) : (s.modLanding l f).misses = s.misses := rfl
@[simp] theorem State.modLanding_freqs (s : State) (l : Nat) (f : Landing → Landing) : (s.modLanding l f).freqs = s.freqs := rfl
@[simp] theorem State.modLanding_slot (s : State) (l : Nat) (f : Landing → Landing) : (s.modLanding l f).slot = s.slot := rfl

/-! ### modWave -/

@[simp] theorem State.modWave_clk (s : State) (cl e sl : Nat) (f : Wave → Wave) : (s.modWave cl e sl f).clk = s.clk := by
  unfold State.modWave; split <;> rfl
@[simp] theorem State.modWave_turn (s : State) (cl e sl : Nat) (f : Wave → Wave) : (s.modWave cl e sl f).turn = s.turn := by
  unfold State.modWave; split <;> rfl
@[simp] theorem State.modWave_agenda (s : State) (cl e sl : Nat) (f : Wave → Wave) : (s.modWave cl e sl f).agenda = s.agenda := by
  unfold State.modWave; split <;> rfl
@[simp] theorem State.modWave_draws (s : State) (cl e sl : Nat) (f : Wave → Wave) : (s.modWave cl e sl f).draws = s.draws := by
  unfold State.modWave; split <;> rfl
@[simp] theorem State.modWave_frees (s : State) (cl e sl : Nat) (f : Wave → Wave) : (s.modWave cl e sl f).frees = s.frees := by
  unfold State.modWave; split <;> rfl
@[simp] theorem State.modWave_pkg (s : State) (cl e sl : Nat) (f : Wave → Wave) : (s.modWave cl e sl f).pkg = s.pkg := by
  unfold State.modWave; split <;> rfl
@[simp] theorem State.modWave_disp (s : State) (cl e sl : Nat) (f : Wave → Wave) : (s.modWave cl e sl f).disp = s.disp := by
  unfold State.modWave; split <;> rfl
@[simp] theorem State.modWave_gangs (s : State) (cl e sl : Nat) (f : Wave → Wave) : (s.modWave cl e sl f).gangs = s.gangs := by
  unfold State.modWave; split <;> rfl
@[simp] theorem State.modWave_shares (s : State) (cl e sl : Nat) (f : Wave → Wave) : (s.modWave cl e sl f).shares = s.shares := by
  unfold State.modWave; split <;> rfl
@[simp] theorem State.modWave_threads (s : State) (cl e sl : Nat) (f : Wave → Wave) : (s.modWave cl e sl f).threads = s.threads := by
  unfold State.modWave; split <;> rfl
@[simp] theorem State.modWave_cores (s : State) (cl e sl : Nat) (f : Wave → Wave) : (s.modWave cl e sl f).cores = s.cores := by
  unfold State.modWave; split <;> rfl
@[simp] theorem State.modWave_clusters (s : State) (cl e sl : Nat) (f : Wave → Wave) : (s.modWave cl e sl f).clusters = s.clusters := by
  unfold State.modWave; split <;> rfl
@[simp] theorem State.modWave_landings (s : State) (cl e sl : Nat) (f : Wave → Wave) : (s.modWave cl e sl f).landings = s.landings := by
  unfold State.modWave; split <;> rfl
@[simp] theorem State.modWave_mesh (s : State) (cl e sl : Nat) (f : Wave → Wave) : (s.modWave cl e sl f).mesh = s.mesh := by
  unfold State.modWave; split <;> rfl
@[simp] theorem State.modWave_mreqs (s : State) (cl e sl : Nat) (f : Wave → Wave) : (s.modWave cl e sl f).mreqs = s.mreqs := by
  unfold State.modWave; split <;> rfl
@[simp] theorem State.modWave_lent (s : State) (cl e sl : Nat) (f : Wave → Wave) : (s.modWave cl e sl f).lent = s.lent := by
  unfold State.modWave; split <;> rfl
@[simp] theorem State.modWave_dram (s : State) (cl e sl : Nat) (f : Wave → Wave) : (s.modWave cl e sl f).dram = s.dram := by
  unfold State.modWave; split <;> rfl
@[simp] theorem State.modWave_slices (s : State) (cl e sl : Nat) (f : Wave → Wave) : (s.modWave cl e sl f).slices = s.slices := by
  unfold State.modWave; split <;> rfl
@[simp] theorem State.modWave_sharers (s : State) (cl e sl : Nat) (f : Wave → Wave) : (s.modWave cl e sl f).sharers = s.sharers := by
  unfold State.modWave; split <;> rfl
@[simp] theorem State.modWave_aside (s : State) (cl e sl : Nat) (f : Wave → Wave) : (s.modWave cl e sl f).aside = s.aside := by
  unfold State.modWave; split <;> rfl
@[simp] theorem State.modWave_tlb (s : State) (cl e sl : Nat) (f : Wave → Wave) : (s.modWave cl e sl f).tlb = s.tlb := by
  unfold State.modWave; split <;> rfl
@[simp] theorem State.modWave_stores (s : State) (cl e sl : Nat) (f : Wave → Wave) : (s.modWave cl e sl f).stores = s.stores := by
  unfold State.modWave; split <;> rfl
@[simp] theorem State.modWave_reqCtr (s : State) (cl e sl : Nat) (f : Wave → Wave) : (s.modWave cl e sl f).reqCtr = s.reqCtr := by
  unfold State.modWave; split <;> rfl
@[simp] theorem State.modWave_misses (s : State) (cl e sl : Nat) (f : Wave → Wave) : (s.modWave cl e sl f).misses = s.misses := by
  unfold State.modWave; split <;> rfl
@[simp] theorem State.modWave_freqs (s : State) (cl e sl : Nat) (f : Wave → Wave) : (s.modWave cl e sl f).freqs = s.freqs := by
  unfold State.modWave; split <;> rfl
@[simp] theorem State.modWave_slot (s : State) (cl e sl : Nat) (f : Wave → Wave) : (s.modWave cl e sl f).slot = s.slot := by
  unfold State.modWave; split <;> rfl

/-! ### modGang -/

@[simp] theorem State.modGang_clk (s : State) (g : Nat) (f : Gang → Gang) : (s.modGang g f).clk = s.clk := by
  unfold State.modGang; split <;> rfl
@[simp] theorem State.modGang_turn (s : State) (g : Nat) (f : Gang → Gang) : (s.modGang g f).turn = s.turn := by
  unfold State.modGang; split <;> rfl
@[simp] theorem State.modGang_agenda (s : State) (g : Nat) (f : Gang → Gang) : (s.modGang g f).agenda = s.agenda := by
  unfold State.modGang; split <;> rfl
@[simp] theorem State.modGang_draws (s : State) (g : Nat) (f : Gang → Gang) : (s.modGang g f).draws = s.draws := by
  unfold State.modGang; split <;> rfl
@[simp] theorem State.modGang_frees (s : State) (g : Nat) (f : Gang → Gang) : (s.modGang g f).frees = s.frees := by
  unfold State.modGang; split <;> rfl
@[simp] theorem State.modGang_pkg (s : State) (g : Nat) (f : Gang → Gang) : (s.modGang g f).pkg = s.pkg := by
  unfold State.modGang; split <;> rfl
@[simp] theorem State.modGang_disp (s : State) (g : Nat) (f : Gang → Gang) : (s.modGang g f).disp = s.disp := by
  unfold State.modGang; split <;> rfl
@[simp] theorem State.modGang_shares (s : State) (g : Nat) (f : Gang → Gang) : (s.modGang g f).shares = s.shares := by
  unfold State.modGang; split <;> rfl
@[simp] theorem State.modGang_threads (s : State) (g : Nat) (f : Gang → Gang) : (s.modGang g f).threads = s.threads := by
  unfold State.modGang; split <;> rfl
@[simp] theorem State.modGang_waves (s : State) (g : Nat) (f : Gang → Gang) : (s.modGang g f).waves = s.waves := by
  unfold State.modGang; split <;> rfl
@[simp] theorem State.modGang_cores (s : State) (g : Nat) (f : Gang → Gang) : (s.modGang g f).cores = s.cores := by
  unfold State.modGang; split <;> rfl
@[simp] theorem State.modGang_clusters (s : State) (g : Nat) (f : Gang → Gang) : (s.modGang g f).clusters = s.clusters := by
  unfold State.modGang; split <;> rfl
@[simp] theorem State.modGang_landings (s : State) (g : Nat) (f : Gang → Gang) : (s.modGang g f).landings = s.landings := by
  unfold State.modGang; split <;> rfl
@[simp] theorem State.modGang_mesh (s : State) (g : Nat) (f : Gang → Gang) : (s.modGang g f).mesh = s.mesh := by
  unfold State.modGang; split <;> rfl
@[simp] theorem State.modGang_mreqs (s : State) (g : Nat) (f : Gang → Gang) : (s.modGang g f).mreqs = s.mreqs := by
  unfold State.modGang; split <;> rfl
@[simp] theorem State.modGang_lent (s : State) (g : Nat) (f : Gang → Gang) : (s.modGang g f).lent = s.lent := by
  unfold State.modGang; split <;> rfl
@[simp] theorem State.modGang_dram (s : State) (g : Nat) (f : Gang → Gang) : (s.modGang g f).dram = s.dram := by
  unfold State.modGang; split <;> rfl
@[simp] theorem State.modGang_slices (s : State) (g : Nat) (f : Gang → Gang) : (s.modGang g f).slices = s.slices := by
  unfold State.modGang; split <;> rfl
@[simp] theorem State.modGang_sharers (s : State) (g : Nat) (f : Gang → Gang) : (s.modGang g f).sharers = s.sharers := by
  unfold State.modGang; split <;> rfl
@[simp] theorem State.modGang_aside (s : State) (g : Nat) (f : Gang → Gang) : (s.modGang g f).aside = s.aside := by
  unfold State.modGang; split <;> rfl
@[simp] theorem State.modGang_tlb (s : State) (g : Nat) (f : Gang → Gang) : (s.modGang g f).tlb = s.tlb := by
  unfold State.modGang; split <;> rfl
@[simp] theorem State.modGang_stores (s : State) (g : Nat) (f : Gang → Gang) : (s.modGang g f).stores = s.stores := by
  unfold State.modGang; split <;> rfl
@[simp] theorem State.modGang_reqCtr (s : State) (g : Nat) (f : Gang → Gang) : (s.modGang g f).reqCtr = s.reqCtr := by
  unfold State.modGang; split <;> rfl
@[simp] theorem State.modGang_misses (s : State) (g : Nat) (f : Gang → Gang) : (s.modGang g f).misses = s.misses := by
  unfold State.modGang; split <;> rfl
@[simp] theorem State.modGang_freqs (s : State) (g : Nat) (f : Gang → Gang) : (s.modGang g f).freqs = s.freqs := by
  unfold State.modGang; split <;> rfl
@[simp] theorem State.modGang_slot (s : State) (g : Nat) (f : Gang → Gang) : (s.modGang g f).slot = s.slot := by
  unfold State.modGang; split <;> rfl

/-! ### modShare -/

@[simp] theorem State.modShare_clk (s : State) (g r : Nat) (f : Share → Share) : (s.modShare g r f).clk = s.clk := by
  unfold State.modShare; split <;> rfl
@[simp] theorem State.modShare_turn (s : State) (g r : Nat) (f : Share → Share) : (s.modShare g r f).turn = s.turn := by
  unfold State.modShare; split <;> rfl
@[simp] theorem State.modShare_agenda (s : State) (g r : Nat) (f : Share → Share) : (s.modShare g r f).agenda = s.agenda := by
  unfold State.modShare; split <;> rfl
@[simp] theorem State.modShare_draws (s : State) (g r : Nat) (f : Share → Share) : (s.modShare g r f).draws = s.draws := by
  unfold State.modShare; split <;> rfl
@[simp] theorem State.modShare_frees (s : State) (g r : Nat) (f : Share → Share) : (s.modShare g r f).frees = s.frees := by
  unfold State.modShare; split <;> rfl
@[simp] theorem State.modShare_pkg (s : State) (g r : Nat) (f : Share → Share) : (s.modShare g r f).pkg = s.pkg := by
  unfold State.modShare; split <;> rfl
@[simp] theorem State.modShare_disp (s : State) (g r : Nat) (f : Share → Share) : (s.modShare g r f).disp = s.disp := by
  unfold State.modShare; split <;> rfl
@[simp] theorem State.modShare_gangs (s : State) (g r : Nat) (f : Share → Share) : (s.modShare g r f).gangs = s.gangs := by
  unfold State.modShare; split <;> rfl
@[simp] theorem State.modShare_threads (s : State) (g r : Nat) (f : Share → Share) : (s.modShare g r f).threads = s.threads := by
  unfold State.modShare; split <;> rfl
@[simp] theorem State.modShare_waves (s : State) (g r : Nat) (f : Share → Share) : (s.modShare g r f).waves = s.waves := by
  unfold State.modShare; split <;> rfl
@[simp] theorem State.modShare_cores (s : State) (g r : Nat) (f : Share → Share) : (s.modShare g r f).cores = s.cores := by
  unfold State.modShare; split <;> rfl
@[simp] theorem State.modShare_clusters (s : State) (g r : Nat) (f : Share → Share) : (s.modShare g r f).clusters = s.clusters := by
  unfold State.modShare; split <;> rfl
@[simp] theorem State.modShare_landings (s : State) (g r : Nat) (f : Share → Share) : (s.modShare g r f).landings = s.landings := by
  unfold State.modShare; split <;> rfl
@[simp] theorem State.modShare_mesh (s : State) (g r : Nat) (f : Share → Share) : (s.modShare g r f).mesh = s.mesh := by
  unfold State.modShare; split <;> rfl
@[simp] theorem State.modShare_mreqs (s : State) (g r : Nat) (f : Share → Share) : (s.modShare g r f).mreqs = s.mreqs := by
  unfold State.modShare; split <;> rfl
@[simp] theorem State.modShare_lent (s : State) (g r : Nat) (f : Share → Share) : (s.modShare g r f).lent = s.lent := by
  unfold State.modShare; split <;> rfl
@[simp] theorem State.modShare_dram (s : State) (g r : Nat) (f : Share → Share) : (s.modShare g r f).dram = s.dram := by
  unfold State.modShare; split <;> rfl
@[simp] theorem State.modShare_slices (s : State) (g r : Nat) (f : Share → Share) : (s.modShare g r f).slices = s.slices := by
  unfold State.modShare; split <;> rfl
@[simp] theorem State.modShare_sharers (s : State) (g r : Nat) (f : Share → Share) : (s.modShare g r f).sharers = s.sharers := by
  unfold State.modShare; split <;> rfl
@[simp] theorem State.modShare_aside (s : State) (g r : Nat) (f : Share → Share) : (s.modShare g r f).aside = s.aside := by
  unfold State.modShare; split <;> rfl
@[simp] theorem State.modShare_tlb (s : State) (g r : Nat) (f : Share → Share) : (s.modShare g r f).tlb = s.tlb := by
  unfold State.modShare; split <;> rfl
@[simp] theorem State.modShare_stores (s : State) (g r : Nat) (f : Share → Share) : (s.modShare g r f).stores = s.stores := by
  unfold State.modShare; split <;> rfl
@[simp] theorem State.modShare_reqCtr (s : State) (g r : Nat) (f : Share → Share) : (s.modShare g r f).reqCtr = s.reqCtr := by
  unfold State.modShare; split <;> rfl
@[simp] theorem State.modShare_misses (s : State) (g r : Nat) (f : Share → Share) : (s.modShare g r f).misses = s.misses := by
  unfold State.modShare; split <;> rfl
@[simp] theorem State.modShare_freqs (s : State) (g r : Nat) (f : Share → Share) : (s.modShare g r f).freqs = s.freqs := by
  unfold State.modShare; split <;> rfl
@[simp] theorem State.modShare_slot (s : State) (g r : Nat) (f : Share → Share) : (s.modShare g r f).slot = s.slot := by
  unfold State.modShare; split <;> rfl

/-! ### Threads after an update -/

theorem State.thread_of_threads {s t : State} (h : t.threads = s.threads) (q : Place) : t.thread q = s.thread q := by
  unfold State.thread State.thread?; rw [h]

@[simp] theorem State.thread_setThread_self (s : State) (p : Place) (t : Thread) :
    (s.setThread p t).thread p = t := by
  simp [State.thread, State.thread?, State.setThread]

theorem State.thread_setThread_of_ne (s : State) (p q : Place) (t : Thread) (h : q.key ≠ p.key) :
    (s.setThread p t).thread q = s.thread q := by
  simp [State.thread, State.thread?, State.setThread, FMap.get?_put_of_ne _ _ _ _ h]

theorem State.thread_setThread_of_key (s : State) (p q : Place) (t : Thread) (h : q.key = p.key) :
    (s.setThread p t).thread q = t := by
  simp [State.thread, State.thread?, State.setThread, h]

@[simp] theorem State.thread_modThread_self (s : State) (p : Place) (f : Thread → Thread) :
    (s.modThread p f).thread p = f (s.thread p) := State.thread_setThread_self s p _

theorem State.thread_modThread_of_ne (s : State) (p q : Place) (f : Thread → Thread) (h : q.key ≠ p.key) :
    (s.modThread p f).thread q = s.thread q := State.thread_setThread_of_ne s p q _ h

@[simp] theorem State.thread_modCore (s : State) (c : CoreId) (f : Core → Core) (q : Place) :
    (s.modCore c f).thread q = s.thread q := rfl

@[simp] theorem State.thread_modCluster (s : State) (cl : Nat) (f : Cluster → Cluster) (q : Place) :
    (s.modCluster cl f).thread q = s.thread q := rfl

@[simp] theorem State.thread_modLanding (s : State) (l : Nat) (f : Landing → Landing) (q : Place) :
    (s.modLanding l f).thread q = s.thread q := rfl

@[simp] theorem State.thread_modWave (s : State) (cl e sl : Nat) (f : Wave → Wave) (q : Place) :
    (s.modWave cl e sl f).thread q = s.thread q := State.thread_of_threads (State.modWave_threads s cl e sl f) q

@[simp] theorem State.thread_modGang (s : State) (g : Nat) (f : Gang → Gang) (q : Place) :
    (s.modGang g f).thread q = s.thread q := State.thread_of_threads (State.modGang_threads s g f) q

@[simp] theorem State.thread_modShare (s : State) (g r : Nat) (f : Share → Share) (q : Place) :
    (s.modShare g r f).thread q = s.thread q := State.thread_of_threads (State.modShare_threads s g r f) q

@[simp] theorem State.thread?_setThread_self (s : State) (p : Place) (t : Thread) :
    (s.setThread p t).thread? p = some t := by
  simp [State.thread?, State.setThread]

theorem State.thread?_setThread_of_ne (s : State) (p q : Place) (t : Thread) (h : q.key ≠ p.key) :
    (s.setThread p t).thread? q = s.thread? q := by
  simp [State.thread?, State.setThread, FMap.get?_put_of_ne _ _ _ _ h]

theorem State.thread_eq_of_thread? {s : State} {p : Place} {t : Thread} (h : s.thread? p = some t) :
    s.thread p = t := by
  simp [State.thread, h]

/-! ### Cores, clusters and landings after an update -/

theorem State.core_of_cores {s t : State} (h : t.cores = s.cores) (c : CoreId) : t.core c = s.core c := by
  unfold State.core; rw [h]

@[simp] theorem State.core_modCore_self (s : State) (c : CoreId) (f : Core → Core) :
    (s.modCore c f).core c = f (s.core c) := by
  simp [State.core, State.modCore]

theorem State.core_modCore_of_key (s : State) (c d : CoreId) (f : Core → Core) (h : d.key = c.key) :
    (s.modCore c f).core d = f (s.core d) := by
  simp [State.core, State.modCore, h]

theorem State.core_modCore_of_ne (s : State) (c d : CoreId) (f : Core → Core) (h : d.key ≠ c.key) :
    (s.modCore c f).core d = s.core d := by
  simp [State.core, State.modCore, FMap.getD_put_of_ne _ _ _ _ _ h]

@[simp] theorem State.core_setThread (s : State) (p : Place) (t : Thread) (c : CoreId) :
    (s.setThread p t).core c = s.core c := rfl

@[simp] theorem State.core_modThread (s : State) (p : Place) (f : Thread → Thread) (c : CoreId) :
    (s.modThread p f).core c = s.core c := rfl

@[simp] theorem State.cluster_modCluster_self (s : State) (cl : Nat) (f : Cluster → Cluster) :
    (s.modCluster cl f).cluster cl = f (s.cluster cl) := by
  simp [State.cluster, State.modCluster]

theorem State.cluster_modCluster_of_ne (s : State) (cl d : Nat) (f : Cluster → Cluster) (h : d ≠ cl) :
    (s.modCluster cl f).cluster d = s.cluster d := by
  simp [State.cluster, State.modCluster, FMap.getD_put_of_ne _ _ _ _ _ h]

@[simp] theorem State.landing_modLanding_self (s : State) (l : Nat) (f : Landing → Landing) :
    (s.modLanding l f).landing l = f (s.landing l) := by
  simp [State.landing, State.modLanding]

theorem State.landing_modLanding_of_ne (s : State) (l d : Nat) (f : Landing → Landing) (h : d ≠ l) :
    (s.modLanding l f).landing d = s.landing d := by
  simp [State.landing, State.modLanding, FMap.getD_put_of_ne _ _ _ _ _ h]

end Sys2Proof.Machine
end

