-- ==== Sys2Proof/Laws/Thread.lean ====
section
/-!
SUPPORT. The named updates of a thread: one lemma for each field and each update, and what a register reads
after one.
-/

namespace Sys2Proof.Machine

/-! ### setX -/

@[simp] theorem Thread.setX_gang (t : Thread) (r : Reg) (v : Word) : (t.setX r v).gang = t.gang := by
  unfold Thread.setX; split <;> rfl
@[simp] theorem Thread.setX_rank (t : Thread) (r : Reg) (v : Word) : (t.setX r v).rank = t.rank := by
  unfold Thread.setX; split <;> rfl
@[simp] theorem Thread.setX_f (t : Thread) (r : Reg) (v : Word) : (t.setX r v).f = t.f := by
  unfold Thread.setX; split <;> rfl
@[simp] theorem Thread.setX_p (t : Thread) (r : Reg) (v : Word) : (t.setX r v).p = t.p := by
  unfold Thread.setX; split <;> rfl
@[simp] theorem Thread.setX_q (t : Thread) (r : Reg) (v : Word) : (t.setX r v).q = t.q := by
  unfold Thread.setX; split <;> rfl
@[simp] theorem Thread.setX_qpres (t : Thread) (r : Reg) (v : Word) : (t.setX r v).qpres = t.qpres := by
  unfold Thread.setX; split <;> rfl
@[simp] theorem Thread.setX_qout (t : Thread) (r : Reg) (v : Word) : (t.setX r v).qout = t.qout := by
  unfold Thread.setX; split <;> rfl
@[simp] theorem Thread.setX_qgot (t : Thread) (r : Reg) (v : Word) : (t.setX r v).qgot = t.qgot := by
  unfold Thread.setX; split <;> rfl
@[simp] theorem Thread.setX_pc (t : Thread) (r : Reg) (v : Word) : (t.setX r v).pc = t.pc := by
  unfold Thread.setX; split <;> rfl
@[simp] theorem Thread.setX_run (t : Thread) (r : Reg) (v : Word) : (t.setX r v).run = t.run := by
  unfold Thread.setX; split <;> rfl
@[simp] theorem Thread.setX_fmode (t : Thread) (r : Reg) (v : Word) : (t.setX r v).fmode = t.fmode := by
  unfold Thread.setX; split <;> rfl
@[simp] theorem Thread.setX_fflags (t : Thread) (r : Reg) (v : Word) : (t.setX r v).fflags = t.fflags := by
  unfold Thread.setX; split <;> rfl
@[simp] theorem Thread.setX_nbv (t : Thread) (r : Reg) (v : Word) : (t.setX r v).nbv = t.nbv := by
  unfold Thread.setX; split <;> rfl
@[simp] theorem Thread.setX_grem (t : Thread) (r : Reg) (v : Word) : (t.setX r v).grem = t.grem := by
  unfold Thread.setX; split <;> rfl
@[simp] theorem Thread.setX_gcnd (t : Thread) (r : Reg) (v : Word) : (t.setX r v).gcnd = t.gcnd := by
  unfold Thread.setX; split <;> rfl
@[simp] theorem Thread.setX_mgrec (t : Thread) (r : Reg) (v : Word) : (t.setX r v).mgrec = t.mgrec := by
  unfold Thread.setX; split <;> rfl
@[simp] theorem Thread.setX_mode (t : Thread) (r : Reg) (v : Word) : (t.setX r v).mode = t.mode := by
  unfold Thread.setX; split <;> rfl
@[simp] theorem Thread.setX_pmode (t : Thread) (r : Reg) (v : Word) : (t.setX r v).pmode = t.pmode := by
  unfold Thread.setX; split <;> rfl
@[simp] theorem Thread.setX_cause (t : Thread) (r : Reg) (v : Word) : (t.setX r v).cause = t.cause := by
  unfold Thread.setX; split <;> rfl
@[simp] theorem Thread.setX_epc (t : Thread) (r : Reg) (v : Word) : (t.setX r v).epc = t.epc := by
  unfold Thread.setX; split <;> rfl
@[simp] theorem Thread.setX_eval (t : Thread) (r : Reg) (v : Word) : (t.setX r v).eval = t.eval := by
  unfold Thread.setX; split <;> rfl
@[simp] theorem Thread.setX_eguard (t : Thread) (r : Reg) (v : Word) : (t.setX r v).eguard = t.eguard := by
  unfold Thread.setX; split <;> rfl
@[simp] theorem Thread.setX_escr (t : Thread) (r : Reg) (v : Word) : (t.setX r v).escr = t.escr := by
  unfold Thread.setX; split <;> rfl
@[simp] theorem Thread.setX_reply (t : Thread) (r : Reg) (v : Word) : (t.setX r v).reply = t.reply := by
  unfold Thread.setX; split <;> rfl
@[simp] theorem Thread.setX_strm (t : Thread) (r : Reg) (v : Word) : (t.setX r v).strm = t.strm := by
  unfold Thread.setX; split <;> rfl
@[simp] theorem Thread.setX_pend (t : Thread) (r : Reg) (v : Word) : (t.setX r v).pend = t.pend := by
  unfold Thread.setX; split <;> rfl
@[simp] theorem Thread.setX_loads (t : Thread) (r : Reg) (v : Word) : (t.setX r v).loads = t.loads := by
  unfold Thread.setX; split <;> rfl
@[simp] theorem Thread.setX_pace (t : Thread) (r : Reg) (v : Word) : (t.setX r v).pace = t.pace := by
  unfold Thread.setX; split <;> rfl
@[simp] theorem Thread.setX_fetch (t : Thread) (r : Reg) (v : Word) : (t.setX r v).fetch = t.fetch := by
  unfold Thread.setX; split <;> rfl
@[simp] theorem Thread.setX_yieldUntil (t : Thread) (r : Reg) (v : Word) : (t.setX r v).yieldUntil = t.yieldUntil := by
  unfold Thread.setX; split <;> rfl
@[simp] theorem Thread.setX_yieldFor (t : Thread) (r : Reg) (v : Word) : (t.setX r v).yieldFor = t.yieldFor := by
  unfold Thread.setX; split <;> rfl
@[simp] theorem Thread.setX_ready (t : Thread) (r : Reg) (v : Word) : (t.setX r v).ready = t.ready := by
  unfold Thread.setX; split <;> rfl
@[simp] theorem Thread.setX_lastPc (t : Thread) (r : Reg) (v : Word) : (t.setX r v).lastPc = t.lastPc := by
  unfold Thread.setX; split <;> rfl
@[simp] theorem Thread.setX_flagDue (t : Thread) (r : Reg) (v : Word) : (t.setX r v).flagDue = t.flagDue := by
  unfold Thread.setX; split <;> rfl
@[simp] theorem Thread.setX_acq (t : Thread) (r : Reg) (v : Word) : (t.setX r v).acq = t.acq := by
  unfold Thread.setX; split <;> rfl
@[simp] theorem Thread.setX_busy (t : Thread) (r : Reg) (v : Word) : (t.setX r v).busy = t.busy := by
  unfold Thread.setX; split <;> rfl
@[simp] theorem Thread.setX_entered (t : Thread) (r : Reg) (v : Word) : (t.setX r v).entered = t.entered := by
  unfold Thread.setX; split <;> rfl
@[simp] theorem Thread.setX_ending (t : Thread) (r : Reg) (v : Word) : (t.setX r v).ending = t.ending := by
  unfold Thread.setX; split <;> rfl
@[simp] theorem Thread.setX_lay (t : Thread) (r : Reg) (v : Word) : (t.setX r v).lay = t.lay := by
  unfold Thread.setX; split <;> rfl

/-! ### setF -/

@[simp] theorem Thread.setF_gang (t : Thread) (r : Reg) (v : W32) : (t.setF r v).gang = t.gang := rfl
@[simp] theorem Thread.setF_rank (t : Thread) (r : Reg) (v : W32) : (t.setF r v).rank = t.rank := rfl
@[simp] theorem Thread.setF_x (t : Thread) (r : Reg) (v : W32) : (t.setF r v).x = t.x := rfl
@[simp] theorem Thread.setF_p (t : Thread) (r : Reg) (v : W32) : (t.setF r v).p = t.p := rfl
@[simp] theorem Thread.setF_q (t : Thread) (r : Reg) (v : W32) : (t.setF r v).q = t.q := rfl
@[simp] theorem Thread.setF_qpres (t : Thread) (r : Reg) (v : W32) : (t.setF r v).qpres = t.qpres := rfl
@[simp] theorem Thread.setF_qout (t : Thread) (r : Reg) (v : W32) : (t.setF r v).qout = t.qout := rfl
@[simp] theorem Thread.setF_qgot (t : Thread) (r : Reg) (v : W32) : (t.setF r v).qgot = t.qgot := rfl
@[simp] theorem Thread.setF_pc (t : Thread) (r : Reg) (v : W32) : (t.setF r v).pc = t.pc := rfl
@[simp] theorem Thread.setF_run (t : Thread) (r : Reg) (v : W32) : (t.setF r v).run = t.run := rfl
@[simp] theorem Thread.setF_fmode (t : Thread) (r : Reg) (v : W32) : (t.setF r v).fmode = t.fmode := rfl
@[simp] theorem Thread.setF_fflags (t : Thread) (r : Reg) (v : W32) : (t.setF r v).fflags = t.fflags := rfl
@[simp] theorem Thread.setF_nbv (t : Thread) (r : Reg) (v : W32) : (t.setF r v).nbv = t.nbv := rfl
@[simp] theorem Thread.setF_grem (t : Thread) (r : Reg) (v : W32) : (t.setF r v).grem = t.grem := rfl
@[simp] theorem Thread.setF_gcnd (t : Thread) (r : Reg) (v : W32) : (t.setF r v).gcnd = t.gcnd := rfl
@[simp] theorem Thread.setF_mgrec (t : Thread) (r : Reg) (v : W32) : (t.setF r v).mgrec = t.mgrec := rfl
@[simp] theorem Thread.setF_mode (t : Thread) (r : Reg) (v : W32) : (t.setF r v).mode = t.mode := rfl
@[simp] theorem Thread.setF_pmode (t : Thread) (r : Reg) (v : W32) : (t.setF r v).pmode = t.pmode := rfl
@[simp] theorem Thread.setF_cause (t : Thread) (r : Reg) (v : W32) : (t.setF r v).cause = t.cause := rfl
@[simp] theorem Thread.setF_epc (t : Thread) (r : Reg) (v : W32) : (t.setF r v).epc = t.epc := rfl
@[simp] theorem Thread.setF_eval (t : Thread) (r : Reg) (v : W32) : (t.setF r v).eval = t.eval := rfl
@[simp] theorem Thread.setF_eguard (t : Thread) (r : Reg) (v : W32) : (t.setF r v).eguard = t.eguard := rfl
@[simp] theorem Thread.setF_escr (t : Thread) (r : Reg) (v : W32) : (t.setF r v).escr = t.escr := rfl
@[simp] theorem Thread.setF_reply (t : Thread) (r : Reg) (v : W32) : (t.setF r v).reply = t.reply := rfl
@[simp] theorem Thread.setF_strm (t : Thread) (r : Reg) (v : W32) : (t.setF r v).strm = t.strm := rfl
@[simp] theorem Thread.setF_pend (t : Thread) (r : Reg) (v : W32) : (t.setF r v).pend = t.pend := rfl
@[simp] theorem Thread.setF_loads (t : Thread) (r : Reg) (v : W32) : (t.setF r v).loads = t.loads := rfl
@[simp] theorem Thread.setF_pace (t : Thread) (r : Reg) (v : W32) : (t.setF r v).pace = t.pace := rfl
@[simp] theorem Thread.setF_fetch (t : Thread) (r : Reg) (v : W32) : (t.setF r v).fetch = t.fetch := rfl
@[simp] theorem Thread.setF_yieldUntil (t : Thread) (r : Reg) (v : W32) : (t.setF r v).yieldUntil = t.yieldUntil := rfl
@[simp] theorem Thread.setF_yieldFor (t : Thread) (r : Reg) (v : W32) : (t.setF r v).yieldFor = t.yieldFor := rfl
@[simp] theorem Thread.setF_ready (t : Thread) (r : Reg) (v : W32) : (t.setF r v).ready = t.ready := rfl
@[simp] theorem Thread.setF_lastPc (t : Thread) (r : Reg) (v : W32) : (t.setF r v).lastPc = t.lastPc := rfl
@[simp] theorem Thread.setF_flagDue (t : Thread) (r : Reg) (v : W32) : (t.setF r v).flagDue = t.flagDue := rfl
@[simp] theorem Thread.setF_acq (t : Thread) (r : Reg) (v : W32) : (t.setF r v).acq = t.acq := rfl
@[simp] theorem Thread.setF_busy (t : Thread) (r : Reg) (v : W32) : (t.setF r v).busy = t.busy := rfl
@[simp] theorem Thread.setF_entered (t : Thread) (r : Reg) (v : W32) : (t.setF r v).entered = t.entered := rfl
@[simp] theorem Thread.setF_ending (t : Thread) (r : Reg) (v : W32) : (t.setF r v).ending = t.ending := rfl
@[simp] theorem Thread.setF_lay (t : Thread) (r : Reg) (v : W32) : (t.setF r v).lay = t.lay := rfl

/-! ### setP -/

@[simp] theorem Thread.setP_gang (t : Thread) (n : Nat) (b : Bool) : (t.setP n b).gang = t.gang := by
  unfold Thread.setP; split <;> rfl
@[simp] theorem Thread.setP_rank (t : Thread) (n : Nat) (b : Bool) : (t.setP n b).rank = t.rank := by
  unfold Thread.setP; split <;> rfl
@[simp] theorem Thread.setP_x (t : Thread) (n : Nat) (b : Bool) : (t.setP n b).x = t.x := by
  unfold Thread.setP; split <;> rfl
@[simp] theorem Thread.setP_f (t : Thread) (n : Nat) (b : Bool) : (t.setP n b).f = t.f := by
  unfold Thread.setP; split <;> rfl
@[simp] theorem Thread.setP_q (t : Thread) (n : Nat) (b : Bool) : (t.setP n b).q = t.q := by
  unfold Thread.setP; split <;> rfl
@[simp] theorem Thread.setP_qpres (t : Thread) (n : Nat) (b : Bool) : (t.setP n b).qpres = t.qpres := by
  unfold Thread.setP; split <;> rfl
@[simp] theorem Thread.setP_qout (t : Thread) (n : Nat) (b : Bool) : (t.setP n b).qout = t.qout := by
  unfold Thread.setP; split <;> rfl
@[simp] theorem Thread.setP_qgot (t : Thread) (n : Nat) (b : Bool) : (t.setP n b).qgot = t.qgot := by
  unfold Thread.setP; split <;> rfl
@[simp] theorem Thread.setP_pc (t : Thread) (n : Nat) (b : Bool) : (t.setP n b).pc = t.pc := by
  unfold Thread.setP; split <;> rfl
@[simp] theorem Thread.setP_run (t : Thread) (n : Nat) (b : Bool) : (t.setP n b).run = t.run := by
  unfold Thread.setP; split <;> rfl
@[simp] theorem Thread.setP_fmode (t : Thread) (n : Nat) (b : Bool) : (t.setP n b).fmode = t.fmode := by
  unfold Thread.setP; split <;> rfl
@[simp] theorem Thread.setP_fflags (t : Thread) (n : Nat) (b : Bool) : (t.setP n b).fflags = t.fflags := by
  unfold Thread.setP; split <;> rfl
@[simp] theorem Thread.setP_nbv (t : Thread) (n : Nat) (b : Bool) : (t.setP n b).nbv = t.nbv := by
  unfold Thread.setP; split <;> rfl
@[simp] theorem Thread.setP_grem (t : Thread) (n : Nat) (b : Bool) : (t.setP n b).grem = t.grem := by
  unfold Thread.setP; split <;> rfl
@[simp] theorem Thread.setP_gcnd (t : Thread) (n : Nat) (b : Bool) : (t.setP n b).gcnd = t.gcnd := by
  unfold Thread.setP; split <;> rfl
@[simp] theorem Thread.setP_mgrec (t : Thread) (n : Nat) (b : Bool) : (t.setP n b).mgrec = t.mgrec := by
  unfold Thread.setP; split <;> rfl
@[simp] theorem Thread.setP_mode (t : Thread) (n : Nat) (b : Bool) : (t.setP n b).mode = t.mode := by
  unfold Thread.setP; split <;> rfl
@[simp] theorem Thread.setP_pmode (t : Thread) (n : Nat) (b : Bool) : (t.setP n b).pmode = t.pmode := by
  unfold Thread.setP; split <;> rfl
@[simp] theorem Thread.setP_cause (t : Thread) (n : Nat) (b : Bool) : (t.setP n b).cause = t.cause := by
  unfold Thread.setP; split <;> rfl
@[simp] theorem Thread.setP_epc (t : Thread) (n : Nat) (b : Bool) : (t.setP n b).epc = t.epc := by
  unfold Thread.setP; split <;> rfl
@[simp] theorem Thread.setP_eval (t : Thread) (n : Nat) (b : Bool) : (t.setP n b).eval = t.eval := by
  unfold Thread.setP; split <;> rfl
@[simp] theorem Thread.setP_eguard (t : Thread) (n : Nat) (b : Bool) : (t.setP n b).eguard = t.eguard := by
  unfold Thread.setP; split <;> rfl
@[simp] theorem Thread.setP_escr (t : Thread) (n : Nat) (b : Bool) : (t.setP n b).escr = t.escr := by
  unfold Thread.setP; split <;> rfl
@[simp] theorem Thread.setP_reply (t : Thread) (n : Nat) (b : Bool) : (t.setP n b).reply = t.reply := by
  unfold Thread.setP; split <;> rfl
@[simp] theorem Thread.setP_strm (t : Thread) (n : Nat) (b : Bool) : (t.setP n b).strm = t.strm := by
  unfold Thread.setP; split <;> rfl
@[simp] theorem Thread.setP_pend (t : Thread) (n : Nat) (b : Bool) : (t.setP n b).pend = t.pend := by
  unfold Thread.setP; split <;> rfl
@[simp] theorem Thread.setP_loads (t : Thread) (n : Nat) (b : Bool) : (t.setP n b).loads = t.loads := by
  unfold Thread.setP; split <;> rfl
@[simp] theorem Thread.setP_pace (t : Thread) (n : Nat) (b : Bool) : (t.setP n b).pace = t.pace := by
  unfold Thread.setP; split <;> rfl
@[simp] theorem Thread.setP_fetch (t : Thread) (n : Nat) (b : Bool) : (t.setP n b).fetch = t.fetch := by
  unfold Thread.setP; split <;> rfl
@[simp] theorem Thread.setP_yieldUntil (t : Thread) (n : Nat) (b : Bool) : (t.setP n b).yieldUntil = t.yieldUntil := by
  unfold Thread.setP; split <;> rfl
@[simp] theorem Thread.setP_yieldFor (t : Thread) (n : Nat) (b : Bool) : (t.setP n b).yieldFor = t.yieldFor := by
  unfold Thread.setP; split <;> rfl
@[simp] theorem Thread.setP_ready (t : Thread) (n : Nat) (b : Bool) : (t.setP n b).ready = t.ready := by
  unfold Thread.setP; split <;> rfl
@[simp] theorem Thread.setP_lastPc (t : Thread) (n : Nat) (b : Bool) : (t.setP n b).lastPc = t.lastPc := by
  unfold Thread.setP; split <;> rfl
@[simp] theorem Thread.setP_flagDue (t : Thread) (n : Nat) (b : Bool) : (t.setP n b).flagDue = t.flagDue := by
  unfold Thread.setP; split <;> rfl
@[simp] theorem Thread.setP_acq (t : Thread) (n : Nat) (b : Bool) : (t.setP n b).acq = t.acq := by
  unfold Thread.setP; split <;> rfl
@[simp] theorem Thread.setP_busy (t : Thread) (n : Nat) (b : Bool) : (t.setP n b).busy = t.busy := by
  unfold Thread.setP; split <;> rfl
@[simp] theorem Thread.setP_entered (t : Thread) (n : Nat) (b : Bool) : (t.setP n b).entered = t.entered := by
  unfold Thread.setP; split <;> rfl
@[simp] theorem Thread.setP_ending (t : Thread) (n : Nat) (b : Bool) : (t.setP n b).ending = t.ending := by
  unfold Thread.setP; split <;> rfl
@[simp] theorem Thread.setP_lay (t : Thread) (n : Nat) (b : Bool) : (t.setP n b).lay = t.lay := by
  unfold Thread.setP; split <;> rfl

/-! ### putReg -/

@[simp] theorem Thread.putReg_gang (t : Thread) (file : RFile) (n : Nat) (v : Word) :
    (t.putReg file n v).gang = t.gang := by
  cases file <;> simp [Thread.putReg]
@[simp] theorem Thread.putReg_rank (t : Thread) (file : RFile) (n : Nat) (v : Word) :
    (t.putReg file n v).rank = t.rank := by
  cases file <;> simp [Thread.putReg]
@[simp] theorem Thread.putReg_q (t : Thread) (file : RFile) (n : Nat) (v : Word) :
    (t.putReg file n v).q = t.q := by
  cases file <;> simp [Thread.putReg]
@[simp] theorem Thread.putReg_qpres (t : Thread) (file : RFile) (n : Nat) (v : Word) :
    (t.putReg file n v).qpres = t.qpres := by
  cases file <;> simp [Thread.putReg]
@[simp] theorem Thread.putReg_qout (t : Thread) (file : RFile) (n : Nat) (v : Word) :
    (t.putReg file n v).qout = t.qout := by
  cases file <;> simp [Thread.putReg]
@[simp] theorem Thread.putReg_qgot (t : Thread) (file : RFile) (n : Nat) (v : Word) :
    (t.putReg file n v).qgot = t.qgot := by
  cases file <;> simp [Thread.putReg]
@[simp] theorem Thread.putReg_pc (t : Thread) (file : RFile) (n : Nat) (v : Word) :
    (t.putReg file n v).pc = t.pc := by
  cases file <;> simp [Thread.putReg]
@[simp] theorem Thread.putReg_run (t : Thread) (file : RFile) (n : Nat) (v : Word) :
    (t.putReg file n v).run = t.run := by
  cases file <;> simp [Thread.putReg]
@[simp] theorem Thread.putReg_fmode (t : Thread) (file : RFile) (n : Nat) (v : Word) :
    (t.putReg file n v).fmode = t.fmode := by
  cases file <;> simp [Thread.putReg]
@[simp] theorem Thread.putReg_fflags (t : Thread) (file : RFile) (n : Nat) (v : Word) :
    (t.putReg file n v).fflags = t.fflags := by
  cases file <;> simp [Thread.putReg]
@[simp] theorem Thread.putReg_nbv (t : Thread) (file : RFile) (n : Nat) (v : Word) :
    (t.putReg file n v).nbv = t.nbv := by
  cases file <;> simp [Thread.putReg]
@[simp] theorem Thread.putReg_grem (t : Thread) (file : RFile) (n : Nat) (v : Word) :
    (t.putReg file n v).grem = t.grem := by
  cases file <;> simp [Thread.putReg]
@[simp] theorem Thread.putReg_gcnd (t : Thread) (file : RFile) (n : Nat) (v : Word) :
    (t.putReg file n v).gcnd = t.gcnd := by
  cases file <;> simp [Thread.putReg]
@[simp] theorem Thread.putReg_mgrec (t : Thread) (file : RFile) (n : Nat) (v : Word) :
    (t.putReg file n v).mgrec = t.mgrec := by
  cases file <;> simp [Thread.putReg]
@[simp] theorem Thread.putReg_mode (t : Thread) (file : RFile) (n : Nat) (v : Word) :
    (t.putReg file n v).mode = t.mode := by
  cases file <;> simp [Thread.putReg]
@[simp] theorem Thread.putReg_pmode (t : Thread) (file : RFile) (n : Nat) (v : Word) :
    (t.putReg file n v).pmode = t.pmode := by
  cases file <;> simp [Thread.putReg]
@[simp] theorem Thread.putReg_cause (t : Thread) (file : RFile) (n : Nat) (v : Word) :
    (t.putReg file n v).cause = t.cause := by
  cases file <;> simp [Thread.putReg]
@[simp] theorem Thread.putReg_epc (t : Thread) (file : RFile) (n : Nat) (v : Word) :
    (t.putReg file n v).epc = t.epc := by
  cases file <;> simp [Thread.putReg]
@[simp] theorem Thread.putReg_eval (t : Thread) (file : RFile) (n : Nat) (v : Word) :
    (t.putReg file n v).eval = t.eval := by
  cases file <;> simp [Thread.putReg]
@[simp] theorem Thread.putReg_eguard (t : Thread) (file : RFile) (n : Nat) (v : Word) :
    (t.putReg file n v).eguard = t.eguard := by
  cases file <;> simp [Thread.putReg]
@[simp] theorem Thread.putReg_escr (t : Thread) (file : RFile) (n : Nat) (v : Word) :
    (t.putReg file n v).escr = t.escr := by
  cases file <;> simp [Thread.putReg]
@[simp] theorem Thread.putReg_reply (t : Thread) (file : RFile) (n : Nat) (v : Word) :
    (t.putReg file n v).reply = t.reply := by
  cases file <;> simp [Thread.putReg]
@[simp] theorem Thread.putReg_strm (t : Thread) (file : RFile) (n : Nat) (v : Word) :
    (t.putReg file n v).strm = t.strm := by
  cases file <;> simp [Thread.putReg]
@[simp] theorem Thread.putReg_pend (t : Thread) (file : RFile) (n : Nat) (v : Word) :
    (t.putReg file n v).pend = t.pend := by
  cases file <;> simp [Thread.putReg]
@[simp] theorem Thread.putReg_loads (t : Thread) (file : RFile) (n : Nat) (v : Word) :
    (t.putReg file n v).loads = t.loads := by
  cases file <;> simp [Thread.putReg]
@[simp] theorem Thread.putReg_pace (t : Thread) (file : RFile) (n : Nat) (v : Word) :
    (t.putReg file n v).pace = t.pace := by
  cases file <;> simp [Thread.putReg]
@[simp] theorem Thread.putReg_fetch (t : Thread) (file : RFile) (n : Nat) (v : Word) :
    (t.putReg file n v).fetch = t.fetch := by
  cases file <;> simp [Thread.putReg]
@[simp] theorem Thread.putReg_yieldUntil (t : Thread) (file : RFile) (n : Nat) (v : Word) :
    (t.putReg file n v).yieldUntil = t.yieldUntil := by
  cases file <;> simp [Thread.putReg]
@[simp] theorem Thread.putReg_yieldFor (t : Thread) (file : RFile) (n : Nat) (v : Word) :
    (t.putReg file n v).yieldFor = t.yieldFor := by
  cases file <;> simp [Thread.putReg]
@[simp] theorem Thread.putReg_ready (t : Thread) (file : RFile) (n : Nat) (v : Word) :
    (t.putReg file n v).ready = t.ready := by
  cases file <;> simp [Thread.putReg]
@[simp] theorem Thread.putReg_lastPc (t : Thread) (file : RFile) (n : Nat) (v : Word) :
    (t.putReg file n v).lastPc = t.lastPc := by
  cases file <;> simp [Thread.putReg]
@[simp] theorem Thread.putReg_flagDue (t : Thread) (file : RFile) (n : Nat) (v : Word) :
    (t.putReg file n v).flagDue = t.flagDue := by
  cases file <;> simp [Thread.putReg]
@[simp] theorem Thread.putReg_acq (t : Thread) (file : RFile) (n : Nat) (v : Word) :
    (t.putReg file n v).acq = t.acq := by
  cases file <;> simp [Thread.putReg]
@[simp] theorem Thread.putReg_busy (t : Thread) (file : RFile) (n : Nat) (v : Word) :
    (t.putReg file n v).busy = t.busy := by
  cases file <;> simp [Thread.putReg]
@[simp] theorem Thread.putReg_entered (t : Thread) (file : RFile) (n : Nat) (v : Word) :
    (t.putReg file n v).entered = t.entered := by
  cases file <;> simp [Thread.putReg]
@[simp] theorem Thread.putReg_ending (t : Thread) (file : RFile) (n : Nat) (v : Word) :
    (t.putReg file n v).ending = t.ending := by
  cases file <;> simp [Thread.putReg]
@[simp] theorem Thread.putReg_lay (t : Thread) (file : RFile) (n : Nat) (v : Word) :
    (t.putReg file n v).lay = t.lay := by
  cases file <;> simp [Thread.putReg]

/-! ### landAll -/

theorem Thread.landAll_of {α : Type} (f : Thread → α) (hp : ∀ t, f { t with pend := [] } = f t)
    (hr : ∀ (t : Thread) file n v, f (t.putReg file n v) = f t) (t : Thread) : f t.landAll = f t := by
  unfold Thread.landAll
  rw [hp]
  suffices ∀ (l : List PendW) (t : Thread), f (l.foldl (fun t w => t.putReg w.file w.reg w.val) t) = f t from this _ _
  intro l
  induction l with
  | nil => intro t; rfl
  | cons w l ih => intro t; exact (ih _).trans (hr _ _ _ _)

@[simp] theorem Thread.landAll_gang (t : Thread) : t.landAll.gang = t.gang :=
  t.landAll_of (·.gang) (fun _ => rfl) (fun t file n v => t.putReg_gang file n v)
@[simp] theorem Thread.landAll_rank (t : Thread) : t.landAll.rank = t.rank :=
  t.landAll_of (·.rank) (fun _ => rfl) (fun t file n v => t.putReg_rank file n v)
@[simp] theorem Thread.landAll_q (t : Thread) : t.landAll.q = t.q :=
  t.landAll_of (·.q) (fun _ => rfl) (fun t file n v => t.putReg_q file n v)
@[simp] theorem Thread.landAll_qpres (t : Thread) : t.landAll.qpres = t.qpres :=
  t.landAll_of (·.qpres) (fun _ => rfl) (fun t file n v => t.putReg_qpres file n v)
@[simp] theorem Thread.landAll_qout (t : Thread) : t.landAll.qout = t.qout :=
  t.landAll_of (·.qout) (fun _ => rfl) (fun t file n v => t.putReg_qout file n v)
@[simp] theorem Thread.landAll_qgot (t : Thread) : t.landAll.qgot = t.qgot :=
  t.landAll_of (·.qgot) (fun _ => rfl) (fun t file n v => t.putReg_qgot file n v)
@[simp] theorem Thread.landAll_pc (t : Thread) : t.landAll.pc = t.pc :=
  t.landAll_of (·.pc) (fun _ => rfl) (fun t file n v => t.putReg_pc file n v)
@[simp] theorem Thread.landAll_run (t : Thread) : t.landAll.run = t.run :=
  t.landAll_of (·.run) (fun _ => rfl) (fun t file n v => t.putReg_run file n v)
@[simp] theorem Thread.landAll_fmode (t : Thread) : t.landAll.fmode = t.fmode :=
  t.landAll_of (·.fmode) (fun _ => rfl) (fun t file n v => t.putReg_fmode file n v)
@[simp] theorem Thread.landAll_fflags (t : Thread) : t.landAll.fflags = t.fflags :=
  t.landAll_of (·.fflags) (fun _ => rfl) (fun t file n v => t.putReg_fflags file n v)
@[simp] theorem Thread.landAll_nbv (t : Thread) : t.landAll.nbv = t.nbv :=
  t.landAll_of (·.nbv) (fun _ => rfl) (fun t file n v => t.putReg_nbv file n v)
@[simp] theorem Thread.landAll_grem (t : Thread) : t.landAll.grem = t.grem :=
  t.landAll_of (·.grem) (fun _ => rfl) (fun t file n v => t.putReg_grem file n v)
@[simp] theorem Thread.landAll_gcnd (t : Thread) : t.landAll.gcnd = t.gcnd :=
  t.landAll_of (·.gcnd) (fun _ => rfl) (fun t file n v => t.putReg_gcnd file n v)
@[simp] theorem Thread.landAll_mgrec (t : Thread) : t.landAll.mgrec = t.mgrec :=
  t.landAll_of (·.mgrec) (fun _ => rfl) (fun t file n v => t.putReg_mgrec file n v)
@[simp] theorem Thread.landAll_mode (t : Thread) : t.landAll.mode = t.mode :=
  t.landAll_of (·.mode) (fun _ => rfl) (fun t file n v => t.putReg_mode file n v)
@[simp] theorem Thread.landAll_pmode (t : Thread) : t.landAll.pmode = t.pmode :=
  t.landAll_of (·.pmode) (fun _ => rfl) (fun t file n v => t.putReg_pmode file n v)
@[simp] theorem Thread.landAll_cause (t : Thread) : t.landAll.cause = t.cause :=
  t.landAll_of (·.cause) (fun _ => rfl) (fun t file n v => t.putReg_cause file n v)
@[simp] theorem Thread.landAll_epc (t : Thread) : t.landAll.epc = t.epc :=
  t.landAll_of (·.epc) (fun _ => rfl) (fun t file n v => t.putReg_epc file n v)
@[simp] theorem Thread.landAll_eval (t : Thread) : t.landAll.eval = t.eval :=
  t.landAll_of (·.eval) (fun _ => rfl) (fun t file n v => t.putReg_eval file n v)
@[simp] theorem Thread.landAll_eguard (t : Thread) : t.landAll.eguard = t.eguard :=
  t.landAll_of (·.eguard) (fun _ => rfl) (fun t file n v => t.putReg_eguard file n v)
@[simp] theorem Thread.landAll_escr (t : Thread) : t.landAll.escr = t.escr :=
  t.landAll_of (·.escr) (fun _ => rfl) (fun t file n v => t.putReg_escr file n v)
@[simp] theorem Thread.landAll_reply (t : Thread) : t.landAll.reply = t.reply :=
  t.landAll_of (·.reply) (fun _ => rfl) (fun t file n v => t.putReg_reply file n v)
@[simp] theorem Thread.landAll_strm (t : Thread) : t.landAll.strm = t.strm :=
  t.landAll_of (·.strm) (fun _ => rfl) (fun t file n v => t.putReg_strm file n v)
@[simp] theorem Thread.landAll_loads (t : Thread) : t.landAll.loads = t.loads :=
  t.landAll_of (·.loads) (fun _ => rfl) (fun t file n v => t.putReg_loads file n v)
@[simp] theorem Thread.landAll_pace (t : Thread) : t.landAll.pace = t.pace :=
  t.landAll_of (·.pace) (fun _ => rfl) (fun t file n v => t.putReg_pace file n v)
@[simp] theorem Thread.landAll_fetch (t : Thread) : t.landAll.fetch = t.fetch :=
  t.landAll_of (·.fetch) (fun _ => rfl) (fun t file n v => t.putReg_fetch file n v)
@[simp] theorem Thread.landAll_yieldUntil (t : Thread) : t.landAll.yieldUntil = t.yieldUntil :=
  t.landAll_of (·.yieldUntil) (fun _ => rfl) (fun t file n v => t.putReg_yieldUntil file n v)
@[simp] theorem Thread.landAll_yieldFor (t : Thread) : t.landAll.yieldFor = t.yieldFor :=
  t.landAll_of (·.yieldFor) (fun _ => rfl) (fun t file n v => t.putReg_yieldFor file n v)
@[simp] theorem Thread.landAll_ready (t : Thread) : t.landAll.ready = t.ready :=
  t.landAll_of (·.ready) (fun _ => rfl) (fun t file n v => t.putReg_ready file n v)
@[simp] theorem Thread.landAll_lastPc (t : Thread) : t.landAll.lastPc = t.lastPc :=
  t.landAll_of (·.lastPc) (fun _ => rfl) (fun t file n v => t.putReg_lastPc file n v)
@[simp] theorem Thread.landAll_flagDue (t : Thread) : t.landAll.flagDue = t.flagDue :=
  t.landAll_of (·.flagDue) (fun _ => rfl) (fun t file n v => t.putReg_flagDue file n v)
@[simp] theorem Thread.landAll_acq (t : Thread) : t.landAll.acq = t.acq :=
  t.landAll_of (·.acq) (fun _ => rfl) (fun t file n v => t.putReg_acq file n v)
@[simp] theorem Thread.landAll_busy (t : Thread) : t.landAll.busy = t.busy :=
  t.landAll_of (·.busy) (fun _ => rfl) (fun t file n v => t.putReg_busy file n v)
@[simp] theorem Thread.landAll_entered (t : Thread) : t.landAll.entered = t.entered :=
  t.landAll_of (·.entered) (fun _ => rfl) (fun t file n v => t.putReg_entered file n v)
@[simp] theorem Thread.landAll_ending (t : Thread) : t.landAll.ending = t.ending :=
  t.landAll_of (·.ending) (fun _ => rfl) (fun t file n v => t.putReg_ending file n v)
@[simp] theorem Thread.landAll_lay (t : Thread) : t.landAll.lay = t.lay :=
  t.landAll_of (·.lay) (fun _ => rfl) (fun t file n v => t.putReg_lay file n v)
@[simp] theorem Thread.landAll_pend (t : Thread) : t.landAll.pend = [] := rfl

/-- With nothing paced, nothing lands. -/
theorem Thread.landAll_of_pend (t : Thread) (h : t.pend = []) : t.landAll = t := by
  unfold Thread.landAll
  rw [h]
  cases t
  simp only at h
  simp [h]

/-! ### What a register reads after a write -/

theorem Thread.getX_setX (t : Thread) (d r : Reg) (v : Word) :
    (t.setX d v).getX r = if r = d ∧ d ≠ 0 then v else t.getX r := by
  unfold Thread.setX Thread.getX
  by_cases hd : d = 0
  · subst hd; simp
  · by_cases hr : r = 0
    · subst hr
      have : ¬ (0 : Reg) = d := fun e => hd e.symm
      simp [hd, this]
    · by_cases h : r = d
      · subst h; simp [hd]
      · have : d.val ≠ r.val := fun e => h (Fin.ext e.symm)
        simp [hd, hr, h, Vector.getElem_set_ne, this]

@[simp] theorem Thread.getX_zero (t : Thread) : t.getX 0 = 0 := by simp [Thread.getX]

@[simp] theorem Thread.getP_zero (t : Thread) : t.getP 0 = true := by simp [Thread.getP]

theorem Thread.getF_setF (t : Thread) (d r : Reg) (v : W32) :
    (t.setF d v).getF r = if r = d then v else t.getF r := by
  unfold Thread.setF Thread.getF
  by_cases h : r = d
  · subst h; simp
  · have : d.val ≠ r.val := fun e => h (Fin.ext e.symm)
    simp [h, Vector.getElem_set_ne, this]

@[simp] theorem Thread.getX_setF (t : Thread) (d r : Reg) (v : W32) : (t.setF d v).getX r = t.getX r := rfl
@[simp] theorem Thread.getP_setF (t : Thread) (d : Reg) (n : Pred) (v : W32) : (t.setF d v).getP n = t.getP n := rfl
@[simp] theorem Thread.getF_setX (t : Thread) (d r : Reg) (v : Word) : (t.setX d v).getF r = t.getF r := by
  simp [Thread.getF]
@[simp] theorem Thread.getP_setX (t : Thread) (d : Reg) (n : Pred) (v : Word) : (t.setX d v).getP n = t.getP n := by
  simp [Thread.getP]
@[simp] theorem Thread.getX_setP (t : Thread) (d : Nat) (r : Reg) (b : Bool) : (t.setP d b).getX r = t.getX r := by
  simp [Thread.getX]
@[simp] theorem Thread.getF_setP (t : Thread) (d : Nat) (r : Reg) (b : Bool) : (t.setP d b).getF r = t.getF r := by
  simp [Thread.getF]

theorem getLsbD_setBit {w : Nat} (v : BitVec w) (i j : Nat) (b : Bool) (hi : i < w) :
    (setBit v i b).getLsbD j = if j = i then b else v.getLsbD j := by
  unfold setBit
  by_cases h : j = i
  · subst h; cases b <;> simp [hi]
  · have : ¬ i = j := fun e => h e.symm
    by_cases hj : j < w
    · cases b <;> simp [h, hj]
    · have hv : v.getLsbD j = false := BitVec.getLsbD_of_ge v j (by omega)
      cases b <;> simp [h, hj, hv, this]

theorem Thread.getP_setP (t : Thread) (n : Nat) (m : Pred) (b : Bool) (hn : n < 96) :
    (t.setP n b).getP m = if m.val = n ∧ n ≠ 0 then b else t.getP m := by
  unfold Thread.setP Thread.getP
  by_cases h0 : n = 0
  · subst h0; simp
  · by_cases hm : m = 0
    · subst hm
      have : ¬ (0 : Nat) = n := fun e => h0 e.symm
      simp [h0, this]
    · simp only [h0, if_false, hm, getLsbD_setBit _ _ _ _ hn]
      by_cases h : m.val = n <;> simp [h, h0]

end Sys2Proof.Machine
end

