-- ==== Sys2Proof/Laws/Path.lean ====
section
/-!
SUPPORT. What the memory path leaves alone: a store's progress, a fill, a release touch memory, caches, counters
and the stores in flight, and nothing else of the device.
-/

namespace Sys2Proof.Machine

/-- t differs from s in memory, caches, counters, translations and stores in flight at most. -/
structure MemPath (s t : State) : Prop where
  clk : t.clk = s.clk
  turn : t.turn = s.turn
  agenda : t.agenda = s.agenda
  draws : t.draws = s.draws
  frees : t.frees = s.frees
  disp : t.disp = s.disp
  gangs : t.gangs = s.gangs
  shares : t.shares = s.shares
  threads : t.threads = s.threads
  waves : t.waves = s.waves
  cores : t.cores = s.cores
  mesh : t.mesh = s.mesh
  mreqs : t.mreqs = s.mreqs
  lent : t.lent = s.lent
  misses : t.misses = s.misses
  pkg : { t.pkg with poison := [] } = { s.pkg with poison := [] }

theorem MemPath.refl (s : State) : MemPath s s :=
  ⟨rfl, rfl, rfl, rfl, rfl, rfl, rfl, rfl, rfl, rfl, rfl, rfl, rfl, rfl, rfl, rfl⟩

theorem MemPath.trans {s t u : State} (h : MemPath s t) (k : MemPath t u) : MemPath s u :=
  ⟨k.clk.trans h.clk, k.turn.trans h.turn, k.agenda.trans h.agenda, k.draws.trans h.draws, k.frees.trans h.frees,
    k.disp.trans h.disp, k.gangs.trans h.gangs, k.shares.trans h.shares, k.threads.trans h.threads,
    k.waves.trans h.waves, k.cores.trans h.cores, k.mesh.trans h.mesh, k.mreqs.trans h.mreqs, k.lent.trans h.lent,
    k.misses.trans h.misses, k.pkg.trans h.pkg⟩

theorem MemPath.eopra {s t : State} (h : MemPath s t) : t.pkg.eopra = s.pkg.eopra := by
  simpa using congrArg Package.eopra h.pkg

theorem MemPath.upd (s : State) (poison : FMap Nat) (clusters : FMap Cluster) (landings : FMap Landing) (dram : Memory)
    (slices : FMap (BitVec 1024)) (sharers : FMap Nat) (aside : List (Nat × Nat)) (tlb : List Tlb)
    (stores : List Store) (reqCtr : Nat) :
    MemPath s { s with pkg := { s.pkg with poison := poison }, clusters := clusters, landings := landings, dram := dram, slices := slices,
                       sharers := sharers, aside := aside, tlb := tlb, stores := stores, reqCtr := reqCtr } :=
  ⟨rfl, rfl, rfl, rfl, rfl, rfl, rfl, rfl, rfl, rfl, rfl, rfl, rfl, rfl, rfl, rfl⟩

theorem MemPath.thread {s t : State} (h : MemPath s t) (q : Place) : t.thread q = s.thread q :=
  State.thread_of_threads h.threads q

theorem memPath_foldl {α : Type} (f : State → α → State) (h : ∀ s a, MemPath s (f s a)) (l : List α) (s : State) :
    MemPath s (l.foldl f s) := by
  induction l generalizing s with
  | nil => exact MemPath.refl s
  | cons a l ih => exact (h s a).trans (ih (f s a))

theorem memPath_modCluster (s : State) (cl : Nat) (f : Cluster → Cluster) : MemPath s (s.modCluster cl f) :=
  MemPath.upd s _ _ _ _ _ _ _ _ _ _

theorem memPath_modLanding (s : State) (l : Nat) (f : Landing → Landing) : MemPath s (s.modLanding l f) :=
  MemPath.upd s _ _ _ _ _ _ _ _ _ _

theorem memPath_modStore (n : Nat) (f : Store → Store) (s : State) : MemPath s (modStore n f s) :=
  MemPath.upd s _ _ _ _ _ _ _ _ _ _

theorem memPath_setSharers (line : Nat) (ds : List Nat) (s : State) : MemPath s (setSharers line ds s) :=
  MemPath.upd s _ _ _ _ _ _ _ _ _ _

theorem memPath_writeBack (l line : Nat) (s : State) : MemPath s (writeBack l line s) := by
  unfold writeBack
  split
  · exact memPath_modLanding s _ _
  · exact MemPath.refl s

theorem memPath_mscPut (l line : Nat) (d : Bool) (s : State) : MemPath s (mscPut l line d s) := by
  unfold mscPut
  refine MemPath.trans ?_ (memPath_modLanding _ _ _)
  unfold mscRoom
  dsimp only
  split
  · exact MemPath.refl s
  · split
    · exact MemPath.refl s
    · exact (memPath_writeBack _ _ s).trans (memPath_modLanding _ _ _)

theorem memPath_homeServe (line : Nat) (s : State) : MemPath s (homeServe line s).2.2 := by
  unfold homeServe
  dsimp only
  split
  · exact MemPath.refl s
  · dsimp only
    exact (memPath_modLanding s _ _).trans (memPath_mscPut _ _ _ _)

theorem memPath_countRead (cl : Option Nat) (die home bytes : Nat) (a h : Bool) (n : Nat) (s : State) :
    MemPath s (countRead cl die home bytes a h n s) := by
  unfold countRead
  split
  · exact MemPath.refl s
  · exact memPath_modCluster s _ _

theorem memPath_countWrite (cl : Option Nat) (die home bytes : Nat) (s : State) :
    MemPath s (countWrite cl die home bytes s) := by
  unfold countWrite
  split
  · exact MemPath.refl s
  · exact memPath_modCluster s _ _

theorem memPath_countHome (cl : Option Nat) (die home bytes : Nat) (h : Bool) (n : Nat) (s : State) :
    MemPath s (countHome cl die home bytes h n s) := by
  unfold countHome
  split
  · exact MemPath.refl s
  · exact memPath_modCluster s _ _

theorem memPath_dropCopy (line d : Nat) (s : State) : MemPath s (dropCopy line d s) :=
  MemPath.upd s _ _ _ _ _ _ _ _ _ _

theorem memPath_putCopy (line d : Nat) (v : BitVec 1024) (s : State) : MemPath s (putCopy line d v s) := by
  unfold putCopy
  extract_lets ms x
  have hx : MemPath s x := by
    dsimp only [x]
    split
    · exact MemPath.refl s
    · split
      · exact MemPath.refl s
      · exact memPath_dropCopy _ d s
  exact hx.trans (MemPath.upd x _ _ _ _ _ _ _ _ _ _)

theorem memPath_shareLine (line d : Nat) (s : State) : MemPath s (shareLine line d s) := memPath_setSharers _ _ s

theorem memPath_cleanPoison (pa n : Nat) (s : State) : MemPath s (cleanPoison pa n s) := by
  unfold cleanPoison
  split
  · exact MemPath.refl s
  · exact MemPath.upd s _ _ _ _ _ _ _ _ _ _

theorem memPath_noteCmp (t : Target) (s : State) : MemPath s (noteCmp t s) := by
  cases t <;> unfold noteCmp <;> first | exact memPath_modLanding s _ _ | exact MemPath.refl s

theorem memPath_homeWrite (pa n v : Nat) (s : State) : MemPath s (homeWrite pa n v s) := by
  unfold homeWrite
  dsimp only
  have h : MemPath s (cleanPoison pa n { s with dram := Memory.write s.dram pa n v }) :=
    (MemPath.upd s _ _ _ _ _ _ _ _ _ _).trans (memPath_cleanPoison pa n _)
  split
  · exact h.trans (memPath_mscPut _ _ _ _)
  · exact h

theorem memPath_spadWrite (cl off n v : Nat) (s : State) : MemPath s (spadWrite cl off n v s) :=
  (memPath_modCluster s _ _).trans (memPath_cleanPoison _ n _)

theorem memPath_l1Store (e : Store) (s : State) : MemPath s (l1Store e s) := by
  unfold l1Store
  split
  · exact MemPath.refl s
  · exact memPath_modCluster s _ _

theorem memPath_stores (s : State) (l : List Store) : MemPath s { s with stores := l } :=
  MemPath.upd s _ _ _ _ _ _ _ _ _ _

theorem memPath_moveTo (n : Nat) (st : Stage) (s : State) : MemPath s (moveTo n st s) := memPath_modStore _ _ s

theorem memPath_toPort (n : Nat) (s : State) : MemPath s (toPort n s) := by
  unfold toPort
  split
  · exact MemPath.refl s
  · split
    · split
      · exact (memPath_spadWrite _ _ _ _ s).trans (memPath_stores _ _)
      · exact memPath_moveTo _ _ s
    · split
      · exact memPath_moveTo _ _ s
      · exact (memPath_l1Store _ s).trans (memPath_moveTo _ _ _)
    · exact memPath_moveTo _ _ s
    · exact memPath_moveTo _ _ s
    · exact memPath_moveTo _ _ s

theorem memPath_toSlice (n : Nat) (s : State) : MemPath s (toSlice n s) := by
  unfold toSlice
  split
  · exact MemPath.refl s
  · dsimp only
    split
    · exact memPath_moveTo _ _ s
    · split
      · exact memPath_moveTo _ _ s
      · split
        · exact (memPath_moveTo _ _ s).trans (MemPath.upd _ _ _ _ _ _ _ _ _ _ _)
        · exact memPath_moveTo _ _ s

theorem memPath_writeStore (e : Store) (s : State) : MemPath s (writeStore e s) := by
  unfold writeStore
  extract_lets line r x v
  have hr : MemPath s r.2.2 := memPath_homeServe line s
  have hx : MemPath s x := by
    dsimp only [x]
    split
    · exact MemPath.refl s
    · exact hr.trans (memPath_countHome _ _ _ _ _ _ _)
  exact hx.trans ((memPath_noteCmp e.tgt x).trans ((memPath_homeWrite _ _ _ _).trans (memPath_modStore _ _ _)))

theorem memPath_writeAll (es : List Store) (s : State) : MemPath s (writeAll es s) := by
  induction es generalizing s with
  | nil => exact MemPath.refl s
  | cons e es ih =>
    unfold writeAll
    split
    · exact (memPath_writeStore e s).trans (ih _)
    · exact MemPath.refl s

theorem memPath_writeReady (line : Nat) (s : State) : MemPath s (writeReady line s) := memPath_writeAll _ s

theorem memPath_ackDie (line d : Nat) (s : State) : MemPath s (ackDie line d s) :=
  (MemPath.upd s _ _ _ _ _ _ _ _ _ _).trans (memPath_writeReady line _)

theorem memPath_asideDue (line d : Nat) (s : State) : MemPath s (asideDue line d s) := by
  unfold asideDue
  split
  · exact (memPath_dropCopy line d s).trans (memPath_ackDie line d _)
  · exact MemPath.refl s

theorem memPath_ackCopy (e : Store) (line : Nat) (s : State) : MemPath s (ackCopy e line s) := by
  unfold ackCopy
  split
  · exact MemPath.refl s
  · split
    · split
      · exact MemPath.upd s _ _ _ _ _ _ _ _ _ _
      · exact MemPath.refl s
    · split
      · exact MemPath.refl s
      · exact (memPath_putCopy _ _ _ s).trans (memPath_shareLine _ _ _)

theorem memPath_setAside (line d : Nat) (s : State) : MemPath s (setAside line d s) := by
  unfold setAside
  split
  · exact MemPath.refl s
  · exact MemPath.upd s _ _ _ _ _ _ _ _ _ _

theorem memPath_ackOne (e : Store) (s : State) : MemPath s (ackOne e s) := by
  unfold ackOne
  extract_lets u
  have hu : MemPath s u := memPath_stores s _
  split
  · exact hu
  · extract_lets late v
    have hv : MemPath u v := by
      dsimp only [v]
      split
      · exact memPath_setAside _ _ u
      · exact MemPath.refl u
    exact hu.trans (hv.trans ((memPath_ackCopy _ _ v).trans (memPath_asideDue _ _ _)))

theorem memPath_acknowledge (n : Nat) (s : State) : MemPath s (acknowledge n s) := by
  unfold acknowledge
  split
  · exact MemPath.refl s
  · split
    · exact memPath_ackOne _ s
    · exact memPath_foldl (fun s (x : Store) => ackOne x s) (fun s x => memPath_ackOne x s) _ s

theorem memPath_ackLine (line : Nat) (f : Store → Bool) (s : State) : MemPath s (ackLine line f s) :=
  memPath_foldl (fun s (e : Store) => acknowledge e.n s) (fun s e => memPath_acknowledge e.n s) _ s

theorem memPath_ackStore (n d : Nat) (s : State) : MemPath s (ackStore n d s) := by
  unfold ackStore
  split
  · exact MemPath.refl s
  · split
    · exact MemPath.refl s
    · split
      · exact (memPath_dropCopy _ d s).trans ((memPath_modStore _ _ _).trans (memPath_writeReady _ _))
      · extract_lets x
        have hx : MemPath s x := memPath_setAside _ _ s
        split
        · exact hx.trans (memPath_foldl (fun s (y : Nat × Nat) => ackDie _ y.2 (dropCopy _ y.2 s))
            (fun s y => (memPath_dropCopy _ y.2 s).trans (memPath_ackDie _ y.2 _)) _ x)
        · exact hx

theorem memPath_takeHome (n : Nat) (s : State) : MemPath s (takeHome n s) := by
  unfold takeHome
  split
  · exact MemPath.refl s
  · split
    · exact (memPath_spadWrite _ _ _ _ s).trans (memPath_stores _ _)
    · exact memPath_stores s _
    · exact memPath_stores s _
    · exact memPath_stores s _
    · dsimp only
      exact (memPath_setSharers _ _ s).trans ((memPath_moveTo _ _ _).trans ((memPath_modStore _ _ _).trans
        (memPath_writeReady _ _)))

theorem memPath_toHome (n : Nat) (s : State) : MemPath s (toHome n s) := by
  unfold toHome
  split
  · exact MemPath.refl s
  · split
    · exact memPath_takeHome n s
    · exact (memPath_ackLine _ _ s).trans (memPath_takeHome n _)

theorem memPath_settleHome (line : Nat) (s : State) : MemPath s (settleHome line s) :=
  (memPath_foldl (fun s (e : Store) => e.acks.foldl (fun s d => ackStore e.n d s) s)
      (fun s e => memPath_foldl (fun s d => ackStore e.n d s) (fun s d => memPath_ackStore e.n d s) _ s) _ s).trans
    (memPath_foldl (fun s (_ : Nat) => ackLine line (fun _ => true) s) (fun s _ => memPath_ackLine _ _ s) _ _)

theorem memPath_finishStore (n : Nat) (s : State) : MemPath s (finishStore n s) := by
  unfold finishStore
  split
  · exact MemPath.refl s
  · split
    · exact memPath_acknowledge n s
    · dsimp only
      split
      · exact (memPath_settleHome _ s).trans
          ((memPath_foldl (fun s (x : Store) => takeHome x.n s) (fun s x => memPath_takeHome x.n s) _ _).trans
            (memPath_settleHome _ _))
      · exact memPath_settleHome _ s

theorem memPath_stepStore (n level : Nat) (s : State) : MemPath s (stepStore n level s) := by
  unfold stepStore
  dsimp only
  have h1 : MemPath s (if 1 ≤ level then toPort n s else s) := by
    split
    · exact memPath_toPort n s
    · exact MemPath.refl s
  have h2 : ∀ s, MemPath s (if 2 ≤ level then toSlice n s else s) := by
    intro s
    split
    · exact memPath_toSlice n s
    · exact MemPath.refl s
  have h := h1.trans (h2 _)
  split
  · exact h.trans ((memPath_toHome n _).trans (memPath_finishStore n _))
  · exact h

theorem memPath_pushStore (k n level : Nat) (s : State) : MemPath s (pushStore k n level s) := by
  induction k generalizing n s with
  | zero => exact memPath_stepStore n level s
  | succ k ih =>
    exact (memPath_foldl (fun s (x : Store) => pushStore k x.n level s) (fun s x => ih x.n s) _ s).trans
      (memPath_stepStore n level _)

theorem memPath_drain (sel : Store → Bool) (level : Store → Nat) (s : State) : MemPath s (drain sel level s) :=
  memPath_foldl (fun t (e : Store) => pushStore s.stores.length e.n (level e) t)
    (fun t e => memPath_pushStore _ e.n _ t) _ s

theorem memPath_completeLine (line : Nat) (s : State) : MemPath s (completeLine line s) := memPath_drain _ _ s

theorem memPath_claimLine (line : Nat) (s : State) : MemPath s (claimLine line s) :=
  (memPath_completeLine line s).trans (MemPath.upd _ _ _ _ _ _ _ _ _ _ _)

theorem memPath_mend (es : List Store) (pa w : Nat) (s : State) : MemPath s (mend es pa w s) := by
  unfold mend
  split
  · exact MemPath.refl s
  · exact memPath_foldl (fun t (e : Store) => pushStore s.stores.length e.n 3 t) (fun t e => memPath_pushStore _ e.n 3 t) _ s

theorem memPath_settleLine (line : Nat) (s : State) : MemPath s (settleLine line s) :=
  memPath_foldl (fun s (e : Store) => finishStore e.n s) (fun s e => memPath_finishStore e.n s) _ s

theorem memPath_sliceLine (cl : Option Nat) (die line bytes : Nat) (alloc : Bool) (s : State) :
    MemPath s (sliceLine cl die line bytes alloc s).2 := by
  unfold sliceLine
  dsimp only
  split
  · exact memPath_countRead _ _ _ _ _ _ _ s
  · have h := (memPath_settleLine line s).trans ((memPath_ackLine line (fun e => e.die == die) _).trans
      (memPath_homeServe line _))
    split
    · exact h.trans ((memPath_countRead _ _ _ _ _ _ _ _).trans
        ((memPath_putCopy _ _ _ _).trans (memPath_shareLine _ _ _)))
    · exact h.trans (memPath_countRead _ _ _ _ _ _ _ _)

theorem memPath_slicePath (cl die line pa w bytes : Nat) (alloc own : Bool) (s : State) :
    MemPath s (slicePath cl die line pa w bytes alloc own s).2 :=
  (memPath_mend _ pa w s).trans (memPath_sliceLine _ _ _ _ _ _)

theorem memPath_dramLoad (g : Agent) (va : Word) (pa w : Nat) (nc : Bool) (h : Hint) (l1 : Bool) (s : State) :
    MemPath s (dramLoad g va pa w nc h l1 s).2 := by
  unfold dramLoad
  dsimp only
  split
  · exact (memPath_settleLine _ s).trans (memPath_homeServe _ _)
  · split
    · dsimp only
      refine MemPath.trans (MemPath.trans ?_ (memPath_settleLine _ _))
        ((memPath_homeServe _ _).trans (memPath_countRead _ _ _ _ _ _ _ _))
      split
      · exact memPath_mend _ _ _ s
      · exact MemPath.refl s
    · split
      · exact MemPath.refl s
      · dsimp only
        split
        · exact (memPath_slicePath _ _ _ _ _ _ _ _ s).trans (memPath_modCluster _ _ _)
        · exact memPath_slicePath _ _ _ _ _ _ _ _ s

theorem memPath_mendOwn (p : Place) (va : Word) (w : Nat) (s : State) : MemPath s (mendOwn p va w s) :=
  memPath_drain _ _ s

theorem memPath_ackReady (die : Nat) (s : State) : MemPath s (ackReady die s) :=
  memPath_foldl (fun s (e : Store) => acknowledge e.n s) (fun s e => memPath_acknowledge e.n s) _ s

theorem memPath_acquireAt (g : Agent) (sc : Scope) (s : State) : MemPath s (acquireAt g sc s) := by
  unfold acquireAt
  split
  · exact MemPath.refl s
  · exact memPath_drain _ _ s
  · exact (memPath_ackReady _ s).trans (memPath_modCluster _ _ _)

theorem memPath_settleSpad (cl off n : Nat) (f : Option Nat) (s : State) : MemPath s (settleSpad cl off n f s) :=
  memPath_drain _ _ s

theorem memPath_readTarget (g : Agent) (va : Word) (t : Target) (w : Nat) (h : Hint) (l1 : Bool) (s : State) :
    MemPath s (readTarget g va t w h l1 s).2 := by
  cases t
  · exact memPath_dramLoad _ _ _ _ _ _ _ s
  · exact memPath_settleSpad _ _ _ _ s
  all_goals exact MemPath.refl s

theorem memPath_threadRead (p : Place) (va : Word) (t : Target) (w : Nat) (h : Hint) (s : State) :
    MemPath s (threadRead p va t w h s).2 := by
  cases t <;> exact (memPath_mendOwn p va w s).trans (memPath_readTarget _ _ _ _ _ _ _)

theorem memPath_l1Over (cl : Option Nat) (g : Nat) (va : Word) (n v : Nat) (s : State) :
    MemPath s (l1Over cl g va n v s) := by
  unfold l1Over
  split
  · exact memPath_modCluster _ _ _
  · exact MemPath.refl s

theorem memPath_atomPerform (cl : Option Nat) (die gang op : Nat) (va : Word) (t : Target) (size v expect : Nat)
    (s : State) : MemPath s (atomPerform cl die gang op va t size v expect s).2 := by
  unfold atomPerform
  split
  · extract_lets line x r y z old u
    have hx : MemPath s x := memPath_drain _ _ s
    have hr : MemPath s r.2.2 := hx.trans ((memPath_completeLine line x).trans (memPath_homeServe line _))
    have hz : MemPath s z := hr.trans ((memPath_countWrite _ _ _ _ _).trans (memPath_countHome _ _ _ _ _ _ _))
    have hu : MemPath z u := by
      dsimp only [u]
      split
      · rename_i new _
        have hw : ∀ a m n c, MemPath z (homeWrite a size new (noteCmp (.dram a m n c) (claimLine line z))) :=
          fun a m n c => (memPath_claimLine line z).trans
            ((memPath_noteCmp (.dram a m n c) _).trans (memPath_homeWrite _ _ _ _))
        exact (hw _ _ _ _).trans (memPath_l1Over _ _ _ _ _ _)
      · exact MemPath.refl z
    exact hz.trans hu
  · extract_lets x old
    have hx : MemPath s x := memPath_settleSpad _ _ _ _ s
    split
    · exact hx.trans (memPath_spadWrite _ _ _ _ _)
    · exact hx
  all_goals exact MemPath.refl s

/-! ### Translation -/

theorem memPath_readHome (line : Nat) (s : State) : MemPath s (readHome line s) := by
  unfold readHome
  split
  · exact (memPath_settleLine line s).trans (memPath_homeServe line _)
  · exact MemPath.refl s

theorem memPath_walkOn (rest : Nat → State → Bool × State) (h : ∀ t s, MemPath s (rest t s).2) (at_ level : Nat)
    (s : State) : MemPath s (walkOn rest at_ level s).2 := by
  unfold walkOn
  split
  · exact MemPath.refl s
  · split
    · exact h _ s
    · exact MemPath.refl s

theorem memPath_walkReads (va : Word) (n : Nat) : ∀ table level s, MemPath s (walkReads va n table level s).2 := by
  induction n with
  | zero => exact fun _ _ s => MemPath.refl s
  | succ n ih =>
    intro table level s
    rw [walkReads]
    exact (memPath_readHome _ s).trans (memPath_walkOn _ (fun t s => ih t _ s) _ _ _)

theorem memPath_markEntry (at_ : Nat) (e : Word) (s : State) : MemPath s (markEntry at_ e s) :=
  (memPath_readHome _ s).trans ((memPath_claimLine _ _).trans (memPath_homeWrite _ _ _ _))

theorem memPath_entryRace (j at_ : Nat) (s : State) : MemPath s (entryRace j at_ s) := by
  unfold entryRace
  split
  · exact memPath_drain _ _ s
  · exact MemPath.refl s

theorem memPath_casEntry (j at_ : Nat) (pte : Word) (d : Bool) (s : State) : MemPath s (casEntry j at_ pte d s).2 := by
  unfold casEntry
  extract_lets e u
  have hu : MemPath s u := (memPath_entryRace j at_ s).trans (memPath_completeLine (at_ / 128) (entryRace j at_ s))
  clear_value e u
  split
  · exact MemPath.refl s
  · split
    · exact hu.trans (memPath_markEntry at_ e u)
    · exact hu

theorem casWalk_state (up : Nat) (r : Option Word × State) : (casWalk up r).2.2 = r.2 := by
  unfold casWalk
  split <;> rfl

theorem memPath_walkEnd (j : Nat) (need : Need) (w : Walk) (s : State) : MemPath s (walkEnd j need w s).2.2 := by
  unfold walkEnd
  cases w with
  | fail reason level => exact MemPath.refl s
  | leaf pte at_ up =>
    dsimp only
    rw [casWalk_state]
    exact memPath_casEntry j at_ pte _ s

theorem memPath_walkRead (j root : Nat) (va : Word) (need : Need) (r : Bool × State) :
    MemPath r.2 (walkRead j root va need r).2.2 := by
  unfold walkRead
  split
  · exact MemPath.refl r.2
  · exact memPath_walkEnd j need (r.2.walk root va) r.2

theorem memPath_walkOnce (g : Agent) (j : Nat) (va : Word) (need : Need) (s : State) :
    MemPath s (walkOnce g j va need s).2.2 :=
  (memPath_walkReads va 4 (s.rootOf g.gang) 0 s).trans (memPath_walkRead j (s.rootOf g.gang) va need _)

theorem memPath_walkAgain (g : Agent) (va : Word) (need : Need) (r : Option Filled × Nat × State) :
    MemPath r.2.2 (walkAgain g va need r).2.2 := by
  unfold walkAgain
  split
  · exact MemPath.refl r.2.2
  · exact memPath_walkOnce g 1 va need r.2.2

theorem memPath_walkTwice (g : Agent) (va : Word) (need : Need) (s : State) :
    MemPath s (walkTwice g va need s).2.2 :=
  (memPath_walkOnce g 0 va need s).trans (memPath_walkAgain g va need _)

theorem memPath_fillWith (g : Agent) (die slice : Nat) (va : Word) (r : Option Filled × Nat × State) :
    MemPath r.2.2 (fillWith g die slice va r).2 := by
  unfold fillWith
  split
  · exact MemPath.upd _ _ _ _ _ _ _ _ _ _ _
  · exact MemPath.refl _
  · exact MemPath.refl _

theorem memPath_walkFill (g : Agent) (die slice : Nat) (va : Word) (need : Need) (s : State) :
    MemPath s (walkFill g die slice va need s).2 :=
  (memPath_walkTwice g va need s).trans (memPath_fillWith g die slice va _)

theorem memPath_dropTlbOf (die slice gang : Nat) (va : Word) (s : State) :
    MemPath s (dropTlbOf die slice gang va s) :=
  MemPath.upd s _ _ _ _ _ _ _ _ _ _

theorem walkRoute_state (g : Agent) (va : Word) (w : Nat) (need : Need) (r : Filled × State) :
    (walkRoute g va w need r).2 = r.2 := by
  unfold walkRoute
  split <;> rfl

theorem memPath_translate (g : Agent) (va : Word) (w : Nat) (need : Need) (s : State) :
    MemPath s (translate g va w need s).2 := by
  unfold translate
  dsimp only
  split
  · split
    · exact MemPath.refl s
    · rw [walkRoute_state]
      exact (memPath_dropTlbOf g.die (sliceOf va.toNat) g.gang va s).trans
        (memPath_walkFill g g.die (sliceOf va.toNat) va need _)
  · rw [walkRoute_state]
    exact memPath_walkFill g g.die (sliceOf va.toNat) va need s

theorem memPath_route (g : Agent) (a : Word) (w : Nat) (need : Need) (s : State) :
    MemPath s (route g a w need s).2 := by
  unfold route
  split
  · exact MemPath.refl s
  · split
    · split
      · exact MemPath.refl s
      · split
        · split <;> exact MemPath.refl s
        · exact MemPath.refl s
    · have h := memPath_translate g a w need s
      split
      · rename_i e; rw [e] at h; exact h
      · rename_i e; rw [e] at h; exact h
      · rename_i e
        rw [e] at h
        split
        · exact h
        · split <;> exact h
      · exact h

/-! ### Accesses in flight -/

/-- What settling accesses of the thread at p keeps of a thread: everything but its registers, the results under way,
the accesses in flight and what it has acquired. -/
def Thread.kept (t : Thread) : Thread :=
  { t with x := Vector.replicate 32 0, f := Vector.replicate 32 0, p := 0, pend := [], loads := [], acq := 0 }

/-- t differs from s in the memory path and in registers and accesses in flight of the thread at p at most. -/
structure Settles (p : Place) (s t : State) : Prop where
  others : ∀ q, q.key ≠ p.key → t.thread q = s.thread q
  kept : (t.thread p).kept = (s.thread p).kept
  here : (t.thread? p).isSome = (s.thread? p).isSome ∨ (t.thread? p).isSome = true
  clk : t.clk = s.clk
  turn : t.turn = s.turn
  frees : t.frees = s.frees
  disp : t.disp = s.disp
  gangs : t.gangs = s.gangs
  shares : t.shares = s.shares
  waves : t.waves = s.waves
  cores : t.cores = s.cores
  mesh : t.mesh = s.mesh
  mreqs : t.mreqs = s.mreqs
  lent : t.lent = s.lent
  misses : t.misses = s.misses
  pkg : { t.pkg with poison := [] } = { s.pkg with poison := [] }

theorem MemPath.settles {s t : State} (p : Place) (h : MemPath s t) : Settles p s t :=
  ⟨fun q _ => h.thread q, by rw [h.thread], .inl (by unfold State.thread?; rw [h.threads]), h.clk, h.turn, h.frees,
    h.disp, h.gangs, h.shares, h.waves, h.cores, h.mesh, h.mreqs, h.lent, h.misses, h.pkg⟩

theorem Settles.refl (p : Place) (s : State) : Settles p s s := (MemPath.refl s).settles p

theorem Settles.trans {p : Place} {s t u : State} (h : Settles p s t) (k : Settles p t u) : Settles p s u where
  others q hq := (k.others q hq).trans (h.others q hq)
  kept := k.kept.trans h.kept
  here := by
    rcases k.here with e | e
    · rw [e]; exact h.here
    · exact .inr e
  clk := k.clk.trans h.clk
  turn := k.turn.trans h.turn
  frees := k.frees.trans h.frees
  disp := k.disp.trans h.disp
  gangs := k.gangs.trans h.gangs
  shares := k.shares.trans h.shares
  waves := k.waves.trans h.waves
  cores := k.cores.trans h.cores
  mesh := k.mesh.trans h.mesh
  mreqs := k.mreqs.trans h.mreqs
  lent := k.lent.trans h.lent
  misses := k.misses.trans h.misses
  pkg := k.pkg.trans h.pkg

theorem settles_modThread {p : Place} {s : State} {f : Thread → Thread} (h : ∀ t, (f t).kept = t.kept) :
    Settles p s (s.modThread p f) where
  others q hq := State.thread_modThread_of_ne s p q f hq
  kept := by rw [State.thread_modThread_self, h]
  here := .inr (by simp [State.modThread])
  clk := rfl
  turn := rfl
  frees := rfl
  disp := rfl
  gangs := rfl
  shares := rfl
  waves := rfl
  cores := rfl
  mesh := rfl
  mreqs := rfl
  lent := rfl
  misses := rfl
  pkg := rfl

theorem settles_foldl {p : Place} {α : Type} (f : State → α → State) (h : ∀ s a, Settles p s (f s a)) (l : List α)
    (s : State) : Settles p s (l.foldl f s) := by
  induction l generalizing s with
  | nil => exact Settles.refl p s
  | cons a l ih => exact (h s a).trans (ih (f s a))

theorem Thread.kept_setX (t : Thread) (r : Reg) (v : Word) : (t.setX r v).kept = t.kept := by
  unfold Thread.setX; split <;> rfl

theorem Thread.kept_setP (t : Thread) (n : Nat) (b : Bool) : (t.setP n b).kept = t.kept := by
  unfold Thread.setP; split <;> rfl

theorem Thread.kept_putReg (t : Thread) (file : RFile) (n : Nat) (v : Word) : (t.putReg file n v).kept = t.kept := by
  cases file
  · exact t.kept_setX _ _
  · rfl
  · exact t.kept_setP _ _

theorem Thread.kept_landList (clk : Nat) (l : List PendW) (t : Thread) : (landList clk l t).1.kept = t.kept := by
  induction l generalizing t with
  | nil => rfl
  | cons w l ih =>
    unfold landList
    split
    · exact (ih _).trans (t.kept_putReg _ _ _)
    · exact ih t

theorem Thread.kept_land (t : Thread) (clk : Nat) : (t.land clk).kept = t.kept :=
  (show (t.land clk).kept = (landList clk t.pend t).1.kept from rfl).trans (t.kept_landList clk t.pend)

theorem Thread.kept_landAll (t : Thread) : t.landAll.kept = t.kept := by
  unfold Thread.landAll
  dsimp only
  suffices ∀ (l : List PendW) (t : Thread), (l.foldl (fun t w => t.putReg w.file w.reg w.val) t).kept = t.kept from
    this t.pend t
  intro l
  induction l with
  | nil => intro t; rfl
  | cons w l ih => intro t; exact (ih _).trans (t.kept_putReg _ _ _)

theorem settles_writeReg (p : Place) (lat : Nat) (file : RFile) (n : Nat) (v : Word) (s : State) :
    Settles p s (writeReg p lat file n v s) := by
  refine settles_modThread fun t => ?_
  split
  · rfl
  · split
    · dsimp only
      split
      · exact (Thread.kept_putReg _ _ _ _).trans (t.kept_land _)
      · exact t.kept_land _
    · exact t.kept_putReg _ _ _
    · exact t.kept_putReg _ _ _

theorem settles_noteAcquire (p : Place) (s : State) : Settles p s (noteAcquire p s) :=
  settles_modThread fun _ => rfl

theorem settles_performAccess (p : Place) (a : Access) (s : State) : Settles p s (performAccess p a s) := by
  unfold performAccess
  split
  · exact Settles.refl p s
  · dsimp only
    refine Settles.trans ?_ (settles_modThread (f := fun t => { t with loads := _ }) fun _ => rfl)
    split
    · exact (memPath_threadRead _ _ _ _ _ s).settles p
    · exact ((memPath_drain _ _ s).trans ((memPath_atomPerform _ _ _ _ _ _ _ _ _ _).trans
        (memPath_acquireAt _ _ _))).settles p |>.trans (settles_noteAcquire p _)

theorem settles_performOlder (p : Place) (x : Access) (s : State) : Settles p s (performOlder p x s) :=
  settles_foldl (fun s (a : Access) => performAccess p a s) (fun s a => settles_performAccess p a s) _ s

theorem settles_landAccess (p : Place) (n : Nat) (s : State) : Settles p s (landAccess p n s) := by
  unfold landAccess
  split
  · exact Settles.refl p s
  · split
    · exact Settles.refl p s
    · refine Settles.trans ?_ (settles_writeReg _ _ _ _ _ _)
      exact settles_modThread fun _ => rfl

theorem settles_settleAccess (p : Place) (n : Nat) (s : State) : Settles p s (settleAccess p n s) := by
  unfold settleAccess
  split
  · exact Settles.refl p s
  · exact (settles_performOlder p _ s).trans ((settles_performAccess p _ _).trans (settles_landAccess p n _))

theorem settles_forceLoads (p : Place) (s : State) : Settles p s (forceLoads p s) :=
  settles_foldl (fun s (a : Access) => settleAccess p a.n s) (fun s a => settles_settleAccess p a.n s) _ s

theorem settles_forceAtoms (p : Place) (s : State) : Settles p s (forceAtoms p s) := by
  unfold forceAtoms
  split
  · exact settles_forceLoads p s
  · exact Settles.refl p s

theorem settles_releaseStores (p : Place) (sc : Scope) (m : Bool) (s : State) :
    Settles p s (releaseStores p sc m s) :=
  (settles_forceLoads p s).trans ((memPath_drain _ _ _).settles p)

theorem settles_acquire (p : Place) (sc : Scope) (s : State) : Settles p s (acquire p sc s) := by
  unfold acquire
  extract_lets x
  have hx : Settles p s x := (settles_forceAtoms p s).trans ((memPath_drain _ _ _).settles p)
  exact hx.trans (((memPath_acquireAt _ _ _).settles p).trans (settles_noteAcquire p _))

theorem settles_performTouching (p : Place) (va : Word) (t : Target) (w : Nat) (s : State) :
    Settles p s (performTouching p va t w s) :=
  settles_foldl (fun s (a : Access) => performAccess p a s) (fun s a => settles_performAccess p a s) _ s

theorem settles_makeStore (p : Place) (va : Word) (t : Target) (w v : Nat) (h : Hint) (m : Nat) (s : State) :
    Settles p s (makeStore p va t w v h m s) := by
  unfold makeStore
  extract_lets x g n view data e y z
  have hx : Settles p s x := settles_performTouching p va t w s
  have hy : MemPath x y := MemPath.upd x _ _ _ _ _ _ _ _ _ _
  have hz : MemPath y z := by
    dsimp only [z]
    split
    · exact memPath_countWrite _ _ _ _ y
    all_goals exact MemPath.refl y
  split
  · exact hx.trans ((hy.trans hz).settles p)
  · exact hx.trans ((hy.trans (hz.trans (memPath_drain _ _ _))).settles p)

end Sys2Proof.Machine
end

