-- ==== Sys2Proof/Laws/Home.lean ====
section
/-!
SUPPORT. The home and the memory-side cache, a word of a line, and an atomic performed on DRAM.
-/

namespace Sys2Proof.Machine

/-! ### What serving and counting leave alone -/

theorem drain_nil {s : State} (h : s.stores = []) (sel : Store → Bool) (lv : Store → Nat) : drain sel lv s = s := by
  unfold drain; rw [h]; rfl

theorem writeBack_dram (l line : Nat) (s : State) : (writeBack l line s).dram = s.dram := by
  unfold writeBack; split <;> rfl

theorem writeBack_slices (l line : Nat) (s : State) : (writeBack l line s).slices = s.slices := by
  unfold writeBack; split <;> rfl

theorem writeBack_stores (l line : Nat) (s : State) : (writeBack l line s).stores = s.stores := by
  unfold writeBack; split <;> rfl

theorem mscRoom_dram (l line : Nat) (s : State) : (mscRoom l line s).dram = s.dram := by
  unfold mscRoom; dsimp only; split
  · rfl
  · split
    · rfl
    · rw [State.modLanding_dram, writeBack_dram]

theorem mscRoom_slices (l line : Nat) (s : State) : (mscRoom l line s).slices = s.slices := by
  unfold mscRoom; dsimp only; split
  · rfl
  · split
    · rfl
    · rw [State.modLanding_slices, writeBack_slices]

theorem mscRoom_stores (l line : Nat) (s : State) : (mscRoom l line s).stores = s.stores := by
  unfold mscRoom; dsimp only; split
  · rfl
  · split
    · rfl
    · rw [State.modLanding_stores, writeBack_stores]

theorem mscPut_dram (l line : Nat) (b : Bool) (s : State) : (mscPut l line b s).dram = s.dram := by
  unfold mscPut; rw [State.modLanding_dram, mscRoom_dram]

theorem mscPut_slices (l line : Nat) (b : Bool) (s : State) : (mscPut l line b s).slices = s.slices := by
  unfold mscPut; rw [State.modLanding_slices, mscRoom_slices]

theorem mscPut_stores (l line : Nat) (b : Bool) (s : State) : (mscPut l line b s).stores = s.stores := by
  unfold mscPut; rw [State.modLanding_stores, mscRoom_stores]

theorem homeServe_dram (line : Nat) (s : State) : (homeServe line s).2.2.dram = s.dram := by
  unfold homeServe; dsimp only; split
  · rfl
  · exact (mscPut_dram _ _ _ _).trans (State.modLanding_dram _ _ _)

theorem homeServe_slices (line : Nat) (s : State) : (homeServe line s).2.2.slices = s.slices := by
  unfold homeServe; dsimp only; split
  · rfl
  · exact (mscPut_slices _ _ _ _).trans (State.modLanding_slices _ _ _)

theorem homeServe_stores (line : Nat) (s : State) : (homeServe line s).2.2.stores = s.stores := by
  unfold homeServe; dsimp only; split
  · rfl
  · exact (mscPut_stores _ _ _ _).trans (State.modLanding_stores _ _ _)

theorem countHome_dram (cl : Option Nat) (d h b : Nat) (x : Bool) (n : Nat) (s : State) : (countHome cl d h b x n s).dram = s.dram := by
  unfold countHome; split
  · rfl
  · exact State.modCluster_dram _ _ _

theorem countHome_slices (cl : Option Nat) (d h b : Nat) (x : Bool) (n : Nat) (s : State) : (countHome cl d h b x n s).slices = s.slices := by
  unfold countHome; split
  · rfl
  · exact State.modCluster_slices _ _ _

theorem countHome_stores (cl : Option Nat) (d h b : Nat) (x : Bool) (n : Nat) (s : State) : (countHome cl d h b x n s).stores = s.stores := by
  unfold countHome; split
  · rfl
  · exact State.modCluster_stores _ _ _

theorem countWrite_stores (cl : Option Nat) (d h b : Nat) (s : State) : (countWrite cl d h b s).stores = s.stores := by
  unfold countWrite; split
  · rfl
  · exact State.modCluster_stores _ _ _

theorem countWrite_dram (cl : Option Nat) (d h b : Nat) (s : State) : (countWrite cl d h b s).dram = s.dram := by
  unfold countWrite; split
  · rfl
  · exact State.modCluster_dram _ _ _

theorem countRead_dram (cl : Option Nat) (d h b : Nat) (x y : Bool) (n : Nat) (s : State) : (countRead cl d h b x y n s).dram = s.dram := by
  unfold countRead; split
  · rfl
  · exact State.modCluster_dram _ _ _

theorem countRead_stores (cl : Option Nat) (d h b : Nat) (x y : Bool) (n : Nat) (s : State) : (countRead cl d h b x y n s).stores = s.stores := by
  unfold countRead; split
  · rfl
  · exact State.modCluster_stores _ _ _

theorem noteCmp_dram (t : Target) (s : State) : (noteCmp t s).dram = s.dram := by
  cases t <;> rfl

theorem cleanPoison_dram (a n : Nat) (s : State) : (cleanPoison a n s).dram = s.dram := by
  unfold cleanPoison; split <;> rfl

theorem homeWrite_dram (a n v : Nat) (s : State) : (homeWrite a n v s).dram = Memory.write s.dram a n v := by
  have h := cleanPoison_dram a n { s with dram := Memory.write s.dram a n v }
  unfold homeWrite
  generalize cleanPoison a n { s with dram := Memory.write s.dram a n v } = t at h ⊢
  extract_lets u
  split
  · rw [mscPut_dram]; exact h
  · exact h

theorem foldl_del_none {α : Type} (f : Nat → Nat) (hf : ∀ a b, f a = f b → a = b) (n d : Nat) (hd : d < n) (m : FMap α)
    (hm : FMap.wf m = true) :
    FMap.get? ((List.range n).foldl (fun m d => FMap.del m (f d)) m) (f d) = none := by
  suffices ∀ (l : List Nat) (m : FMap α), FMap.wf m = true → (d ∈ l ∨ FMap.get? m (f d) = none) →
      FMap.get? (l.foldl (fun m d => FMap.del m (f d)) m) (f d) = none from
    this _ m hm (.inl (List.mem_range.mpr hd))
  intro l
  induction l with
  | nil => intro m hm h; simpa using h
  | cons a l ih =>
    intro m hm h
    rw [List.foldl_cons]
    apply ih
    · exact FMap.sortedFrom_del m 0 _ hm
    · by_cases e : a = d
      · subst e; right; exact FMap.get?_del_self m _
      · rcases h with h | h
        · left; rcases List.mem_cons.mp h with h | h
          · exact absurd h.symm e
          · exact h
        · right
          rw [FMap.get?_del_of_ne]
          · exact h
          · intro he; exact e (hf _ _ he.symm)

theorem countWrite_slices (cl : Option Nat) (d h b : Nat) (s : State) : (countWrite cl d h b s).slices = s.slices := by
  unfold countWrite; split
  · rfl
  · exact State.modCluster_slices _ _ _

theorem noteCmp_slices (t : Target) (s : State) : (noteCmp t s).slices = s.slices := by
  cases t <;> rfl

theorem cleanPoison_slices (a n : Nat) (s : State) : (cleanPoison a n s).slices = s.slices := by
  unfold cleanPoison; split <;> rfl

theorem homeWrite_slices (a n v : Nat) (s : State) : (homeWrite a n v s).slices = s.slices := by
  have h := cleanPoison_slices a n { s with dram := Memory.write s.dram a n v }
  unfold homeWrite
  generalize cleanPoison a n { s with dram := Memory.write s.dram a n v } = t at h ⊢
  extract_lets u
  split
  · rw [mscPut_slices]; exact h
  · exact h

theorem completeLine_nil {s : State} (h : s.stores = []) (line : Nat) : completeLine line s = s := drain_nil h _ _

theorem claimLine_nil {s : State} (h : s.stores = []) (line : Nat) :
    claimLine line s = { s with
      slices := (List.range 4).foldl (fun m d => FMap.del m (copyKey line d)) s.slices
      sharers := FMap.del s.sharers line } := by
  unfold claimLine; rw [completeLine_nil h]

theorem claimLine_dram {s : State} (h : s.stores = []) (line : Nat) : (claimLine line s).dram = s.dram := by
  rw [claimLine_nil h]

theorem claimLine_slices {s : State} (h : s.stores = []) (line : Nat) :
    (claimLine line s).slices = (List.range 4).foldl (fun m d => FMap.del m (copyKey line d)) s.slices := by
  rw [claimLine_nil h]

theorem l1Over_dram (cl : Option Nat) (g : Nat) (va : Word) (n v : Nat) (s : State) : (l1Over cl g va n v s).dram = s.dram := by
  unfold l1Over; split
  · exact State.modCluster_dram _ _ _
  · rfl

theorem l1Over_slices (cl : Option Nat) (g : Nat) (va : Word) (n v : Nat) (s : State) : (l1Over cl g va n v s).slices = s.slices := by
  unfold l1Over; split
  · exact State.modCluster_slices _ _ _
  · rfl

/-- What an atomic does that writes a new value to DRAM while no store is under way. -/
theorem atomPerform_some (s : State) (cl : Option Nat) (die gang op : Nat) (va : Word) (pa : Nat) (mca nc cmp : Bool) (w v x new : Nat) (hst : s.stores = [])
    (hn' : atomNew op w (Memory.read s.dram pa w) v x = some new):
   (atomPerform cl die gang op va (.dram pa mca nc cmp) w v x s).1 = Memory.read s.dram pa w ∧
   (atomPerform cl die gang op va (.dram pa mca nc cmp) w v x s).2.dram = Memory.write s.dram pa w new ∧
   (atomPerform cl die gang op va (.dram pa mca nc cmp) w v x s).2.slices =
     (List.range 4).foldl (fun m d => FMap.del m (copyKey (pa / 128) d)) s.slices := by
  have hd : ∀ sel lv, drain sel lv s = s := drain_nil hst
  unfold atomPerform
  simp only [hd, completeLine_nil hst]
  generalize hr : homeServe (pa / 128) s = r
  have h1 : r.2.2.dram = s.dram := by rw [← hr, homeServe_dram]
  have h2 : r.2.2.slices = s.slices := by rw [← hr, homeServe_slices]
  have h3 : r.2.2.stores = [] := by rw [← hr, homeServe_stores, hst]
  generalize hu : countHome cl die _ w r.1 r.2.1 (countWrite cl die _ _ r.2.2) = u
  have u1 : u.dram = s.dram := by rw [← hu, countHome_dram, countWrite_dram, h1]
  have u2 : u.slices = s.slices := by rw [← hu, countHome_slices, countWrite_slices, h2]
  have u3 : u.stores = [] := by rw [← hu, countHome_stores, countWrite_stores, h3]
  clear hu hr
  have e : atomNew op w (Memory.read u.dram pa w) v x = some new := by rw [u1]; exact hn'
  have k1 : (homeWrite pa w new (noteCmp (.dram pa mca nc cmp) (claimLine (pa / 128) u))).dram = Memory.write s.dram pa w new := by
    rw [homeWrite_dram, noteCmp_dram, claimLine_dram u3, u1]
  have k2 : (homeWrite pa w new (noteCmp (.dram pa mca nc cmp) (claimLine (pa / 128) u))).slices =
      (List.range 4).foldl (fun m d => FMap.del m (copyKey (pa / 128) d)) s.slices := by
    rw [homeWrite_slices, noteCmp_slices, claimLine_slices u3, u2]
  rw [e]
  exact ⟨by rw [u1], (l1Over_dram _ _ _ _ _ _).trans k1, (l1Over_slices _ _ _ _ _ _).trans k2⟩

/-- A compare-and-swap that fails writes nothing. -/
theorem atomPerform_none (s : State) (cl : Option Nat) (die gang op : Nat) (va : Word) (pa : Nat) (mca nc cmp : Bool) (w v x : Nat) (hst : s.stores = [])
    (hn' : atomNew op w (Memory.read s.dram pa w) v x = none):
   (atomPerform cl die gang op va (.dram pa mca nc cmp) w v x s).1 = Memory.read s.dram pa w ∧
   (atomPerform cl die gang op va (.dram pa mca nc cmp) w v x s).2.dram = s.dram := by
  have hd : ∀ sel lv, drain sel lv s = s := drain_nil hst
  unfold atomPerform
  simp only [hd, completeLine_nil hst, countHome_dram, countWrite_dram, homeServe_dram, hn', and_self]

/-! ### A word of a line -/

theorem two_pow_mul_eight (k : Nat) : 2 ^ (8 * k) = 256 ^ k := by rw [Nat.pow_mul]

theorem lineGet_homeLine (m : Memory) (line o w : Nat) (h : o + w ≤ 128) (hw : 0 < w) :
    lineGet (BitVec.ofNat 1024 (Memory.read m (line * 128) 128)) o w = Memory.read m (line * 128 + o) w := by
  have hlt := Memory.read_lt 128 m (line * 128)
  have e : (256:Nat) ^ 128 = 2 ^ 1024 := (two_pow_mul_eight 128).symm
  rw [e] at hlt
  unfold lineGet nbits
  rw [BitVec.toNat_ofNat, Nat.mod_eq_of_lt hlt]
  have h1 : 8 * (o + w) - 1 + 1 - 8 * o = 8 * w := by omega
  rw [h1, two_pow_mul_eight, two_pow_mul_eight]
  obtain ⟨r, hr⟩ : ∃ r, 128 = o + (w + r) := ⟨128 - o - w, by omega⟩
  have : Memory.read m (line * 128) 128 = Memory.read m (line * 128) (o + (w + r)) := by rw [← hr]
  rw [this, Memory.read_drop, Memory.read_take]

/-! ### A load that finds no copy -/

theorem homeStores_nil {s : State} (h : s.stores = []) (line : Nat) : homeStores s line = [] := by
  unfold homeStores; rw [h]; rfl

theorem dieStores_nil {s : State} (h : s.stores = []) (die line : Nat) : dieStores s die line = [] := by
  unfold dieStores; rw [h]; rfl

theorem clusterStores_nil {s : State} (h : s.stores = []) (cl line : Nat) (c : Bool) : clusterStores s cl line c = [] := by
  unfold clusterStores; rw [h]; rfl

theorem settleLine_nil {s : State} (h : s.stores = []) (line : Nat) : settleLine line s = s := by
  unfold settleLine; rw [homeStores_nil h]; rfl

theorem ackLine_nil {s : State} (h : s.stores = []) (line : Nat) (f : Store → Bool) : ackLine line f s = s := by
  unfold ackLine; rw [homeStores_nil h]; rfl

theorem ownStores_nil {s : State} (h : s.stores = []) (p : Place) (va : Word) (w v : Nat) : ownStores s p va w v = v := by
  unfold ownStores ownOver; rw [h]; rfl

theorem mendOwn_nil {s : State} (h : s.stores = []) (p : Place) (va : Word) (w : Nat) : mendOwn p va w s = s := by
  unfold mendOwn; exact drain_nil h _ _

theorem mend_nil (pa w : Nat) (s : State) : mend [] pa w s = s := rfl

theorem fillLine_nil {s : State} (h : s.stores = []) (die line : Nat) : fillLine s die line = homeLine s line := by
  unfold fillLine; rw [dieStores_nil h]; rfl

theorem putCopy_dram (line d : Nat) (v : BitVec 1024) (s : State) : (putCopy line d v s).dram = s.dram := by
  unfold putCopy; dsimp only; split
  · rfl
  · split <;> rfl

theorem putCopy_stores (line d : Nat) (v : BitVec 1024) (s : State) : (putCopy line d v s).stores = s.stores := by
  unfold putCopy; dsimp only; split
  · rfl
  · split <;> rfl

theorem shareLine_dram (line d : Nat) (s : State) : (shareLine line d s).dram = s.dram := rfl

theorem shareLine_stores (line d : Nat) (s : State) : (shareLine line d s).stores = s.stores := rfl

theorem homeLine_of_dram {s t : State} (h : t.dram = s.dram) (line : Nat) : homeLine t line = homeLine s line := by
  unfold homeLine; rw [h]

theorem sliceLine_home (cl : Option Nat) (die line bytes : Nat) (alloc : Bool) (s : State) (hst : s.stores = [])
    (hsl : FMap.get? s.slices (copyKey line die) = none) :
    (sliceLine cl die line bytes alloc s).1 = homeLine s line ∧ (sliceLine cl die line bytes alloc s).2.dram = s.dram ∧
      (sliceLine cl die line bytes alloc s).2.stores = [] := by
  unfold sliceLine
  simp only [hsl, settleLine_nil hst, ackLine_nil hst]
  generalize hu : countRead cl die _ bytes true _ _ (homeServe line s).2.2 = u
  have u1 : u.dram = s.dram := by rw [← hu, countRead_dram, homeServe_dram]
  have u2 : u.stores = [] := by rw [← hu, countRead_stores, homeServe_stores, hst]
  rw [fillLine_nil u2, homeLine_of_dram u1]
  split
  · exact ⟨rfl, by rw [shareLine_dram, putCopy_dram, u1], by rw [shareLine_stores, putCopy_stores, u2]⟩
  · exact ⟨rfl, u1, u2⟩

theorem slicePath_home (cl die line pa w bytes : Nat) (alloc own : Bool) (s : State) (hst : s.stores = [])
    (hsl : FMap.get? s.slices (copyKey line die) = none) :
    (slicePath cl die line pa w bytes alloc own s).1 = (homeLine s line, []) ∧
      (slicePath cl die line pa w bytes alloc own s).2.dram = s.dram ∧
      (slicePath cl die line pa w bytes alloc own s).2.stores = [] := by
  have hm : ∀ (t : State) (c : Bool), t.stores = [] → (if own = true then clusterStores t cl line c else []) = [] :=
    fun t c h => by split <;> first | exact clusterStores_nil h _ _ _ | rfl
  obtain ⟨h1, h2, h3⟩ := sliceLine_home (some cl) die line bytes alloc s hst hsl
  unfold slicePath
  simp only [hm s _ hst, dieStores_nil hst, List.append_nil, mend_nil, hm _ _ h3, dieStores_nil h3, h1]
  exact ⟨rfl, h2, h3⟩

/-- A load that finds no copy on its way while no store is under way answers the home's bytes. -/
theorem dramLoad_home (g : Agent) (va : Word) (pa w : Nat) (nc : Bool) (h : Hint) (l1 : Bool) (s : State)
  (hst : s.stores = []) (hw : 0 < w) (ho : pa % 128 + w ≤ 128)
  (hl1 : ∀ cl, g.cl = some cl →
    (s.cluster cl).l1.find? (fun l => l.gang == g.gang && l.tag == va.toNat / 128 && untorn l.pats (va.toNat % 128) w) = none)
  (hsl : FMap.get? s.slices (copyKey (pa / 128) g.die) = none) :
  (dramLoad g va pa w nc h l1 s).1 = Memory.read s.dram pa w ∧ (dramLoad g va pa w nc h l1 s).2.dram = s.dram ∧
   (dramLoad g va pa w nc h l1 s).2.stores = [] := by
  have hpa : pa / 128 * 128 + pa % 128 = pa := by omega
  have hs1 := homeServe_dram (pa/128) s
  have hs2 := (homeServe_stores (pa/128) s).trans hst
  unfold dramLoad
  cases hc : g.cl with
  | none =>
    simp only [settleLine_nil hst]
    simp only [hs1, hs2, and_self]
  | some cl =>
    dsimp only
    have hone : (if l1 = true then (s.cluster cl).l1.find? (fun l => l.gang == g.gang && l.tag == va.toNat / 128 &&
        untorn l.pats (va.toNat % 128) w) else none) = none := by
      split
      · exact hl1 cl hc
      · rfl
    have hmd : (if l1 = true then mend (clusterStores s cl (pa / 128) false) pa w s else s) = s := by
      rw [clusterStores_nil hst, mend_nil]; split <;> rfl
    by_cases hn : nc = true
    · simp only [hn, if_true, hmd, settleLine_nil hst, countRead_dram, countRead_stores, hs1, hs2, and_true]
      rw [clusterStores_nil ((countRead_stores _ _ _ _ _ _ _ _).trans hs2)]
      have : (if l1 = true then ([] : List Store) else []) = [] := by split <;> rfl
      rw [this, homeLine_of_dram ((countRead_dram _ _ _ _ _ _ _ _).trans hs1)]
      show lineGet (homeLine s (pa / 128)) _ _ = _
      unfold homeLine
      rw [lineGet_homeLine _ _ _ _ ho hw, hpa]
    · simp only [hn, Bool.false_eq_true, if_false, hone]
      obtain ⟨h1, h2, h3⟩ := slicePath_home cl g.die (pa / 128) pa w (if (l1 && h == Hint.normal) = true then 128 else w) (h != .la) l1 s hst hsl
      generalize slicePath cl g.die (pa / 128) pa w (if (l1 && h == Hint.normal) = true then 128 else w) (h != .la) l1 s = r at h1 h2 h3 ⊢
      rw [h1]
      refine ⟨?_, ?_, ?_⟩
      · unfold homeLine
        rw [lineGet_homeLine _ _ _ _ ho hw, hpa]
      · split
        · rw [State.modCluster_dram, h2]
        · exact h2
      · split
        · rw [State.modCluster_stores, h3]
        · exact h3

end Sys2Proof.Machine
end

