-- ==== Sys2Proof/Laws/Issue.lean ====
section
/-!
SUPPORT. What issuing a word for a context does beside the word's own effect, said once: the lemmas from which
a word's completion, transfer, trap or wait is read off its body.
-/

namespace Sys2Proof.Machine

/-! ### The bookkeeping of issue -/

/-- t differs from s in the bookkeeping of issue at most. -/
structure Hidden (s t : State) : Prop where
  threads : ∀ q, (t.thread q).arch = (s.thread q).arch ∧ (t.thread q).pc = (s.thread q).pc ∧
      (t.thread q).run = (s.thread q).run ∧ (t.thread q).grem = (s.thread q).grem ∧
      (t.thread q).entered = (s.thread q).entered
  cores : ∀ c, (t.core c).arch = (s.core c).arch
  device : t.device = s.device

theorem Hidden.refl (s : State) : Hidden s s := ⟨fun _ => ⟨rfl, rfl, rfl, rfl, rfl⟩, fun _ => rfl, rfl⟩

theorem Hidden.trans {s t u : State} (h : Hidden s t) (k : Hidden t u) : Hidden s u where
  threads q := by
    obtain ⟨a, b, c, d, e⟩ := h.threads q
    obtain ⟨a', b', c', d', e'⟩ := k.threads q
    exact ⟨a'.trans a, b'.trans b, c'.trans c, d'.trans d, e'.trans e⟩
  cores c := (k.cores c).trans (h.cores c)
  device := k.device.trans h.device

theorem Beside.refl (p : Place) (s : State) : Beside p s s :=
  ⟨fun _ _ => ⟨rfl, rfl, rfl, rfl⟩, fun _ => rfl, rfl⟩

theorem Beside.trans {p : Place} {s t u : State} (h : Beside p s t) (k : Beside p t u) : Beside p s u where
  threads q hq := by
    obtain ⟨a, b, c, d⟩ := h.threads q hq
    obtain ⟨a', b', c', d'⟩ := k.threads q hq
    exact ⟨a'.trans a, b'.trans b, c'.trans c, d'.trans d⟩
  cores c := (k.cores c).trans (h.cores c)
  device := k.device.trans h.device

theorem Hidden.beside {s t : State} (p : Place) (h : Hidden s t) : Beside p s t :=
  ⟨fun q _ => ⟨(h.threads q).1, (h.threads q).2.1, (h.threads q).2.2.1, (h.threads q).2.2.2.1⟩, h.cores, h.device⟩

theorem beside_modThread (p : Place) (f : Thread → Thread) (s : State) : Beside p s (s.modThread p f) where
  threads q hq := by
    rw [State.thread_modThread_of_ne _ _ _ _ hq]
    exact ⟨rfl, rfl, rfl, rfl⟩
  cores _ := rfl
  device := rfl

theorem hidden_setThread {s : State} {q : Place} {t u : Thread} (h : s.thread q = t) (ha : u.arch = t.arch)
    (hp : u.pc = t.pc) (hr : u.run = t.run) (hg : u.grem = t.grem)
    (he : u.entered = t.entered) : Hidden s (s.setThread q u) where
  threads r := by
    by_cases hk : r.key = q.key
    · have e : s.thread r = t := by rw [← h]; simp [State.thread, State.thread?, hk]
      rw [State.thread_setThread_of_key _ _ _ _ hk, e]
      exact ⟨ha, hp, hr, hg, he⟩
    · rw [State.thread_setThread_of_ne _ _ _ _ hk]
      exact ⟨rfl, rfl, rfl, rfl, rfl⟩
  cores _ := rfl
  device := rfl

theorem hidden_modThread {s : State} {q : Place} {f : Thread → Thread} (ha : ∀ t, (f t).arch = t.arch)
    (hp : ∀ t, (f t).pc = t.pc) (hr : ∀ t, (f t).run = t.run) (hg : ∀ t, (f t).grem = t.grem)
    (he : ∀ t, (f t).entered = t.entered) : Hidden s (s.modThread q f) :=
  hidden_setThread rfl (ha _) (hp _) (hr _) (hg _) (he _)

theorem hidden_modCore {s : State} {c : CoreId} {f : Core → Core} (h : ∀ k, (f k).arch = k.arch) :
    Hidden s (s.modCore c f) where
  threads _ := ⟨rfl, rfl, rfl, rfl, rfl⟩
  cores d := by
    by_cases hk : d.key = c.key
    · rw [State.core_modCore_of_key _ _ _ _ hk, h]
    · rw [State.core_modCore_of_ne _ _ _ _ hk]
  device := rfl

theorem hidden_foldl {α : Type} (f : State → α → State) (h : ∀ s a, Hidden s (f s a)) (l : List α) (s : State) :
    Hidden s (l.foldl f s) := by
  induction l generalizing s with
  | nil => exact Hidden.refl s
  | cons a l ih => exact (h s a).trans (ih (f s a))

theorem hidden_coreIssued (c : CoreId) (k : Nat) (s : State) : Hidden s (coreIssued c k s) := by
  unfold coreIssued
  refine Hidden.trans
    (hidden_modCore (f := fun x => { x with iptr := (k + 1) % 4, nextIssue := s.clk + 1 }) fun _ => rfl)
    (hidden_foldl _ (fun s j => ?_) _ _)
  dsimp only
  split
  · split
    · rename_i h _
      exact hidden_setThread (State.thread_eq_of_thread? h) rfl rfl rfl rfl rfl
    · exact Hidden.refl s
  · exact Hidden.refl s

theorem hidden_markBusy (i : Instr) (p : Place) (r : Res) (s : State) : Hidden s (markBusy i p r s) := by
  unfold markBusy
  cases r with
  | ok c =>
    dsimp only
    have flags : ∀ (b : Bool) (n : Nat),
        Hidden s (if b = true then s.modThread p fun t => { t with flagDue := max t.flagDue n } else s) := by
      intro b n
      split
      · exact hidden_modThread (f := fun t => { t with flagDue := max t.flagDue n })
          (fun _ => rfl) (fun _ => rfl) (fun _ => rfl) (fun _ => rfl) (fun _ => rfl)
      · exact Hidden.refl s
    have key : ∀ (u : State) (l : Thread → List (RFile × Nat × Nat)), Hidden s u → Hidden s (u.modThread p fun t =>
        { t with busy := t.busy.filter (fun b => decide (u.clk < b.2.2)) ++ l t }) := fun u l hu =>
      hu.trans (hidden_modThread (f := fun t =>
        { t with busy := t.busy.filter (fun b => decide (u.clk < b.2.2)) ++ l t })
        (fun _ => rfl) (fun _ => rfl) (fun _ => rfl) (fun _ => rfl) (fun _ => rfl))
    by_cases h : ((c.thread p).off && !isControl i) = true
    · rw [if_pos h]; exact Hidden.refl s
    · rw [if_neg h]
      by_cases g : busyLat i p ≤ 1
      · rw [if_pos g]; exact flags _ _
      · rw [if_neg g]; exact key _ (fun _ => _) (flags _ _)
  | _ => exact Hidden.refl s

theorem hidden_takeDivider (i : Instr) (p : Place) (s : State) (h : p.engine ≠ .lane) :
    Hidden s (takeDivider i p s) := by
  unfold takeDivider
  split
  · exact Hidden.refl s
  · cases p with
    | lane cl e sl ln => exact absurd rfl h
    | ctx cl c k => exact hidden_modCore fun x => by split <;> rfl
    | lctx l c k => exact hidden_modCore fun x => by split <;> rfl

/-- The bookkeeping of a word that a context has issued hides nothing. -/
theorem hidden_issued (i : Instr) (p : Place) (r : Res) (b : Bool) (s : State) (h : p.engine ≠ .lane) :
    Hidden s (if b = true then markBusy i p r s else takeDivider i p (markBusy i p r s)) := by
  split
  · exact hidden_markBusy i p r s
  · exact (hidden_markBusy i p r s).trans (hidden_takeDivider i p _ h)

/-! ### A word of a context -/

theorem issueWord_ctx (i : Instr) (body : Body) (p : Place) (s : State) (h : Issues s p) :
    ∃ c k, p.core? = some c ∧ p = c.place k ∧ issueWord i body s = .next (issueCtx i body p c k s) := by
  obtain ⟨hc, ⟨b, ht⟩, hr⟩ := h
  cases p with
  | lane cl e sl ln => exact absurd rfl hc
  | ctx cl c k =>
    refine ⟨.scalar cl c, k, rfl, rfl, ?_⟩
    simp only [Place.crew] at ht
    simp [issueWord, ht, Thread.runs, hr]
  | lctx l c k =>
    refine ⟨.landing l c, k, rfl, rfl, ?_⟩
    simp only [Place.crew] at ht
    simp [issueWord, ht, Thread.runs, hr]

theorem earlyRead_ctx (i : Instr) (act : List Place) (p : Place) (s : State) (h : p.engine ≠ .lane) :
    earlyRead i act p s = none := by
  cases p with
  | lane cl e sl ln => exact absurd rfl h
  | ctx cl c k => rfl
  | lctx l c k => rfl

theorem wordFault_ctx (i : Instr) (c : Ctx) (p : Place) (h : p.engine ≠ .lane) :
    wordFault i c p = decodeFault i p (c.pre.thread p) := by
  cases p with
  | lane cl e sl ln => exact absurd rfl h
  | ctx cl c k => rfl
  | lctx l c k => rfl

/-- What a word leaves at a context that issues it, whether or not it is guarded off or faults at decode. -/
theorem issueWord_of_issues (i : Instr) (body : Body) (p : Place) (s : State) (h : Issues s p) :
    ∃ t, issueWord i body s = .next t ∧
      Hidden (finishAt p i ((atIssue i p s).thread p).pc ((atIssue i p s).thread p).grem
        (runOne i body { act := [p], pre := atIssue i p s } p (atIssue i p s))) t := by
  obtain ⟨c, k, -, -, e⟩ := issueWord_ctx i body p s h
  refine ⟨_, e, ?_⟩
  unfold issueCtx
  dsimp only
  refine Hidden.trans ?_ (hidden_coreIssued c k _)
  exact hidden_issued i p _ _ _ h.context

/-- What a word leaves at a context that issues it: the end of its body's result, and bookkeeping. -/
theorem issueWord_of_clear (i : Instr) (body : Body) (p : Place) (s : State) (h : Clear i p s) :
    ∃ t, issueWord i body s = .next t ∧
      Hidden (finishAt p i ((atIssue i p s).thread p).pc ((atIssue i p s).thread p).grem
        (body { act := [p], pre := atIssue i p s } p (atIssue i p s))) t := by
  obtain ⟨c, k, -, -, e⟩ := issueWord_ctx i body p s h.issues
  refine ⟨_, e, ?_⟩
  have hr : runOne i body { act := [p], pre := atIssue i p s } p (atIssue i p s) =
      body { act := [p], pre := atIssue i p s } p (atIssue i p s) := by
    simp [runOne, h.on, h.sound, earlyRead_ctx i _ p _ h.issues.context, wordFault_ctx i _ p h.issues.context]
  unfold issueCtx
  dsimp only
  refine Hidden.trans ?_ (hidden_coreIssued c k _)
  rw [← hr]
  exact hidden_issued i p _ _ _ h.issues.context

/-! ### The ends of a word -/

theorem Finished.of_hidden {p : Place} {s₁ s₂ t u : State} (h : Finished p s₁ s₂ t) (k : Hidden t u) :
    Finished p s₁ s₂ u where
  regs := (k.threads p).1.trans h.regs
  pc := (k.threads p).2.1.trans h.pc
  runs := (k.threads p).2.2.1.trans h.runs
  count := (k.threads p).2.2.2.1.trans h.count
  beside := h.beside.trans (k.beside p)

theorem Jumped.of_hidden {p : Place} {d : Word} {s₂ t u : State} (h : Jumped p d s₂ t) (k : Hidden t u) :
    Jumped p d s₂ u where
  regs := (k.threads p).1.trans h.regs
  pc := (k.threads p).2.1.trans h.pc
  runs := (k.threads p).2.2.1.trans h.runs
  count := (k.threads p).2.2.2.1.trans h.count
  beside := h.beside.trans (k.beside p)

theorem Waits.of_hidden {p : Place} {i : Instr} {w : Wait} {s₁ s₂ t u : State} (h : Waits p i w s₁ s₂ t)
    (k : Hidden t u) : Waits p i w s₁ s₂ u where
  regs := (k.threads p).1.trans h.regs
  pc := (k.threads p).2.1.trans h.pc
  runs := (k.threads p).2.2.1.trans h.runs
  beside := h.beside.trans (k.beside p)

theorem finished_finish (p : Place) (i : Instr) (s₁ s₂ : State) :
    Finished p s₁ s₂ (finishAt p i (s₁.thread p).pc (s₁.thread p).grem (.ok s₂)) where
  regs := by
    simp only [finishAt, finish, State.thread_modThread_self, Thread.countDown]
    split <;> rfl
  pc := by simp [finishAt, finish]
  runs := by simp [finishAt, finish]
  count := by
    simp only [finishAt, finish, State.thread_modThread_self, Thread.countDown, countAfter]
    split <;> rfl
  beside := by
    simp only [finishAt, finish]
    exact beside_modThread p _ s₂

theorem jumped_finish (p : Place) (i : Instr) (pc : Word) (n : Nat) (s₂ : State) (dst : Word) :
    Jumped p dst s₂ (finishAt p i pc n (.jump s₂ dst)) where
  regs := by simp [finishAt, finish, Thread.goto, Thread.arch]
  pc := by simp [finishAt, finish, Thread.goto]
  runs := by simp [finishAt, finish]
  count := by simp [finishAt, finish]
  beside := by
    simp only [finishAt, finish]
    exact beside_modThread p _ s₂

theorem waits_finish (p : Place) (i : Instr) (pc : Word) (n : Nat) (s₁ s₂ : State) (w : Wait) :
    Waits p i w s₁ s₂ (finishAt p i pc n (.wait s₂ w)) where
  regs := by simp [finishAt, finish, Thread.arch]
  pc := by simp [finishAt, finish]
  runs := by simp [finishAt, finish]
  beside := by
    simp only [finishAt, finish]
    exact beside_modThread p _ s₂

theorem trapped_enter (p : Place) (cause : Nat) (eval epc : Word) (s : State)
    (hv : (s.tvecOf p).toNat % 4 = 0) : Trapped p cause eval epc s (trapEnter p cause eval epc s) := by
  unfold trapEnter
  simp only [hv, ne_eq, not_true_eq_false, if_false]
  constructor
  · simp [Thread.arch, Thread.trapped]
  · simp
  · simp
  · simp
  · simp
  · exact beside_modThread p _ s

theorem Trapped.of_hidden {p : Place} {c : Nat} {v e : Word} {s₁ t u : State} (h : Trapped p c v e s₁ t)
    (k : Hidden t u) : Trapped p c v e s₁ u where
  regs := (k.threads p).1.trans h.regs
  pc := (k.threads p).2.1.trans h.pc
  runs := (k.threads p).2.2.1.trans h.runs
  count := (k.threads p).2.2.2.1.trans h.count
  fresh := (k.threads p).2.2.2.2.trans h.fresh
  beside := h.beside.trans (k.beside p)

/-- A word whose body succeeds completes. -/
theorem completes_of_ok {i : Instr} {body : Body} {p : Place} {s : State} {e : State → State}
    (hx : exec i s = issueWord i body s) (h : Clear i p s)
    (hb : body { act := [p], pre := atIssue i p s } p (atIssue i p s) = .ok (e (atIssue i p s))) :
    Completes i p s e := by
  obtain ⟨t, ht, hh⟩ := issueWord_of_clear i body p s h
  rw [hb] at hh
  exact ⟨t, hx.trans ht, (finished_finish p i _ _).of_hidden hh⟩

/-- A word whose body takes a transfer completes with it. -/
theorem completesTo_of_jump {i : Instr} {body : Body} {p : Place} {s : State} {dst : Word} {e : State → State}
    (hx : exec i s = issueWord i body s) (h : Clear i p s)
    (hb : body { act := [p], pre := atIssue i p s } p (atIssue i p s) = .jump (e (atIssue i p s)) dst) :
    CompletesTo i p s dst e := by
  obtain ⟨t, ht, hh⟩ := issueWord_of_clear i body p s h
  rw [hb] at hh
  exact ⟨t, hx.trans ht, (jumped_finish p i _ _ _ _).of_hidden hh⟩

/-- A word that waits, looked at again, whose body succeeds, completes. -/
theorem completesLater_of_ok {i : Instr} {body : Body} {w : Wait} {p : Place} {s : State} {e : State → State}
    (hx : exec i s = issueWord i body s) (h : Looks i w p s)
    (hb : body { act := [p], pre := s } p s = .ok (e s)) (hd : (info i).div = 0 := by rfl) :
    CompletesLater i p s e := by
  refine ⟨_, ?_, (finished_finish p i s (e s)).of_hidden (hidden_markBusy i p (.ok (e s)) _)⟩
  rw [hx]
  simp [issueWord, h.turn, h.here, resumeWord, h.waits, hb, divReady, takeDivider, hd, finishAt]

/-- A word whose body faults takes the trap. -/
theorem traps_of_trap {i : Instr} {body : Body} {p : Place} {s : State} {c : Nat} {v : Word} {e : State → State}
    (hx : exec i s = issueWord i body s) (h : Clear i p s)
    (hb : body { act := [p], pre := atIssue i p s } p (atIssue i p s) = .trap (e (atIssue i p s)) c v) :
    Traps i p s c v e := by
  intro hv
  obtain ⟨t, ht, hh⟩ := issueWord_of_clear i body p s h
  rw [hb] at hh
  exact ⟨t, hx.trans ht, (trapped_enter p c v _ _ hv).of_hidden hh⟩

/-- A word whose body waits, waits. -/
theorem blocks_of_wait {i : Instr} {body : Body} {p : Place} {s : State} {w : Wait} {e : State → State}
    (hx : exec i s = issueWord i body s) (h : Clear i p s)
    (hb : body { act := [p], pre := atIssue i p s } p (atIssue i p s) = .wait (e (atIssue i p s)) w) :
    Blocks i p s w e := by
  obtain ⟨t, ht, hh⟩ := issueWord_of_clear i body p s h
  rw [hb] at hh
  exact ⟨t, hx.trans ht, (waits_finish p i _ _ _ _ w).of_hidden hh⟩

end Sys2Proof.Machine
end

