-- ==== Sys2Proof/Laws/Issued.lean ====
section
/-!
SUPPORT. Every word is issued in one way: the dispatcher hands it, at a context, to `issueWord` with its meaning.
-/

namespace Sys2Proof.Machine

/-- At a context, the execution of the word i is the issue of some meaning. -/
def Issued (i : Instr) : Prop := ∃ body, ∀ s p, Issues s p → exec i s = issueWord i body s

theorem issueBank_ctx (i : Instr) (body : Body) (s : State) (p : Place) (h : Issues s p) :
    issueBank i body s = issueWord i body s := by
  obtain ⟨hc, ⟨b, ht⟩, -⟩ := h
  cases p with
  | lane cl e sl ln => exact absurd rfl hc
  | ctx cl c k =>
    simp only [Place.crew] at ht
    simp only [issueBank, ht]
  | lctx l c k =>
    simp only [Place.crew] at ht
    simp only [issueBank, ht]

theorem issued_add (d : Reg) (a : Reg) (b : Reg) : Issued (.add d a b) := ⟨_, fun st _ _ => exec_add d a b st⟩
theorem issued_sub (d : Reg) (a : Reg) (b : Reg) : Issued (.sub d a b) := ⟨_, fun st _ _ => exec_sub d a b st⟩
theorem issued_and (d : Reg) (a : Reg) (b : Reg) : Issued (.and d a b) := ⟨_, fun st _ _ => exec_and d a b st⟩
theorem issued_or (d : Reg) (a : Reg) (b : Reg) : Issued (.or d a b) := ⟨_, fun st _ _ => exec_or d a b st⟩
theorem issued_xor (d : Reg) (a : Reg) (b : Reg) : Issued (.xor d a b) := ⟨_, fun st _ _ => exec_xor d a b st⟩
theorem issued_andn (d : Reg) (a : Reg) (b : Reg) : Issued (.andn d a b) := ⟨_, fun st _ _ => exec_andn d a b st⟩
theorem issued_orn (d : Reg) (a : Reg) (b : Reg) : Issued (.orn d a b) := ⟨_, fun st _ _ => exec_orn d a b st⟩
theorem issued_xnor (d : Reg) (a : Reg) (b : Reg) : Issued (.xnor d a b) := ⟨_, fun st _ _ => exec_xnor d a b st⟩
theorem issued_shl (d : Reg) (a : Reg) (b : Reg) : Issued (.shl d a b) := ⟨_, fun st _ _ => exec_shl d a b st⟩
theorem issued_shr (d : Reg) (a : Reg) (b : Reg) : Issued (.shr d a b) := ⟨_, fun st _ _ => exec_shr d a b st⟩
theorem issued_sar (d : Reg) (a : Reg) (b : Reg) : Issued (.sar d a b) := ⟨_, fun st _ _ => exec_sar d a b st⟩
theorem issued_rol (d : Reg) (a : Reg) (b : Reg) : Issued (.rol d a b) := ⟨_, fun st _ _ => exec_rol d a b st⟩
theorem issued_ror (d : Reg) (a : Reg) (b : Reg) : Issued (.ror d a b) := ⟨_, fun st _ _ => exec_ror d a b st⟩
theorem issued_mul (d : Reg) (a : Reg) (b : Reg) : Issued (.mul d a b) := ⟨_, fun st _ _ => exec_mul d a b st⟩
theorem issued_mulh (d : Reg) (a : Reg) (b : Reg) : Issued (.mulh d a b) := ⟨_, fun st _ _ => exec_mulh d a b st⟩
theorem issued_mulhu (d : Reg) (a : Reg) (b : Reg) : Issued (.mulhu d a b) := ⟨_, fun st _ _ => exec_mulhu d a b st⟩
theorem issued_div (d : Reg) (a : Reg) (b : Reg) : Issued (.div d a b) := ⟨_, fun st _ _ => exec_div d a b st⟩
theorem issued_divu (d : Reg) (a : Reg) (b : Reg) : Issued (.divu d a b) := ⟨_, fun st _ _ => exec_divu d a b st⟩
theorem issued_rem (d : Reg) (a : Reg) (b : Reg) : Issued (.rem d a b) := ⟨_, fun st _ _ => exec_rem d a b st⟩
theorem issued_remu (d : Reg) (a : Reg) (b : Reg) : Issued (.remu d a b) := ⟨_, fun st _ _ => exec_remu d a b st⟩
theorem issued_min (d : Reg) (a : Reg) (b : Reg) : Issued (.min d a b) := ⟨_, fun st _ _ => exec_min d a b st⟩
theorem issued_max (d : Reg) (a : Reg) (b : Reg) : Issued (.max d a b) := ⟨_, fun st _ _ => exec_max d a b st⟩
theorem issued_minu (d : Reg) (a : Reg) (b : Reg) : Issued (.minu d a b) := ⟨_, fun st _ _ => exec_minu d a b st⟩
theorem issued_maxu (d : Reg) (a : Reg) (b : Reg) : Issued (.maxu d a b) := ⟨_, fun st _ _ => exec_maxu d a b st⟩
theorem issued_slt (d : Reg) (a : Reg) (b : Reg) : Issued (.slt d a b) := ⟨_, fun st _ _ => exec_slt d a b st⟩
theorem issued_sltu (d : Reg) (a : Reg) (b : Reg) : Issued (.sltu d a b) := ⟨_, fun st _ _ => exec_sltu d a b st⟩
theorem issued_clz (d : Reg) (a : Reg) : Issued (.clz d a) := ⟨_, fun st _ _ => exec_clz d a st⟩
theorem issued_ctz (d : Reg) (a : Reg) : Issued (.ctz d a) := ⟨_, fun st _ _ => exec_ctz d a st⟩
theorem issued_pop (d : Reg) (a : Reg) : Issued (.pop d a) := ⟨_, fun st _ _ => exec_pop d a st⟩
theorem issued_brev (d : Reg) (a : Reg) : Issued (.brev d a) := ⟨_, fun st _ _ => exec_brev d a st⟩
theorem issued_bswap (d : Reg) (a : Reg) : Issued (.bswap d a) := ⟨_, fun st _ _ => exec_bswap d a st⟩
theorem issued_sextB (d : Reg) (a : Reg) : Issued (.sextB d a) := ⟨_, fun st _ _ => exec_sextB d a st⟩
theorem issued_sextH (d : Reg) (a : Reg) : Issued (.sextH d a) := ⟨_, fun st _ _ => exec_sextH d a st⟩
theorem issued_sextW (d : Reg) (a : Reg) : Issued (.sextW d a) := ⟨_, fun st _ _ => exec_sextW d a st⟩
theorem issued_zextB (d : Reg) (a : Reg) : Issued (.zextB d a) := ⟨_, fun st _ _ => exec_zextB d a st⟩
theorem issued_zextH (d : Reg) (a : Reg) : Issued (.zextH d a) := ⟨_, fun st _ _ => exec_zextH d a st⟩
theorem issued_zextW (d : Reg) (a : Reg) : Issued (.zextW d a) := ⟨_, fun st _ _ => exec_zextW d a st⟩
theorem issued_addw (d : Reg) (a : Reg) (b : Reg) : Issued (.addw d a b) := ⟨_, fun st _ _ => exec_addw d a b st⟩
theorem issued_subw (d : Reg) (a : Reg) (b : Reg) : Issued (.subw d a b) := ⟨_, fun st _ _ => exec_subw d a b st⟩
theorem issued_mulw (d : Reg) (a : Reg) (b : Reg) : Issued (.mulw d a b) := ⟨_, fun st _ _ => exec_mulw d a b st⟩
theorem issued_addi (d : Reg) (a : Reg) (i : BitVec 17) : Issued (.addi d a i) :=
  ⟨_, fun st _ _ => exec_addi d a i st⟩
theorem issued_andi (d : Reg) (a : Reg) (i : BitVec 17) : Issued (.andi d a i) :=
  ⟨_, fun st _ _ => exec_andi d a i st⟩
theorem issued_ori (d : Reg) (a : Reg) (i : BitVec 17) : Issued (.ori d a i) := ⟨_, fun st _ _ => exec_ori d a i st⟩
theorem issued_xori (d : Reg) (a : Reg) (i : BitVec 17) : Issued (.xori d a i) :=
  ⟨_, fun st _ _ => exec_xori d a i st⟩
theorem issued_shli (d : Reg) (a : Reg) (n : Fin 64) : Issued (.shli d a n) := ⟨_, fun st _ _ => exec_shli d a n st⟩
theorem issued_shri (d : Reg) (a : Reg) (n : Fin 64) : Issued (.shri d a n) := ⟨_, fun st _ _ => exec_shri d a n st⟩
theorem issued_sari (d : Reg) (a : Reg) (n : Fin 64) : Issued (.sari d a n) := ⟨_, fun st _ _ => exec_sari d a n st⟩
theorem issued_roli (d : Reg) (a : Reg) (n : Fin 64) : Issued (.roli d a n) := ⟨_, fun st _ _ => exec_roli d a n st⟩
theorem issued_slti (d : Reg) (a : Reg) (i : BitVec 17) : Issued (.slti d a i) :=
  ⟨_, fun st _ _ => exec_slti d a i st⟩
theorem issued_lui (d : Reg) (i : BitVec 22) : Issued (.lui d i) := ⟨_, fun st _ _ => exec_lui d i st⟩
theorem issued_luih (d : Reg) (i : BitVec 22) : Issued (.luih d i) := ⟨_, fun st _ _ => exec_luih d i st⟩
theorem issued_addpc (d : Reg) (i : BitVec 22) : Issued (.addpc d i) := ⟨_, fun st _ _ => exec_addpc d i st⟩
theorem issued_lea (d : Reg) (a : Reg) (b : Reg) (s : Fin 8) (i : BitVec 7) : Issued (.lea d a b s i) :=
  ⟨_, fun st _ _ => exec_lea d a b s i st⟩
theorem issued_bfxu (d : Reg) (a : Reg) (l : Fin 64) (p : Fin 64) : Issued (.bfxu d a l p) :=
  ⟨_, fun st _ _ => exec_bfxu d a l p st⟩
theorem issued_bfx (d : Reg) (a : Reg) (l : Fin 64) (p : Fin 64) : Issued (.bfx d a l p) :=
  ⟨_, fun st _ _ => exec_bfx d a l p st⟩
theorem issued_bfi (d : Reg) (a : Reg) (l : Fin 64) (p : Fin 64) : Issued (.bfi d a l p) :=
  ⟨_, fun st _ _ => exec_bfi d a l p st⟩
theorem issued_mhpk (d : Reg) (a : Reg) (b : Reg) (l : Fin 8) : Issued (.mhpk d a b l) :=
  ⟨_, fun st _ _ => exec_mhpk d a b l st⟩
theorem issued_mhun (s : Bool) (d : Reg) (a : Reg) (l : Fin 8) : Issued (.mhun s d a l) :=
  ⟨_, fun st _ _ => exec_mhun s d a l st⟩
theorem issued_layw (a : Reg) (b : Reg) : Issued (.layw a b) := ⟨_, fun st _ _ => exec_layw a b st⟩
theorem issued_layr (d : Reg) (a : Reg) : Issued (.layr d a) := ⟨_, fun st _ _ => exec_layr d a st⟩
theorem issued_prdx (d : Reg) (g : Fin 3) : Issued (.prdx d g) := ⟨_, fun st _ _ => exec_prdx d g st⟩
theorem issued_xprd (a : Reg) (g : Fin 3) : Issued (.xprd a g) := ⟨_, fun st _ _ => exec_xprd a g st⟩
theorem issued_pcmp (c : Cc) (p : Pred) (a : Reg) (b : Reg) : Issued (.pcmp c p a b) :=
  ⟨_, fun st _ _ => exec_pcmp c p a b st⟩
theorem issued_pcmpi (c : Cc) (p : Pred) (a : Reg) (i : BitVec 5) : Issued (.pcmpi c p a i) :=
  ⟨_, fun st _ _ => exec_pcmpi c p a i st⟩
theorem issued_fcmp (c : Fcc) (p : Pred) (a : Reg) (b : Reg) : Issued (.fcmp c p a b) :=
  ⟨_, fun st _ _ => exec_fcmp c p a b st⟩
theorem issued_pand (p : Pred) (a : Pred) (b : Pred) : Issued (.pand p a b) := ⟨_, fun st _ _ => exec_pand p a b st⟩
theorem issued_por (p : Pred) (a : Pred) (b : Pred) : Issued (.por p a b) := ⟨_, fun st _ _ => exec_por p a b st⟩
theorem issued_pxor (p : Pred) (a : Pred) (b : Pred) : Issued (.pxor p a b) := ⟨_, fun st _ _ => exec_pxor p a b st⟩
theorem issued_pandn (p : Pred) (a : Pred) (b : Pred) : Issued (.pandn p a b) :=
  ⟨_, fun st _ _ => exec_pandn p a b st⟩
theorem issued_porn (p : Pred) (a : Pred) (b : Pred) : Issued (.porn p a b) := ⟨_, fun st _ _ => exec_porn p a b st⟩
theorem issued_pnot (p : Pred) (a : Pred) : Issued (.pnot p a) := ⟨_, fun st _ _ => exec_pnot p a st⟩
theorem issued_br (o : BitVec 25) : Issued (.br o) := ⟨_, fun st _ _ => exec_br o st⟩
theorem issued_call (o : BitVec 25) : Issued (.call o) := ⟨_, fun st _ _ => exec_call o st⟩
theorem issued_brp (p : Pred) (o : BitVec 18) : Issued (.brp p o) := ⟨_, fun st _ _ => exec_brp p o st⟩
theorem issued_brn (p : Pred) (o : BitVec 18) : Issued (.brn p o) := ⟨_, fun st _ _ => exec_brn p o st⟩
theorem issued_jmpr (a : Reg) : Issued (.jmpr a) := ⟨_, fun st _ _ => exec_jmpr a st⟩
theorem issued_callr (a : Reg) : Issued (.callr a) := ⟨_, fun st _ _ => exec_callr a st⟩
theorem issued_ret : Issued (.ret) := ⟨_, fun st _ _ => exec_ret st⟩
theorem issued_fadd (r : Rnd) (d : Reg) (a : Reg) (b : Reg) : Issued (.fadd r d a b) :=
  ⟨_, fun st _ _ => exec_fadd r d a b st⟩
theorem issued_fsub (r : Rnd) (d : Reg) (a : Reg) (b : Reg) : Issued (.fsub r d a b) :=
  ⟨_, fun st _ _ => exec_fsub r d a b st⟩
theorem issued_fmul (r : Rnd) (d : Reg) (a : Reg) (b : Reg) : Issued (.fmul r d a b) :=
  ⟨_, fun st _ _ => exec_fmul r d a b st⟩
theorem issued_fdiv (r : Rnd) (d : Reg) (a : Reg) (b : Reg) : Issued (.fdiv r d a b) :=
  ⟨_, fun st _ _ => exec_fdiv r d a b st⟩
theorem issued_fsqrt (r : Rnd) (d : Reg) (a : Reg) : Issued (.fsqrt r d a) := ⟨_, fun st _ _ => exec_fsqrt r d a st⟩
theorem issued_fmin (r : Rnd) (d : Reg) (a : Reg) (b : Reg) : Issued (.fmin r d a b) :=
  ⟨_, fun st _ _ => exec_fmin r d a b st⟩
theorem issued_fmax (r : Rnd) (d : Reg) (a : Reg) (b : Reg) : Issued (.fmax r d a b) :=
  ⟨_, fun st _ _ => exec_fmax r d a b st⟩
theorem issued_fabs (r : Rnd) (d : Reg) (a : Reg) : Issued (.fabs r d a) := ⟨_, fun st _ _ => exec_fabs r d a st⟩
theorem issued_fneg (r : Rnd) (d : Reg) (a : Reg) : Issued (.fneg r d a) := ⟨_, fun st _ _ => exec_fneg r d a st⟩
theorem issued_fsgnj (r : Rnd) (d : Reg) (a : Reg) (b : Reg) : Issued (.fsgnj r d a b) :=
  ⟨_, fun st _ _ => exec_fsgnj r d a b st⟩
theorem issued_frcp (r : Rnd) (d : Reg) (a : Reg) : Issued (.frcp r d a) := ⟨_, fun st _ _ => exec_frcp r d a st⟩
theorem issued_frsq (r : Rnd) (d : Reg) (a : Reg) : Issued (.frsq r d a) := ⟨_, fun st _ _ => exec_frsq r d a st⟩
theorem issued_fexp2 (r : Rnd) (d : Reg) (a : Reg) : Issued (.fexp2 r d a) := ⟨_, fun st _ _ => exec_fexp2 r d a st⟩
theorem issued_flog2 (r : Rnd) (d : Reg) (a : Reg) : Issued (.flog2 r d a) := ⟨_, fun st _ _ => exec_flog2 r d a st⟩
theorem issued_fsin (r : Rnd) (d : Reg) (a : Reg) : Issued (.fsin r d a) := ⟨_, fun st _ _ => exec_fsin r d a st⟩
theorem issued_fcos (r : Rnd) (d : Reg) (a : Reg) : Issued (.fcos r d a) := ⟨_, fun st _ _ => exec_fcos r d a st⟩
theorem issued_fclass (r : Rnd) (d : Reg) (a : Reg) : Issued (.fclass r d a) :=
  ⟨_, fun st _ _ => exec_fclass r d a st⟩
theorem issued_f2i (r : Rnd) (d : Reg) (a : Reg) : Issued (.f2i r d a) := ⟨_, fun st _ _ => exec_f2i r d a st⟩
theorem issued_f2iu (r : Rnd) (d : Reg) (a : Reg) : Issued (.f2iu r d a) := ⟨_, fun st _ _ => exec_f2iu r d a st⟩
theorem issued_i2f (r : Rnd) (d : Reg) (a : Reg) : Issued (.i2f r d a) := ⟨_, fun st _ _ => exec_i2f r d a st⟩
theorem issued_iu2f (r : Rnd) (d : Reg) (a : Reg) : Issued (.iu2f r d a) := ⟨_, fun st _ _ => exec_iu2f r d a st⟩
theorem issued_f2bf (r : Rnd) (d : Reg) (a : Reg) : Issued (.f2bf r d a) := ⟨_, fun st _ _ => exec_f2bf r d a st⟩
theorem issued_bf2f (r : Rnd) (d : Reg) (a : Reg) : Issued (.bf2f r d a) := ⟨_, fun st _ _ => exec_bf2f r d a st⟩
theorem issued_f2h (r : Rnd) (d : Reg) (a : Reg) : Issued (.f2h r d a) := ⟨_, fun st _ _ => exec_f2h r d a st⟩
theorem issued_h2f (r : Rnd) (d : Reg) (a : Reg) : Issued (.h2f r d a) := ⟨_, fun st _ _ => exec_h2f r d a st⟩
theorem issued_hadd2 (r : Rnd) (d : Reg) (a : Reg) (b : Reg) : Issued (.hadd2 r d a b) :=
  ⟨_, fun st _ _ => exec_hadd2 r d a b st⟩
theorem issued_hmul2 (r : Rnd) (d : Reg) (a : Reg) (b : Reg) : Issued (.hmul2 r d a b) :=
  ⟨_, fun st _ _ => exec_hmul2 r d a b st⟩
theorem issued_hmin2 (r : Rnd) (d : Reg) (a : Reg) (b : Reg) : Issued (.hmin2 r d a b) :=
  ⟨_, fun st _ _ => exec_hmin2 r d a b st⟩
theorem issued_hmax2 (r : Rnd) (d : Reg) (a : Reg) (b : Reg) : Issued (.hmax2 r d a b) :=
  ⟨_, fun st _ _ => exec_hmax2 r d a b st⟩
theorem issued_fmvXf (r : Rnd) (d : Reg) (a : Reg) : Issued (.fmvXf r d a) := ⟨_, fun st _ _ => exec_fmvXf r d a st⟩
theorem issued_fmvFx (r : Rnd) (d : Reg) (a : Reg) : Issued (.fmvFx r d a) := ⟨_, fun st _ _ => exec_fmvFx r d a st⟩
theorem issued_fma (r : Rnd) (d : Reg) (a : Reg) (b : Reg) (c : Reg) : Issued (.fma r d a b c) :=
  ⟨_, fun st _ _ => exec_fma r d a b c st⟩
theorem issued_fms (r : Rnd) (d : Reg) (a : Reg) (b : Reg) (c : Reg) : Issued (.fms r d a b c) :=
  ⟨_, fun st _ _ => exec_fms r d a b c st⟩
theorem issued_fnma (r : Rnd) (d : Reg) (a : Reg) (b : Reg) (c : Reg) : Issued (.fnma r d a b c) :=
  ⟨_, fun st _ _ => exec_fnma r d a b c st⟩
theorem issued_fnms (r : Rnd) (d : Reg) (a : Reg) (b : Reg) (c : Reg) : Issued (.fnms r d a b c) :=
  ⟨_, fun st _ _ => exec_fnms r d a b c st⟩
theorem issued_hfma2 (r : Rnd) (d : Reg) (a : Reg) (b : Reg) (c : Reg) : Issued (.hfma2 r d a b c) :=
  ⟨_, fun st _ _ => exec_hfma2 r d a b c st⟩
theorem issued_hfma2h (r : Rnd) (d : Reg) (a : Reg) (b : Reg) (c : Reg) : Issued (.hfma2h r d a b c) :=
  ⟨_, fun st _ _ => exec_hfma2h r d a b c st⟩
theorem issued_ldB (h : Hint) (d : Reg) (a : Reg) (o : BitVec 12) : Issued (.ldB h d a o) :=
  ⟨_, fun st _ _ => exec_ldB h d a o st⟩
theorem issued_ldBu (h : Hint) (d : Reg) (a : Reg) (o : BitVec 12) : Issued (.ldBu h d a o) :=
  ⟨_, fun st _ _ => exec_ldBu h d a o st⟩
theorem issued_ldH (h : Hint) (d : Reg) (a : Reg) (o : BitVec 12) : Issued (.ldH h d a o) :=
  ⟨_, fun st _ _ => exec_ldH h d a o st⟩
theorem issued_ldHu (h : Hint) (d : Reg) (a : Reg) (o : BitVec 12) : Issued (.ldHu h d a o) :=
  ⟨_, fun st _ _ => exec_ldHu h d a o st⟩
theorem issued_ldW (h : Hint) (d : Reg) (a : Reg) (o : BitVec 12) : Issued (.ldW h d a o) :=
  ⟨_, fun st _ _ => exec_ldW h d a o st⟩
theorem issued_ldWu (h : Hint) (d : Reg) (a : Reg) (o : BitVec 12) : Issued (.ldWu h d a o) :=
  ⟨_, fun st _ _ => exec_ldWu h d a o st⟩
theorem issued_ldD (h : Hint) (d : Reg) (a : Reg) (o : BitVec 12) : Issued (.ldD h d a o) :=
  ⟨_, fun st _ _ => exec_ldD h d a o st⟩
theorem issued_fld (h : Hint) (d : Reg) (a : Reg) (o : BitVec 12) : Issued (.fld h d a o) :=
  ⟨_, fun st _ _ => exec_fld h d a o st⟩
theorem issued_stB (h : Hint) (d : Reg) (a : Reg) (o : BitVec 12) : Issued (.stB h d a o) :=
  ⟨_, fun st _ _ => exec_stB h d a o st⟩
theorem issued_stH (h : Hint) (d : Reg) (a : Reg) (o : BitVec 12) : Issued (.stH h d a o) :=
  ⟨_, fun st _ _ => exec_stH h d a o st⟩
theorem issued_stW (h : Hint) (d : Reg) (a : Reg) (o : BitVec 12) : Issued (.stW h d a o) :=
  ⟨_, fun st _ _ => exec_stW h d a o st⟩
theorem issued_stD (h : Hint) (d : Reg) (a : Reg) (o : BitVec 12) : Issued (.stD h d a o) :=
  ⟨_, fun st _ _ => exec_stD h d a o st⟩
theorem issued_fst (h : Hint) (d : Reg) (a : Reg) (o : BitVec 12) : Issued (.fst h d a o) :=
  ⟨_, fun st _ _ => exec_fst h d a o st⟩
theorem issued_lda (z : MemSize) (s : Scope) (d : Reg) (a : Reg) (i : BitVec 5) : Issued (.lda z s d a i) :=
  ⟨_, fun st _ _ => exec_lda z s d a i st⟩
theorem issued_strel (z : MemSize) (s : Scope) (b : Reg) (a : Reg) (i : BitVec 5) : Issued (.strel z s b a i) :=
  ⟨_, fun st _ _ => exec_strel z s b a i st⟩
theorem issued_fence (s : Scope) : Issued (.fence s) := ⟨_, fun st _ _ => exec_fence s st⟩
theorem issued_atomAdd (z : MemSize) (s : Scope) (d : Reg) (a : Reg) (b : Reg) : Issued (.atomAdd z s d a b) :=
  ⟨_, fun st _ _ => exec_atomAdd z s d a b st⟩
theorem issued_atomMin (z : MemSize) (s : Scope) (d : Reg) (a : Reg) (b : Reg) : Issued (.atomMin z s d a b) :=
  ⟨_, fun st _ _ => exec_atomMin z s d a b st⟩
theorem issued_atomMax (z : MemSize) (s : Scope) (d : Reg) (a : Reg) (b : Reg) : Issued (.atomMax z s d a b) :=
  ⟨_, fun st _ _ => exec_atomMax z s d a b st⟩
theorem issued_atomMinu (z : MemSize) (s : Scope) (d : Reg) (a : Reg) (b : Reg) : Issued (.atomMinu z s d a b) :=
  ⟨_, fun st _ _ => exec_atomMinu z s d a b st⟩
theorem issued_atomMaxu (z : MemSize) (s : Scope) (d : Reg) (a : Reg) (b : Reg) : Issued (.atomMaxu z s d a b) :=
  ⟨_, fun st _ _ => exec_atomMaxu z s d a b st⟩
theorem issued_atomAnd (z : MemSize) (s : Scope) (d : Reg) (a : Reg) (b : Reg) : Issued (.atomAnd z s d a b) :=
  ⟨_, fun st _ _ => exec_atomAnd z s d a b st⟩
theorem issued_atomOr (z : MemSize) (s : Scope) (d : Reg) (a : Reg) (b : Reg) : Issued (.atomOr z s d a b) :=
  ⟨_, fun st _ _ => exec_atomOr z s d a b st⟩
theorem issued_atomXor (z : MemSize) (s : Scope) (d : Reg) (a : Reg) (b : Reg) : Issued (.atomXor z s d a b) :=
  ⟨_, fun st _ _ => exec_atomXor z s d a b st⟩
theorem issued_atomSwap (z : MemSize) (s : Scope) (d : Reg) (a : Reg) (b : Reg) : Issued (.atomSwap z s d a b) :=
  ⟨_, fun st _ _ => exec_atomSwap z s d a b st⟩
theorem issued_cas (z : MemSize) (s : Scope) (d : Reg) (a : Reg) (b : Reg) : Issued (.cas z s d a b) :=
  ⟨_, fun st _ _ => exec_cas z s d a b st⟩
theorem issued_amergeI (z : MemSize) (s : Scope) (a : Reg) (b : Reg) : Issued (.amergeI z s a b) :=
  ⟨_, fun st _ _ => exec_amergeI z s a b st⟩
theorem issued_amergeF (s : Scope) (a : Reg) (b : Reg) : Issued (.amergeF s a b) :=
  ⟨_, fun st _ _ => exec_amergeF s a b st⟩
theorem issued_pref (s : Scope) (a : Reg) : Issued (.pref s a) := ⟨_, fun st _ _ => exec_pref s a st⟩
theorem issued_cinv (s : Scope) (a : Reg) : Issued (.cinv s a) := ⟨_, fun st _ _ => exec_cinv s a st⟩
theorem issued_cflush (s : Scope) (a : Reg) : Issued (.cflush s a) := ⟨_, fun st _ _ => exec_cflush s a st⟩
theorem issued_sbind (s : Fin 4) (a : Reg) : Issued (.sbind s a) := ⟨_, fun st _ _ => exec_sbind s a st⟩
theorem issued_sclose (s : Fin 4) : Issued (.sclose s) := ⟨_, fun st _ _ => exec_sclose s st⟩
theorem issued_sstat (d : Reg) (s : Fin 4) : Issued (.sstat d s) := ⟨_, fun st _ _ => exec_sstat d s st⟩
theorem issued_tcopy (d : Reg) (a : Reg) : Issued (.tcopy d a) := ⟨_, fun st _ _ => exec_tcopy d a st⟩
theorem issued_tlwait (s : Scope) (a : Reg) (b : Reg) : Issued (.tlwait s a b) :=
  ⟨_, fun st _ _ => exec_tlwait s a b st⟩
theorem issued_tlread (k : TlSel) (d : Reg) (a : Reg) : Issued (.tlread k d a) :=
  ⟨_, fun st _ _ => exec_tlread k d a st⟩
theorem issued_tlarm (a : Reg) (b : Reg) : Issued (.tlarm a b) := ⟨_, fun st _ _ => exec_tlarm a b st⟩
theorem issued_galloc (d : Reg) (a : Reg) (b : Reg) : Issued (.galloc d a b) :=
  ⟨_, fun st _ _ => exec_galloc d a b st⟩
theorem issued_gtry (d : Reg) (a : Reg) (b : Reg) : Issued (.gtry d a b) := ⟨_, fun st _ _ => exec_gtry d a b st⟩
theorem issued_gseal (a : Reg) : Issued (.gseal a) := ⟨_, fun st _ _ => exec_gseal a st⟩
theorem issued_gtake (d : Reg) (a : Reg) : Issued (.gtake d a) := ⟨_, fun st _ _ => exec_gtake d a st⟩
theorem issued_gdone (a : Reg) : Issued (.gdone a) := ⟨_, fun st _ _ => exec_gdone a st⟩
theorem issued_gdrop (a : Reg) (b : Reg) : Issued (.gdrop a b) := ⟨_, fun st _ _ => exec_gdrop a b st⟩
theorem issued_gstatBay (d : Reg) (a : Reg) : Issued (.gstatBay d a) := ⟨_, fun st _ _ => exec_gstatBay d a st⟩
theorem issued_gstatTile (d : Reg) (a : Reg) : Issued (.gstatTile d a) := ⟨_, fun st _ _ => exec_gstatTile d a st⟩
theorem issued_gbay (d : Reg) (a : Reg) (b : Reg) : Issued (.gbay d a b) := ⟨_, fun st _ _ => exec_gbay d a b st⟩
theorem issued_wcfg (g : Cfg) (a : Reg) : Issued (.wcfg g a) :=
  ⟨_, fun st pl h => (exec_wcfg g a st).trans (issueBank_ctx _ _ st pl h)⟩
theorem issued_wrcf (a : Reg) (g : Cfg) : Issued (.wrcf a g) :=
  ⟨_, fun st pl h => (exec_wrcf a g st).trans (issueBank_ctx _ _ st pl h)⟩
theorem issued_wldp (s : Side) (rev : Bool) (i : ZReg) (a : Reg) (b : Reg) : Issued (.wldp s rev i a b) :=
  ⟨_, fun st pl h => (exec_wldp s rev i a b st).trans (issueBank_ctx _ _ st pl h)⟩
theorem issued_wldt (s : Side) (rev : Bool) (i : ZReg) (a : Reg) (b : Reg) : Issued (.wldt s rev i a b) :=
  ⟨_, fun st pl h => (exec_wldt s rev i a b st).trans (issueBank_ctx _ _ st pl h)⟩
theorem issued_wmul (p : Fin 8) (zb : ZReg) (za : ZReg) (a : Reg) : Issued (.wmul p zb za a) :=
  ⟨_, fun st pl h => (exec_wmul p zb za a st).trans (issueBank_ctx _ _ st pl h)⟩
theorem issued_wmac (zb : ZReg) (za : ZReg) (a : Reg) (b : Reg) : Issued (.wmac zb za a b) :=
  ⟨_, fun st pl h => (exec_wmac zb za a b st).trans (issueBank_ctx _ _ st pl h)⟩
theorem issued_wext (p : Fin 8) (a : Reg) (b : Reg) : Issued (.wext p a b) :=
  ⟨_, fun st pl h => (exec_wext p a b st).trans (issueBank_ctx _ _ st pl h)⟩
theorem issued_wrot (t : Dir) (zb : ZReg) (za : ZReg) : Issued (.wrot t zb za) :=
  ⟨_, fun st pl h => (exec_wrot t zb za st).trans (issueBank_ctx _ _ st pl h)⟩
theorem issued_wmacr (t : Dir) (zb : ZReg) (za : ZReg) (a : Reg) (b : Reg) : Issued (.wmacr t zb za a b) :=
  ⟨_, fun st pl h => (exec_wmacr t zb za a b st).trans (issueBank_ctx _ _ st pl h)⟩
theorem issued_wsta (a : Reg) (b : Reg) : Issued (.wsta a b) :=
  ⟨_, fun st pl h => (exec_wsta a b st).trans (issueBank_ctx _ _ st pl h)⟩
theorem issued_wzero (a : Reg) (b : Reg) : Issued (.wzero a b) :=
  ⟨_, fun st pl h => (exec_wzero a b st).trans (issueBank_ctx _ _ st pl h)⟩
theorem issued_wzeroZ (i : ZReg) : Issued (.wzeroZ i) :=
  ⟨_, fun st pl h => (exec_wzeroZ i st).trans (issueBank_ctx _ _ st pl h)⟩
theorem issued_wwait (a : Reg) : Issued (.wwait a) :=
  ⟨_, fun st pl h => (exec_wwait a st).trans (issueBank_ctx _ _ st pl h)⟩
theorem issued_wstat (clr : Bool) (a : Reg) (sel : Fin 7) : Issued (.wstat clr a sel) :=
  ⟨_, fun st pl h => (exec_wstat clr a sel st).trans (issueBank_ctx _ _ st pl h)⟩
theorem issued_wmov (d : ZReg) (a : ZReg) : Issued (.wmov d a) :=
  ⟨_, fun st pl h => (exec_wmov d a st).trans (issueBank_ctx _ _ st pl h)⟩
theorem issued_wunpk (s : Side) (a : Reg) (i : ZReg) : Issued (.wunpk s a i) :=
  ⟨_, fun st pl h => (exec_wunpk s a i st).trans (issueBank_ctx _ _ st pl h)⟩
theorem issued_wshft (s : Side) (d : ZReg) (a : ZReg) (b : Reg) : Issued (.wshft s d a b) :=
  ⟨_, fun st pl h => (exec_wshft s d a b st).trans (issueBank_ctx _ _ st pl h)⟩
theorem issued_msend (a : Reg) (b : Reg) : Issued (.msend a b) := ⟨_, fun st _ _ => exec_msend a b st⟩
theorem issued_mreq (a : Reg) (b : Reg) : Issued (.mreq a b) := ⟨_, fun st _ _ => exec_mreq a b st⟩
theorem issued_mret : Issued (.mret) := ⟨_, fun st _ _ => exec_mret st⟩
theorem issued_hset (a : Reg) (b : Reg) : Issued (.hset a b) := ⟨_, fun st _ _ => exec_hset a b st⟩
theorem issued_hmask (d : Reg) (a : Reg) (b : Reg) : Issued (.hmask d a b) := ⟨_, fun st _ _ => exec_hmask d a b st⟩
theorem issued_rput (a : Reg) (b : Reg) : Issued (.rput a b) := ⟨_, fun st _ _ => exec_rput a b st⟩
theorem issued_qget (d : Reg) (a : Reg) : Issued (.qget d a) := ⟨_, fun st _ _ => exec_qget d a st⟩
theorem issued_qpeek (d : Reg) (a : Reg) : Issued (.qpeek d a) := ⟨_, fun st _ _ => exec_qpeek d a st⟩
theorem issued_dqpush (s : Scope) (d : Reg) (a : Reg) (b : Reg) : Issued (.dqpush s d a b) :=
  ⟨_, fun st _ _ => exec_dqpush s d a b st⟩
theorem issued_dqpop (d : Reg) : Issued (.dqpop d) := ⟨_, fun st _ _ => exec_dqpop d st⟩
theorem issued_dqsteal (d : Reg) (a : Reg) : Issued (.dqsteal d a) := ⟨_, fun st _ _ => exec_dqsteal d a st⟩
theorem issued_bar (s : Scope) (d : Reg) (a : Reg) : Issued (.bar s d a) := ⟨_, fun st _ _ => exec_bar s d a st⟩
theorem issued_bara (s : Scope) (d : Reg) (a : Reg) : Issued (.bara s d a) := ⟨_, fun st _ _ => exec_bara s d a st⟩
theorem issued_barw (s : Scope) (a : Reg) (b : Reg) : Issued (.barw s a b) := ⟨_, fun st _ _ => exec_barw s a b st⟩
theorem issued_pace (s0 : Fin 8) (s1 : Fin 8) (s2 : Fin 8) (s3 : Fin 8) (s4 : Fin 8) (s5 : Fin 8) (s6 : Fin 8) (s7 : Fin 8) : Issued (.pace s0 s1 s2 s3 s4 s5 s6 s7) :=
  ⟨_, fun st _ _ => exec_pace s0 s1 s2 s3 s4 s5 s6 s7 st⟩
theorem issued_guard (p : Pred) (neg : Bool) (n : Fin 8) : Issued (.guard p neg n) :=
  ⟨_, fun st _ _ => exec_guard p neg n st⟩
theorem issued_vshfl (m : Shfl) (keep : Bool) (fp : Bool) (k : Fin 4) (d : Reg) (a : Reg) (b : Reg) : Issued (.vshfl m keep fp k d a b) :=
  ⟨_, fun st _ _ => exec_vshfl m keep fp k d a b st⟩
theorem issued_vred (op : RedOp) (d : Reg) (a : Reg) : Issued (.vred op d a) := ⟨_, fun st _ _ => exec_vred op d a st⟩
theorem issued_vscan (op : RedOp) (ex : Bool) (d : Reg) (a : Reg) : Issued (.vscan op ex d a) :=
  ⟨_, fun st _ _ => exec_vscan op ex d a st⟩
theorem issued_vball (d : Reg) (p : Pred) : Issued (.vball d p) := ⟨_, fun st _ _ => exec_vball d p st⟩
theorem issued_velect (d : Reg) (p : Pred) : Issued (.velect d p) := ⟨_, fun st _ _ => exec_velect d p st⟩
theorem issued_vquant (d : Reg) (a : Reg) (b : Reg) (k : Fin 6) : Issued (.vquant d a b k) :=
  ⟨_, fun st _ _ => exec_vquant d a b k st⟩
theorem issued_vdeq (d : Reg) (a : Reg) (b : Reg) : Issued (.vdeq d a b) := ⟨_, fun st _ _ => exec_vdeq d a b st⟩
theorem issued_venc (d : Reg) (a : Reg) (w : Fin 16) : Issued (.venc d a w) := ⟨_, fun st _ _ => exec_venc d a w st⟩
theorem issued_mbpost (d : Reg) (a : Reg) (b : Reg) : Issued (.mbpost d a b) :=
  ⟨_, fun st _ _ => exec_mbpost d a b st⟩
theorem issued_mbwait (d : Reg) (a : Reg) : Issued (.mbwait d a) := ⟨_, fun st _ _ => exec_mbwait d a st⟩
theorem issued_gflush (a : Reg) : Issued (.gflush a) := ⟨_, fun st _ _ => exec_gflush a st⟩
theorem issued_migr (a : Reg) : Issued (.migr a) := ⟨_, fun st _ _ => exec_migr a st⟩
theorem issued_mgpt : Issued (.mgpt) := ⟨_, fun st _ _ => exec_mgpt st⟩
theorem issued_trap (i : BitVec 12) : Issued (.trap i) := ⟨_, fun st _ _ => exec_trap i st⟩
theorem issued_eret : Issued (.eret) := ⟨_, fun st _ _ => exec_eret st⟩
theorem issued_sysr (d : Reg) (r : SysReg) : Issued (.sysr d r) := ⟨_, fun st _ _ => exec_sysr d r st⟩
theorem issued_sysw (r : SysReg) (a : Reg) : Issued (.sysw r a) := ⟨_, fun st _ _ => exec_sysw r a st⟩
theorem issued_wfm : Issued (.wfm) := ⟨_, fun st _ _ => exec_wfm st⟩
theorem issued_yield : Issued (.yield) := ⟨_, fun st _ _ => exec_yield st⟩
theorem issued_exit (a : Reg) : Issued (.exit a) := ⟨_, fun st _ _ => exec_exit a st⟩
theorem issued_pginv (a : Reg) : Issued (.pginv a) := ⟨_, fun st _ _ => exec_pginv a st⟩
theorem issued_brk (i : BitVec 12) : Issued (.brk i) := ⟨_, fun st _ _ => exec_brk i st⟩
theorem issued_illegalInstruction (w : W32) : Issued (.illegalInstruction w) :=
  ⟨_, fun st _ _ => exec_illegalInstruction w st⟩

/-- Every word of the manual is issued in that way. -/
theorem issued_word (i : Instr) (w : W32) (h : encode i = some w) : Issued i := by
  cases i with
  | add a0 a1 a2 => exact issued_add a0 a1 a2
  | sub a0 a1 a2 => exact issued_sub a0 a1 a2
  | and a0 a1 a2 => exact issued_and a0 a1 a2
  | or a0 a1 a2 => exact issued_or a0 a1 a2
  | xor a0 a1 a2 => exact issued_xor a0 a1 a2
  | andn a0 a1 a2 => exact issued_andn a0 a1 a2
  | orn a0 a1 a2 => exact issued_orn a0 a1 a2
  | xnor a0 a1 a2 => exact issued_xnor a0 a1 a2
  | shl a0 a1 a2 => exact issued_shl a0 a1 a2
  | shr a0 a1 a2 => exact issued_shr a0 a1 a2
  | sar a0 a1 a2 => exact issued_sar a0 a1 a2
  | rol a0 a1 a2 => exact issued_rol a0 a1 a2
  | ror a0 a1 a2 => exact issued_ror a0 a1 a2
  | mul a0 a1 a2 => exact issued_mul a0 a1 a2
  | mulh a0 a1 a2 => exact issued_mulh a0 a1 a2
  | mulhu a0 a1 a2 => exact issued_mulhu a0 a1 a2
  | div a0 a1 a2 => exact issued_div a0 a1 a2
  | divu a0 a1 a2 => exact issued_divu a0 a1 a2
  | rem a0 a1 a2 => exact issued_rem a0 a1 a2
  | remu a0 a1 a2 => exact issued_remu a0 a1 a2
  | min a0 a1 a2 => exact issued_min a0 a1 a2
  | max a0 a1 a2 => exact issued_max a0 a1 a2
  | minu a0 a1 a2 => exact issued_minu a0 a1 a2
  | maxu a0 a1 a2 => exact issued_maxu a0 a1 a2
  | slt a0 a1 a2 => exact issued_slt a0 a1 a2
  | sltu a0 a1 a2 => exact issued_sltu a0 a1 a2
  | clz a0 a1 => exact issued_clz a0 a1
  | ctz a0 a1 => exact issued_ctz a0 a1
  | pop a0 a1 => exact issued_pop a0 a1
  | brev a0 a1 => exact issued_brev a0 a1
  | bswap a0 a1 => exact issued_bswap a0 a1
  | sextB a0 a1 => exact issued_sextB a0 a1
  | sextH a0 a1 => exact issued_sextH a0 a1
  | sextW a0 a1 => exact issued_sextW a0 a1
  | zextB a0 a1 => exact issued_zextB a0 a1
  | zextH a0 a1 => exact issued_zextH a0 a1
  | zextW a0 a1 => exact issued_zextW a0 a1
  | addw a0 a1 a2 => exact issued_addw a0 a1 a2
  | subw a0 a1 a2 => exact issued_subw a0 a1 a2
  | mulw a0 a1 a2 => exact issued_mulw a0 a1 a2
  | addi a0 a1 a2 => exact issued_addi a0 a1 a2
  | andi a0 a1 a2 => exact issued_andi a0 a1 a2
  | ori a0 a1 a2 => exact issued_ori a0 a1 a2
  | xori a0 a1 a2 => exact issued_xori a0 a1 a2
  | shli a0 a1 a2 => exact issued_shli a0 a1 a2
  | shri a0 a1 a2 => exact issued_shri a0 a1 a2
  | sari a0 a1 a2 => exact issued_sari a0 a1 a2
  | roli a0 a1 a2 => exact issued_roli a0 a1 a2
  | slti a0 a1 a2 => exact issued_slti a0 a1 a2
  | lui a0 a1 => exact issued_lui a0 a1
  | luih a0 a1 => exact issued_luih a0 a1
  | addpc a0 a1 => exact issued_addpc a0 a1
  | lea a0 a1 a2 a3 a4 => exact issued_lea a0 a1 a2 a3 a4
  | bfxu a0 a1 a2 a3 => exact issued_bfxu a0 a1 a2 a3
  | bfx a0 a1 a2 a3 => exact issued_bfx a0 a1 a2 a3
  | bfi a0 a1 a2 a3 => exact issued_bfi a0 a1 a2 a3
  | mhpk a0 a1 a2 a3 => exact issued_mhpk a0 a1 a2 a3
  | mhun a0 a1 a2 a3 => exact issued_mhun a0 a1 a2 a3
  | layw a0 a1 => exact issued_layw a0 a1
  | layr a0 a1 => exact issued_layr a0 a1
  | prdx a0 a1 => exact issued_prdx a0 a1
  | xprd a0 a1 => exact issued_xprd a0 a1
  | pcmp a0 a1 a2 a3 => exact issued_pcmp a0 a1 a2 a3
  | pcmpi a0 a1 a2 a3 => exact issued_pcmpi a0 a1 a2 a3
  | fcmp a0 a1 a2 a3 => exact issued_fcmp a0 a1 a2 a3
  | pand a0 a1 a2 => exact issued_pand a0 a1 a2
  | por a0 a1 a2 => exact issued_por a0 a1 a2
  | pxor a0 a1 a2 => exact issued_pxor a0 a1 a2
  | pandn a0 a1 a2 => exact issued_pandn a0 a1 a2
  | porn a0 a1 a2 => exact issued_porn a0 a1 a2
  | pnot a0 a1 => exact issued_pnot a0 a1
  | br a0 => exact issued_br a0
  | call a0 => exact issued_call a0
  | brp a0 a1 => exact issued_brp a0 a1
  | brn a0 a1 => exact issued_brn a0 a1
  | jmpr a0 => exact issued_jmpr a0
  | callr a0 => exact issued_callr a0
  | ret => exact issued_ret
  | fadd a0 a1 a2 a3 => exact issued_fadd a0 a1 a2 a3
  | fsub a0 a1 a2 a3 => exact issued_fsub a0 a1 a2 a3
  | fmul a0 a1 a2 a3 => exact issued_fmul a0 a1 a2 a3
  | fdiv a0 a1 a2 a3 => exact issued_fdiv a0 a1 a2 a3
  | fsqrt a0 a1 a2 => exact issued_fsqrt a0 a1 a2
  | fmin a0 a1 a2 a3 => exact issued_fmin a0 a1 a2 a3
  | fmax a0 a1 a2 a3 => exact issued_fmax a0 a1 a2 a3
  | fabs a0 a1 a2 => exact issued_fabs a0 a1 a2
  | fneg a0 a1 a2 => exact issued_fneg a0 a1 a2
  | fsgnj a0 a1 a2 a3 => exact issued_fsgnj a0 a1 a2 a3
  | frcp a0 a1 a2 => exact issued_frcp a0 a1 a2
  | frsq a0 a1 a2 => exact issued_frsq a0 a1 a2
  | fexp2 a0 a1 a2 => exact issued_fexp2 a0 a1 a2
  | flog2 a0 a1 a2 => exact issued_flog2 a0 a1 a2
  | fsin a0 a1 a2 => exact issued_fsin a0 a1 a2
  | fcos a0 a1 a2 => exact issued_fcos a0 a1 a2
  | fclass a0 a1 a2 => exact issued_fclass a0 a1 a2
  | f2i a0 a1 a2 => exact issued_f2i a0 a1 a2
  | f2iu a0 a1 a2 => exact issued_f2iu a0 a1 a2
  | i2f a0 a1 a2 => exact issued_i2f a0 a1 a2
  | iu2f a0 a1 a2 => exact issued_iu2f a0 a1 a2
  | f2bf a0 a1 a2 => exact issued_f2bf a0 a1 a2
  | bf2f a0 a1 a2 => exact issued_bf2f a0 a1 a2
  | f2h a0 a1 a2 => exact issued_f2h a0 a1 a2
  | h2f a0 a1 a2 => exact issued_h2f a0 a1 a2
  | hadd2 a0 a1 a2 a3 => exact issued_hadd2 a0 a1 a2 a3
  | hmul2 a0 a1 a2 a3 => exact issued_hmul2 a0 a1 a2 a3
  | hmin2 a0 a1 a2 a3 => exact issued_hmin2 a0 a1 a2 a3
  | hmax2 a0 a1 a2 a3 => exact issued_hmax2 a0 a1 a2 a3
  | fmvXf a0 a1 a2 => exact issued_fmvXf a0 a1 a2
  | fmvFx a0 a1 a2 => exact issued_fmvFx a0 a1 a2
  | fma a0 a1 a2 a3 a4 => exact issued_fma a0 a1 a2 a3 a4
  | fms a0 a1 a2 a3 a4 => exact issued_fms a0 a1 a2 a3 a4
  | fnma a0 a1 a2 a3 a4 => exact issued_fnma a0 a1 a2 a3 a4
  | fnms a0 a1 a2 a3 a4 => exact issued_fnms a0 a1 a2 a3 a4
  | hfma2 a0 a1 a2 a3 a4 => exact issued_hfma2 a0 a1 a2 a3 a4
  | hfma2h a0 a1 a2 a3 a4 => exact issued_hfma2h a0 a1 a2 a3 a4
  | ldB a0 a1 a2 a3 => exact issued_ldB a0 a1 a2 a3
  | ldBu a0 a1 a2 a3 => exact issued_ldBu a0 a1 a2 a3
  | ldH a0 a1 a2 a3 => exact issued_ldH a0 a1 a2 a3
  | ldHu a0 a1 a2 a3 => exact issued_ldHu a0 a1 a2 a3
  | ldW a0 a1 a2 a3 => exact issued_ldW a0 a1 a2 a3
  | ldWu a0 a1 a2 a3 => exact issued_ldWu a0 a1 a2 a3
  | ldD a0 a1 a2 a3 => exact issued_ldD a0 a1 a2 a3
  | fld a0 a1 a2 a3 => exact issued_fld a0 a1 a2 a3
  | stB a0 a1 a2 a3 => exact issued_stB a0 a1 a2 a3
  | stH a0 a1 a2 a3 => exact issued_stH a0 a1 a2 a3
  | stW a0 a1 a2 a3 => exact issued_stW a0 a1 a2 a3
  | stD a0 a1 a2 a3 => exact issued_stD a0 a1 a2 a3
  | fst a0 a1 a2 a3 => exact issued_fst a0 a1 a2 a3
  | lda a0 a1 a2 a3 a4 => exact issued_lda a0 a1 a2 a3 a4
  | strel a0 a1 a2 a3 a4 => exact issued_strel a0 a1 a2 a3 a4
  | fence a0 => exact issued_fence a0
  | atomAdd a0 a1 a2 a3 a4 => exact issued_atomAdd a0 a1 a2 a3 a4
  | atomMin a0 a1 a2 a3 a4 => exact issued_atomMin a0 a1 a2 a3 a4
  | atomMax a0 a1 a2 a3 a4 => exact issued_atomMax a0 a1 a2 a3 a4
  | atomMinu a0 a1 a2 a3 a4 => exact issued_atomMinu a0 a1 a2 a3 a4
  | atomMaxu a0 a1 a2 a3 a4 => exact issued_atomMaxu a0 a1 a2 a3 a4
  | atomAnd a0 a1 a2 a3 a4 => exact issued_atomAnd a0 a1 a2 a3 a4
  | atomOr a0 a1 a2 a3 a4 => exact issued_atomOr a0 a1 a2 a3 a4
  | atomXor a0 a1 a2 a3 a4 => exact issued_atomXor a0 a1 a2 a3 a4
  | atomSwap a0 a1 a2 a3 a4 => exact issued_atomSwap a0 a1 a2 a3 a4
  | cas a0 a1 a2 a3 a4 => exact issued_cas a0 a1 a2 a3 a4
  | amergeI a0 a1 a2 a3 => exact issued_amergeI a0 a1 a2 a3
  | amergeF a0 a1 a2 => exact issued_amergeF a0 a1 a2
  | pref a0 a1 => exact issued_pref a0 a1
  | cinv a0 a1 => exact issued_cinv a0 a1
  | cflush a0 a1 => exact issued_cflush a0 a1
  | sbind a0 a1 => exact issued_sbind a0 a1
  | sclose a0 => exact issued_sclose a0
  | sstat a0 a1 => exact issued_sstat a0 a1
  | tcopy a0 a1 => exact issued_tcopy a0 a1
  | tlwait a0 a1 a2 => exact issued_tlwait a0 a1 a2
  | tlread a0 a1 a2 => exact issued_tlread a0 a1 a2
  | tlarm a0 a1 => exact issued_tlarm a0 a1
  | galloc a0 a1 a2 => exact issued_galloc a0 a1 a2
  | gtry a0 a1 a2 => exact issued_gtry a0 a1 a2
  | gseal a0 => exact issued_gseal a0
  | gtake a0 a1 => exact issued_gtake a0 a1
  | gdone a0 => exact issued_gdone a0
  | gdrop a0 a1 => exact issued_gdrop a0 a1
  | gstatBay a0 a1 => exact issued_gstatBay a0 a1
  | gstatTile a0 a1 => exact issued_gstatTile a0 a1
  | gbay a0 a1 a2 => exact issued_gbay a0 a1 a2
  | wcfg a0 a1 => exact issued_wcfg a0 a1
  | wrcf a0 a1 => exact issued_wrcf a0 a1
  | wldp a0 a1 a2 a3 a4 => exact issued_wldp a0 a1 a2 a3 a4
  | wldt a0 a1 a2 a3 a4 => exact issued_wldt a0 a1 a2 a3 a4
  | wmul a0 a1 a2 a3 => exact issued_wmul a0 a1 a2 a3
  | wmac a0 a1 a2 a3 => exact issued_wmac a0 a1 a2 a3
  | wext a0 a1 a2 => exact issued_wext a0 a1 a2
  | wrot a0 a1 a2 => exact issued_wrot a0 a1 a2
  | wmacr a0 a1 a2 a3 a4 => exact issued_wmacr a0 a1 a2 a3 a4
  | wsta a0 a1 => exact issued_wsta a0 a1
  | wzero a0 a1 => exact issued_wzero a0 a1
  | wzeroZ a0 => exact issued_wzeroZ a0
  | wwait a0 => exact issued_wwait a0
  | wstat a0 a1 a2 => exact issued_wstat a0 a1 a2
  | wmov a0 a1 => exact issued_wmov a0 a1
  | wunpk a0 a1 a2 => exact issued_wunpk a0 a1 a2
  | wshft a0 a1 a2 a3 => exact issued_wshft a0 a1 a2 a3
  | msend a0 a1 => exact issued_msend a0 a1
  | mreq a0 a1 => exact issued_mreq a0 a1
  | mret => exact issued_mret
  | hset a0 a1 => exact issued_hset a0 a1
  | hmask a0 a1 a2 => exact issued_hmask a0 a1 a2
  | rput a0 a1 => exact issued_rput a0 a1
  | qget a0 a1 => exact issued_qget a0 a1
  | qpeek a0 a1 => exact issued_qpeek a0 a1
  | dqpush a0 a1 a2 a3 => exact issued_dqpush a0 a1 a2 a3
  | dqpop a0 => exact issued_dqpop a0
  | dqsteal a0 a1 => exact issued_dqsteal a0 a1
  | bar a0 a1 a2 => exact issued_bar a0 a1 a2
  | bara a0 a1 a2 => exact issued_bara a0 a1 a2
  | barw a0 a1 a2 => exact issued_barw a0 a1 a2
  | pace a0 a1 a2 a3 a4 a5 a6 a7 => exact issued_pace a0 a1 a2 a3 a4 a5 a6 a7
  | guard a0 a1 a2 => exact issued_guard a0 a1 a2
  | vshfl a0 a1 a2 a3 a4 a5 a6 => exact issued_vshfl a0 a1 a2 a3 a4 a5 a6
  | vred a0 a1 a2 => exact issued_vred a0 a1 a2
  | vscan a0 a1 a2 a3 => exact issued_vscan a0 a1 a2 a3
  | vball a0 a1 => exact issued_vball a0 a1
  | velect a0 a1 => exact issued_velect a0 a1
  | vquant a0 a1 a2 a3 => exact issued_vquant a0 a1 a2 a3
  | vdeq a0 a1 a2 => exact issued_vdeq a0 a1 a2
  | venc a0 a1 a2 => exact issued_venc a0 a1 a2
  | mbpost a0 a1 a2 => exact issued_mbpost a0 a1 a2
  | mbwait a0 a1 => exact issued_mbwait a0 a1
  | gflush a0 => exact issued_gflush a0
  | migr a0 => exact issued_migr a0
  | mgpt => exact issued_mgpt
  | trap a0 => exact issued_trap a0
  | eret => exact issued_eret
  | sysr a0 a1 => exact issued_sysr a0 a1
  | sysw a0 a1 => exact issued_sysw a0 a1
  | wfm => exact issued_wfm
  | yield => exact issued_yield
  | exit a0 => exact issued_exit a0
  | pginv a0 => exact issued_pginv a0
  | brk a0 => exact issued_brk a0
  | illegalInstruction _ => exact absurd h (by intro e; cases e)
  | hostWindowMessage _ _ => exact absurd h (by intro e; cases e)
  | submissionAreaBadWrite _ _ => exact absurd h (by intro e; cases e)
  | windowPassMessage => exact absurd h (by intro e; cases e)
  | bar4Write _ _ => exact absurd h (by intro e; cases e)
  | bar4Read _ _ => exact absurd h (by intro e; cases e)
  | featackWrite _ _ => exact absurd h (by intro e; cases e)
  | featlockWrite _ => exact absurd h (by intro e; cases e)
  | hrqheadWrite _ => exact absurd h (by intro e; cases e)
  | pwrcapWrite _ => exact absurd h (by intro e; cases e)
  | linkstatWrite _ => exact absurd h (by intro e; cases e)
  | logtailOvfClear _ _ => exact absurd h (by intro e; cases e)
  | registerWrite _ _ => exact absurd h (by intro e; cases e)
  | messageDelivery _ => exact absurd h (by intro e; cases e)
  | handlerStart _ _ => exact absurd h (by intro e; cases e)
  | directStart _ _ => exact absurd h (by intro e; cases e)
  | mreqReply _ => exact absurd h (by intro e; cases e)
  | gangLaunch => exact absurd h (by intro e; cases e)
  | dispatcherPass => exact absurd h (by intro e; cases e)
  | headAgeingTimeout _ => exact absurd h (by intro e; cases e)
  | gangLoad _ _ _ _ => exact absurd h (by intro e; cases e)
  | gangRelease _ _ => exact absurd h (by intro e; cases e)
  | temperatureSample _ _ => exact absurd h (by intro e; cases e)
  | eligibilityWindowEnd => exact absurd h (by intro e; cases e)
  | powerSample _ _ => exact absurd h (by intro e; cases e)
  | droopEvent _ => exact absurd h (by intro e; cases e)
  | fetchGroupDelivery _ => exact absurd h (by intro e; cases e)
  | bucketPostArrival _ _ => exact absurd h (by intro e; cases e)
  | bucketTimeout _ _ => exact absurd h (by intro e; cases e)
  | waveLaunch _ _ => exact absurd h (by intro e; cases e)
  | migrationPlacement _ => exact absurd h (by intro e; cases e)
  | rputArrival _ => exact absurd h (by intro e; cases e)
  | homeRequest _ => exact absurd h (by intro e; cases e)
  | invalidationAcknowledge _ _ => exact absurd h (by intro e; cases e)
  | lineWriteback _ _ => exact absurd h (by intro e; cases e)
  | rowCapture _ _ => exact absurd h (by intro e; cases e)
  | refreshWindowStart _ => exact absurd h (by intro e; cases e)
  | streamElementArrival _ _ => exact absurd h (by intro e; cases e)
  | streamPushPerform _ _ => exact absurd h (by intro e; cases e)
  | copySectorComplete _ => exact absurd h (by intro e; cases e)
  | copyComplete _ => exact absurd h (by intro e; cases e)
  | triggerMessageSend _ => exact absurd h (by intro e; cases e)
  | galleryRequest _ _ => exact absurd h (by intro e; cases e)
  | galleryHandout _ => exact absurd h (by intro e; cases e)
  | bayWatchdogExpiry _ _ _ => exact absurd h (by intro e; cases e)
  | bankOperationStart _ => exact absurd h (by intro e; cases e)
  | bankOperationComplete _ => exact absurd h (by intro e; cases e)
  | rotationStepResume _ => exact absurd h (by intro e; cases e)
  | bankWatchdogReset _ => exact absurd h (by intro e; cases e)
  | barrierPhasePropagate _ _ _ => exact absurd h (by intro e; cases e)
  | stealRequest _ => exact absurd h (by intro e; cases e)
  | faultTokenAssign _ => exact absurd h (by intro e; cases e)
  | pagerReply _ _ => exact absurd h (by intro e; cases e)
  | preemptionCommand _ _ => exact absurd h (by intro e; cases e)
  | shareSave _ _ => exact absurd h (by intro e; cases e)
  | gangRestore _ => exact absurd h (by intro e; cases e)
  | lend => exact absurd h (by intro e; cases e)
  | errorEvent _ _ _ => exact absurd h (by intro e; cases e)
  | dataError _ _ => exact absurd h (by intro e; cases e)
  | errorLogCapture _ => exact absurd h (by intro e; cases e)
  | linkFlitRetry _ _ => exact absurd h (by intro e; cases e)
  | linkAckTimeout _ => exact absurd h (by intro e; cases e)
  | noviloFrameReceive _ _ => exact absurd h (by intro e; cases e)
  | spdmRequest _ => exact absurd h (by intro e; cases e)
  | deviceReset => exact absurd h (by intro e; cases e)
  | eopraBoot _ _ _ => exact absurd h (by intro e; cases e)
  | gangRetire _ => exact absurd h (by intro e; cases e)
  | memoryReply _ => exact absurd h (by intro e; cases e)
  | linkRestore _ => exact absurd h (by intro e; cases e)

end Sys2Proof.Machine
end

