-- ==== Sys2Proof/Laws/PerInstr.lean ====
section
/-!
SUPPORT. Statements made of every instruction, one lemma per constructor: RoundTrip, that the word of an instruction
decodes to it.
-/

namespace Sys2Proof.Laws.RoundTrip

/-- The word of a well-formed instruction decodes to the instruction (02 R39-R48). -/
def Statement (i : Instr) : Prop := ∀ w, i.wf = true → encode i = some w → decode w = .ok i

theorem of_none {i : Instr} (h : encodeBits i = none) : Statement i := by
  intro w _ hw
  rw [encode, h] at hw
  cases hw

theorem of_wf {i : Instr} (h : i.wf = true → Statement i) : Statement i := fun w hw => h hw w hw

theorem of_bits {i : Instr} (n : Nat) (h : encodeBits i = some n) (hn : n < 4294967296)
    (hd : ∀ m, n = m → m < 4294967296 → decode (BitVec.ofNat 32 m) = .ok i) : Statement i := by
  intro w _ hw
  simp only [encode, h, Option.map_some, Option.some.injEq] at hw
  rw [← hw]
  exact hd n rfl hn

/-! ### Field codes -/

theorem rnd_lt (v : Rnd) : Enc.rnd v < 5 := by cases v <;> decide

theorem hint_lt (v : Hint) : Enc.hint v < 3 := by cases v <;> decide

theorem scope_lt (v : Scope) : Enc.scope v < 4 := by cases v <;> decide

theorem size_lt (v : MemSize) : Enc.size v < 4 := by cases v <;> decide

theorem cc_lt (v : Cc) : Enc.cc v < 7 := by cases v <;> decide

theorem fcc_lt (v : Fcc) : Enc.fcc v < 7 := by cases v <;> decide

theorem shfl_lt (v : Shfl) : Enc.shfl v < 4 := by cases v <;> decide

theorem redOp_lt (v : RedOp) : Enc.redOp v < 12 := by cases v <;> decide

theorem tlSel_lt (k : TlSel) : Enc.tlSel k < 4 := by cases k <;> decide

theorem side_lt (v : Side) : Enc.side v < 2 := by cases v <;> decide

theorem dir_lt (v : Dir) : Enc.dir v < 4 := by cases v <;> decide

theorem cfg_lt (v : Cfg) : Enc.cfg v < 8 := by cases v <;> decide

theorem sysReg_lt (v : SysReg) : Enc.sysReg v < 263 := by cases v <;> decide

theorem bit_lt (v : Bool) : Enc.bit v < 2 := by cases v <;> decide

theorem rnd_enc (v : Rnd) (k : Rnd → Except Reject Instr) : Dec.rnd (Enc.rnd v) k = k v := by cases v <;> rfl

theorem hint_enc (v : Hint) (k : Hint → Except Reject Instr) : Dec.hint (Enc.hint v) k = k v := by cases v <;> rfl

theorem cc_enc (v : Cc) (k : Cc → Except Reject Instr) : Dec.cc (Enc.cc v) k = k v := by cases v <;> rfl

theorem fcc_enc (v : Fcc) (k : Fcc → Except Reject Instr) : Dec.fcc (Enc.fcc v) k = k v := by cases v <;> rfl

theorem redOp_enc (v : RedOp) (k : RedOp → Except Reject Instr) : Dec.redOp (Enc.redOp v) k = k v := by cases v <;> rfl

theorem sysReg_enc (v : SysReg) (k : SysReg → Except Reject Instr) : Dec.sysReg (Enc.sysReg v) k = k v := by cases v <;> rfl

theorem scope_enc (v : Scope) : Dec.scope (Enc.scope v) = v := by cases v <;> rfl

theorem size_enc (v : MemSize) : Dec.size (Enc.size v) = v := by cases v <;> rfl

theorem shfl_enc (v : Shfl) : Dec.shfl (Enc.shfl v) = v := by cases v <;> rfl

theorem tlSel_enc (k : TlSel) : Dec.tlSel (Enc.tlSel k) = k := by cases k <;> rfl

theorem side_enc (v : Side) : Dec.side (Enc.side v) = v := by cases v <;> rfl

theorem cfg_enc (v : Cfg) : Dec.cfg (Enc.cfg v) = v := by cases v <;> rfl

theorem bit_enc (b : Bool) : (Enc.bit b == 1) = b := by cases b <;> rfl

theorem cfg_of {n : Nat} {g : Cfg} (h : n % 8 = Enc.cfg g) : Dec.cfg n = g := by
  unfold Dec.cfg
  rw [h]
  cases g <;> rfl

theorem bit_zero (b : Bool) : (Enc.bit b == 0) = !b := by cases b <;> rfl

theorem pred_zero (k : Pred → Except Reject Instr) : Dec.pred 0 k = k 0 := rfl

theorem three_enc (v : Fin 3) (k : Fin 3 → Except Reject Instr) : Dec.three v.val k = k v := by
  match v with
  | 0 => rfl
  | 1 => rfl
  | 2 => rfl

theorem six_enc (v : Fin 6) (k : Fin 6 → Except Reject Instr) : Dec.six v.val k = k v := by
  match v with
  | 0 => rfl
  | 1 => rfl
  | 2 => rfl
  | 3 => rfl
  | 4 => rfl
  | 5 => rfl

theorem seven_enc (v : Fin 7) (k : Fin 7 → Except Reject Instr) : Dec.seven v.val k = k v := by
  match v with
  | 0 => rfl
  | 1 => rfl
  | 2 => rfl
  | 3 => rfl
  | 4 => rfl
  | 5 => rfl
  | 6 => rfl

theorem pred_enc (v : Pred) (k : Pred → Except Reject Instr) : Dec.pred v.val k = k v := dif_pos v.isLt

theorem sizeWd_enc (v : MemSize) (h : v.wide = true) (k : MemSize → Except Reject Instr) :
    Dec.sizeWd (Enc.size v) k = k v := by
  cases v with
  | b => cases h
  | h => cases h
  | w => rfl
  | d => rfl

theorem dir_enc (t : Dir) (m n : ZReg) (h : t.fits m n = true) (k : Dir → Except Reject Instr) :
    Dec.dir (Enc.dir t) m.val n.val k = k t := by
  cases t with
  | a => simp only [Dir.fits, beq_iff_eq] at h; subst h; rfl
  | b => simp only [Dir.fits, beq_iff_eq] at h; subst h; rfl
  | ab => rfl

theorem zero_nil (r : Except Reject Instr) : Dec.zero 0 r = r := rfl

theorem need_true (e : Reject) (r : Except Reject Instr) : Dec.need true e r = r := rfl

/-! ### The fields of a TRI word -/

theorem tri_lt (c d a b f : Nat) (hc : c < 32) (hd : d < 32) (ha : a < 32) (hb : b < 32) (hf : f < 4096) :
    c * 134217728 + d * 4194304 + a * 131072 + b * 4096 + f < 4294967296 := by omega

/-- What the fields of a TRI word hold. -/
structure TriFacts (m c d a b f : Nat) : Prop where
  cls : m / 134217728 = c
  fd : Dec.fld m 22 5 = d
  fa : Dec.fld m 17 5 = a
  fb : Dec.fld m 12 5 = b
  lo : m % 4096 = f

theorem tri_facts (c d a b f : Nat) (hd : d < 32) (ha : a < 32) (hb : b < 32) (hf : f < 4096) (m : Nat)
    (h : c * 134217728 + d * 4194304 + a * 131072 + b * 4096 + f = m) : TriFacts m c d a b f := by
  refine ⟨by omega, ?_, ?_, ?_, by omega⟩ <;> simp only [Dec.fld] <;> omega

theorem TriFacts.ne {m c d a b f : Nat} (h : TriFacts m c d a b f) (hf : f ≠ 0) : m ≠ 0 := by
  intro e
  have := h.lo
  rw [e] at this
  omega

theorem TriFacts.ne_of_cls {m c d a b f : Nat} (h : TriFacts m c d a b f) (hc : c ≠ 0) : m ≠ 0 := by
  intro e
  have := h.cls
  rw [e] at this
  omega

theorem low_mod {m f : Nat} (h : m % 4096 = f) (k : Nat) (hk : k ∣ 4096) : m % k = f % k := by
  rw [← h, Nat.mod_mod_of_dvd m hk]

theorem low_fld {m f : Nat} (h : m % 4096 = f) (l k : Nat) (hk : l + k ≤ 12) : Dec.fld m l k = Dec.fld f l k := by
  have e : (2 : Nat) ^ l * 2 ^ k ∣ 4096 := by
    rw [← Nat.pow_add]
    exact Nat.pow_dvd_pow_iff_le_right'.mpr hk
  simp only [Dec.fld]
  rw [← Nat.mod_mul_right_div_self, ← Nat.mod_mul_right_div_self f, low_mod h _ e]

/-- What the fields of an IMM word hold. -/
structure ImmFacts (m c d a r : Nat) : Prop where
  cls : m / 134217728 = c
  fd : Dec.fld m 22 5 = d
  fa : Dec.fld m 17 5 = a
  lo : m % 131072 = r

theorem imm_facts (c d a r : Nat) (hd : d < 32) (ha : a < 32) (hr : r < 131072) (m : Nat)
    (h : c * 134217728 + d * 4194304 + a * 131072 + r = m) : ImmFacts m c d a r := by
  refine ⟨by omega, ?_, ?_, by omega⟩ <;> simp only [Dec.fld] <;> omega

theorem ImmFacts.ne_of_cls {m c d a r : Nat} (h : ImmFacts m c d a r) (hc : c ≠ 0) : m ≠ 0 := by
  intro e
  have := h.cls
  rw [e] at this
  omega

theorem low_mod17 {m f : Nat} (h : m % 131072 = f) (k : Nat) (hk : k ∣ 131072) : m % k = f % k := by
  rw [← h, Nat.mod_mod_of_dvd m hk]

theorem low_fld17 {m f : Nat} (h : m % 131072 = f) (l k : Nat) (hk : l + k ≤ 17) : Dec.fld m l k = Dec.fld f l k := by
  have e : (2 : Nat) ^ l * 2 ^ k ∣ 131072 := by
    rw [← Nat.pow_add]
    exact Nat.pow_dvd_pow_iff_le_right'.mpr hk
  simp only [Dec.fld]
  rw [← Nat.mod_mul_right_div_self, ← Nat.mod_mul_right_div_self f, low_mod17 h _ e]

/-! ### Classes -/

theorem toNat_word {n : Nat} (hn : n < 4294967296) : (BitVec.ofNat 32 n).toNat = n := by
  rw [BitVec.toNat_ofNat]
  omega

theorem decode_alu (n : Nat) (hn : n < 4294967296) (h0 : n ≠ 0) (hc : n / 134217728 = 0) :
    decode (BitVec.ofNat 32 n) = Dec.alu n := by
  unfold decode
  rw [toNat_word hn]
  simp only [h0, if_false, hc]

theorem decode_1 (n : Nat) (hn : n < 4294967296) (h0 : n ≠ 0) (hc : n / 134217728 = 1) :
    decode (BitVec.ofNat 32 n) = .ok (.addi (Dec.rd n) (Dec.ra n) (BitVec.ofNat 17 n)) := by
  unfold decode
  rw [toNat_word hn]
  simp only [h0, if_false, hc]

theorem decode_2 (n : Nat) (hn : n < 4294967296) (h0 : n ≠ 0) (hc : n / 134217728 = 2) :
    decode (BitVec.ofNat 32 n) = .ok (.andi (Dec.rd n) (Dec.ra n) (BitVec.ofNat 17 n)) := by
  unfold decode
  rw [toNat_word hn]
  simp only [h0, if_false, hc]

theorem decode_3 (n : Nat) (hn : n < 4294967296) (h0 : n ≠ 0) (hc : n / 134217728 = 3) :
    decode (BitVec.ofNat 32 n) = .ok (.ori (Dec.rd n) (Dec.ra n) (BitVec.ofNat 17 n)) := by
  unfold decode
  rw [toNat_word hn]
  simp only [h0, if_false, hc]

theorem decode_4 (n : Nat) (hn : n < 4294967296) (h0 : n ≠ 0) (hc : n / 134217728 = 4) :
    decode (BitVec.ofNat 32 n) = .ok (.xori (Dec.rd n) (Dec.ra n) (BitVec.ofNat 17 n)) := by
  unfold decode
  rw [toNat_word hn]
  simp only [h0, if_false, hc]

theorem decode_shifti (n : Nat) (hn : n < 4294967296) (h0 : n ≠ 0) (hc : n / 134217728 = 5) :
    decode (BitVec.ofNat 32 n) = Dec.shifti n := by
  unfold decode
  rw [toNat_word hn]
  simp only [h0, if_false, hc]

theorem decode_6 (n : Nat) (hn : n < 4294967296) (h0 : n ≠ 0) (hc : n / 134217728 = 6) :
    decode (BitVec.ofNat 32 n) = .ok (.slti (Dec.rd n) (Dec.ra n) (BitVec.ofNat 17 n)) := by
  unfold decode
  rw [toNat_word hn]
  simp only [h0, if_false, hc]

theorem decode_7 (n : Nat) (hn : n < 4294967296) (h0 : n ≠ 0) (hc : n / 134217728 = 7) :
    decode (BitVec.ofNat 32 n) = .ok (.lui (Dec.rd n) (BitVec.ofNat 22 n)) := by
  unfold decode
  rw [toNat_word hn]
  simp only [h0, if_false, hc]

theorem decode_8 (n : Nat) (hn : n < 4294967296) (h0 : n ≠ 0) (hc : n / 134217728 = 8) :
    decode (BitVec.ofNat 32 n) = .ok (.luih (Dec.rd n) (BitVec.ofNat 22 n)) := by
  unfold decode
  rw [toNat_word hn]
  simp only [h0, if_false, hc]

theorem decode_9 (n : Nat) (hn : n < 4294967296) (h0 : n ≠ 0) (hc : n / 134217728 = 9) :
    decode (BitVec.ofNat 32 n) = .ok (.addpc (Dec.rd n) (BitVec.ofNat 22 n)) := by
  unfold decode
  rw [toNat_word hn]
  simp only [h0, if_false, hc]

theorem decode_10 (n : Nat) (hn : n < 4294967296) (h0 : n ≠ 0) (hc : n / 134217728 = 10) :
    decode (BitVec.ofNat 32 n) = Dec.zero (Dec.fld n 10 2) (.ok (.lea (Dec.rd n) (Dec.ra n) (Dec.rb n) (Fin.ofNat 8 (n / 128)) (BitVec.ofNat 7 n))) := by
  unfold decode
  rw [toNat_word hn]
  simp only [h0, if_false, hc]

theorem decode_11 (n : Nat) (hn : n < 4294967296) (h0 : n ≠ 0) (hc : n / 134217728 = 11) :
    decode (BitVec.ofNat 32 n) = Dec.zero (Dec.fld n 13 4) (if Dec.fld n 12 1 = 0 then .ok (.bfxu (Dec.rd n) (Dec.ra n) (Fin.ofNat 64 (n / 64)) (Fin.ofNat 64 n)) else .ok (.bfx (Dec.rd n) (Dec.ra n) (Fin.ofNat 64 (n / 64)) (Fin.ofNat 64 n))) := by
  unfold decode
  rw [toNat_word hn]
  simp only [h0, if_false, hc]

theorem decode_12 (n : Nat) (hn : n < 4294967296) (h0 : n ≠ 0) (hc : n / 134217728 = 12) :
    decode (BitVec.ofNat 32 n) = Dec.zero (Dec.fld n 12 5) (.ok (.bfi (Dec.rd n) (Dec.ra n) (Fin.ofNat 64 (n / 64)) (Fin.ofNat 64 n))) := by
  unfold decode
  rw [toNat_word hn]
  simp only [h0, if_false, hc]

theorem decode_bitsCls (n : Nat) (hn : n < 4294967296) (h0 : n ≠ 0) (hc : n / 134217728 = 13) :
    decode (BitVec.ofNat 32 n) = Dec.bitsCls n := by
  unfold decode
  rw [toNat_word hn]
  simp only [h0, if_false, hc]

theorem decode_predCls (n : Nat) (hn : n < 4294967296) (h0 : n ≠ 0) (hc : n / 134217728 = 14) :
    decode (BitVec.ofNat 32 n) = Dec.predCls n := by
  unfold decode
  rw [toNat_word hn]
  simp only [h0, if_false, hc]

theorem decode_plog (n : Nat) (hn : n < 4294967296) (h0 : n ≠ 0) (hc : n / 134217728 = 15) :
    decode (BitVec.ofNat 32 n) = Dec.plog n := by
  unfold decode
  rw [toNat_word hn]
  simp only [h0, if_false, hc]

theorem decode_branch (n : Nat) (hn : n < 4294967296) (h0 : n ≠ 0) (hc : n / 134217728 = 16) :
    decode (BitVec.ofNat 32 n) = Dec.branch n := by
  unfold decode
  rw [toNat_word hn]
  simp only [h0, if_false, hc]

theorem decode_jumpr (n : Nat) (hn : n < 4294967296) (h0 : n ≠ 0) (hc : n / 134217728 = 17) :
    decode (BitVec.ofNat 32 n) = Dec.jumpr n := by
  unfold decode
  rw [toNat_word hn]
  simp only [h0, if_false, hc]

theorem decode_fpu (n : Nat) (hn : n < 4294967296) (h0 : n ≠ 0) (hc : n / 134217728 = 18) :
    decode (BitVec.ofNat 32 n) = Dec.fpu n := by
  unfold decode
  rw [toNat_word hn]
  simp only [h0, if_false, hc]

theorem decode_fma (n : Nat) (hn : n < 4294967296) (h0 : n ≠ 0) (hc : n / 134217728 = 19) :
    decode (BitVec.ofNat 32 n) = Dec.fma n := by
  unfold decode
  rw [toNat_word hn]
  simp only [h0, if_false, hc]

theorem decode_load (n : Nat) (hn : n < 4294967296) (h0 : n ≠ 0) (hc : n / 134217728 = 20) :
    decode (BitVec.ofNat 32 n) = Dec.load n := by
  unfold decode
  rw [toNat_word hn]
  simp only [h0, if_false, hc]

theorem decode_store (n : Nat) (hn : n < 4294967296) (h0 : n ≠ 0) (hc : n / 134217728 = 21) :
    decode (BitVec.ofNat 32 n) = Dec.store n := by
  unfold decode
  rw [toNat_word hn]
  simp only [h0, if_false, hc]

theorem decode_memsync (n : Nat) (hn : n < 4294967296) (h0 : n ≠ 0) (hc : n / 134217728 = 22) :
    decode (BitVec.ofNat 32 n) = Dec.memsync n := by
  unfold decode
  rw [toNat_word hn]
  simp only [h0, if_false, hc]

theorem decode_stream (n : Nat) (hn : n < 4294967296) (h0 : n ≠ 0) (hc : n / 134217728 = 23) :
    decode (BitVec.ofNat 32 n) = Dec.stream n := by
  unfold decode
  rw [toNat_word hn]
  simp only [h0, if_false, hc]

theorem decode_gallery (n : Nat) (hn : n < 4294967296) (h0 : n ≠ 0) (hc : n / 134217728 = 24) :
    decode (BitVec.ofNat 32 n) = Dec.gallery n := by
  unfold decode
  rw [toNat_word hn]
  simp only [h0, if_false, hc]

theorem decode_bank (n : Nat) (hn : n < 4294967296) (h0 : n ≠ 0) (hc : n / 134217728 = 25) :
    decode (BitVec.ofNat 32 n) = Dec.bank n := by
  unfold decode
  rw [toNat_word hn]
  simp only [h0, if_false, hc]

theorem decode_message (n : Nat) (hn : n < 4294967296) (h0 : n ≠ 0) (hc : n / 134217728 = 26) :
    decode (BitVec.ofNat 32 n) = Dec.message n := by
  unfold decode
  rw [toNat_word hn]
  simp only [h0, if_false, hc]

theorem decode_control (n : Nat) (hn : n < 4294967296) (h0 : n ≠ 0) (hc : n / 134217728 = 27) :
    decode (BitVec.ofNat 32 n) = Dec.control n := by
  unfold decode
  rw [toNat_word hn]
  simp only [h0, if_false, hc]

theorem decode_waveCls (n : Nat) (hn : n < 4294967296) (h0 : n ≠ 0) (hc : n / 134217728 = 28) :
    decode (BitVec.ofNat 32 n) = Dec.waveCls n := by
  unfold decode
  rw [toNat_word hn]
  simp only [h0, if_false, hc]

theorem decode_gather (n : Nat) (hn : n < 4294967296) (h0 : n ≠ 0) (hc : n / 134217728 = 29) :
    decode (BitVec.ofNat 32 n) = Dec.gather n := by
  unfold decode
  rw [toNat_word hn]
  simp only [h0, if_false, hc]

theorem decode_system (n : Nat) (hn : n < 4294967296) (h0 : n ≠ 0) (hc : n / 134217728 = 30) :
    decode (BitVec.ofNat 32 n) = Dec.system n := by
  unfold decode
  rw [toNat_word hn]
  simp only [h0, if_false, hc]

/-! ### Words and events -/

theorem add (d : Reg) (a : Reg) (b : Reg) : Statement (.add d a b) := by
  have h_d := d.isLt
  have h_a := a.isLt
  have h_b := b.isLt
  refine of_bits (0 * 134217728 + d.val * 4194304 + a.val * 131072 + b.val * 4096 + 1) rfl (tri_lt _ _ _ _ _ (by decide) d.isLt a.isLt b.isLt (by decide)) fun m_ hn hw => ?_
  have T := tri_facts 0 d.val a.val b.val 1 d.isLt a.isLt b.isLt (by decide) m_ hn
  have hz : m_ ≠ 0 := T.ne (by omega)
  have hc := T.cls
  have e0 : Dec.fld m_ 6 6 = 0 := (low_fld T.lo 6 6 (by decide)).trans rfl
  have e1 : Dec.ra m_ = a := Fin.ext T.fa
  have e2 : Dec.rd m_ = d := Fin.ext T.fd
  have e3 : Dec.rb m_ = b := Fin.ext T.fb
  have es : m_ % 64 = 1 := (low_mod T.lo 64 (by decide)).trans rfl
  clear hn
  rw [decode_alu m_ hw hz hc]
  unfold Dec.alu
  rw [es]
  show (Dec.zero (Dec.fld m_ 6 6) ((Except.ok : Instr → Except Reject Instr) (.add (Dec.rd m_) (Dec.ra m_) (Dec.rb m_)))) = _
  simp only [e0, e1, e2, e3, zero_nil]

theorem sub (d : Reg) (a : Reg) (b : Reg) : Statement (.sub d a b) := by
  have h_d := d.isLt
  have h_a := a.isLt
  have h_b := b.isLt
  refine of_bits (0 * 134217728 + d.val * 4194304 + a.val * 131072 + b.val * 4096 + 2) rfl (tri_lt _ _ _ _ _ (by decide) d.isLt a.isLt b.isLt (by decide)) fun m_ hn hw => ?_
  have T := tri_facts 0 d.val a.val b.val 2 d.isLt a.isLt b.isLt (by decide) m_ hn
  have hz : m_ ≠ 0 := T.ne (by omega)
  have hc := T.cls
  have e0 : Dec.fld m_ 6 6 = 0 := (low_fld T.lo 6 6 (by decide)).trans rfl
  have e1 : Dec.ra m_ = a := Fin.ext T.fa
  have e2 : Dec.rd m_ = d := Fin.ext T.fd
  have e3 : Dec.rb m_ = b := Fin.ext T.fb
  have es : m_ % 64 = 2 := (low_mod T.lo 64 (by decide)).trans rfl
  clear hn
  rw [decode_alu m_ hw hz hc]
  unfold Dec.alu
  rw [es]
  show (Dec.zero (Dec.fld m_ 6 6) ((Except.ok : Instr → Except Reject Instr) (.sub (Dec.rd m_) (Dec.ra m_) (Dec.rb m_)))) = _
  simp only [e0, e1, e2, e3, zero_nil]

theorem and (d : Reg) (a : Reg) (b : Reg) : Statement (.and d a b) := by
  have h_d := d.isLt
  have h_a := a.isLt
  have h_b := b.isLt
  refine of_bits (0 * 134217728 + d.val * 4194304 + a.val * 131072 + b.val * 4096 + 3) rfl (tri_lt _ _ _ _ _ (by decide) d.isLt a.isLt b.isLt (by decide)) fun m_ hn hw => ?_
  have T := tri_facts 0 d.val a.val b.val 3 d.isLt a.isLt b.isLt (by decide) m_ hn
  have hz : m_ ≠ 0 := T.ne (by omega)
  have hc := T.cls
  have e0 : Dec.fld m_ 6 6 = 0 := (low_fld T.lo 6 6 (by decide)).trans rfl
  have e1 : Dec.ra m_ = a := Fin.ext T.fa
  have e2 : Dec.rd m_ = d := Fin.ext T.fd
  have e3 : Dec.rb m_ = b := Fin.ext T.fb
  have es : m_ % 64 = 3 := (low_mod T.lo 64 (by decide)).trans rfl
  clear hn
  rw [decode_alu m_ hw hz hc]
  unfold Dec.alu
  rw [es]
  show (Dec.zero (Dec.fld m_ 6 6) ((Except.ok : Instr → Except Reject Instr) (.and (Dec.rd m_) (Dec.ra m_) (Dec.rb m_)))) = _
  simp only [e0, e1, e2, e3, zero_nil]

theorem or (d : Reg) (a : Reg) (b : Reg) : Statement (.or d a b) := by
  have h_d := d.isLt
  have h_a := a.isLt
  have h_b := b.isLt
  refine of_bits (0 * 134217728 + d.val * 4194304 + a.val * 131072 + b.val * 4096 + 4) rfl (tri_lt _ _ _ _ _ (by decide) d.isLt a.isLt b.isLt (by decide)) fun m_ hn hw => ?_
  have T := tri_facts 0 d.val a.val b.val 4 d.isLt a.isLt b.isLt (by decide) m_ hn
  have hz : m_ ≠ 0 := T.ne (by omega)
  have hc := T.cls
  have e0 : Dec.fld m_ 6 6 = 0 := (low_fld T.lo 6 6 (by decide)).trans rfl
  have e1 : Dec.ra m_ = a := Fin.ext T.fa
  have e2 : Dec.rd m_ = d := Fin.ext T.fd
  have e3 : Dec.rb m_ = b := Fin.ext T.fb
  have es : m_ % 64 = 4 := (low_mod T.lo 64 (by decide)).trans rfl
  clear hn
  rw [decode_alu m_ hw hz hc]
  unfold Dec.alu
  rw [es]
  show (Dec.zero (Dec.fld m_ 6 6) ((Except.ok : Instr → Except Reject Instr) (.or (Dec.rd m_) (Dec.ra m_) (Dec.rb m_)))) = _
  simp only [e0, e1, e2, e3, zero_nil]

theorem xor (d : Reg) (a : Reg) (b : Reg) : Statement (.xor d a b) := by
  have h_d := d.isLt
  have h_a := a.isLt
  have h_b := b.isLt
  refine of_bits (0 * 134217728 + d.val * 4194304 + a.val * 131072 + b.val * 4096 + 5) rfl (tri_lt _ _ _ _ _ (by decide) d.isLt a.isLt b.isLt (by decide)) fun m_ hn hw => ?_
  have T := tri_facts 0 d.val a.val b.val 5 d.isLt a.isLt b.isLt (by decide) m_ hn
  have hz : m_ ≠ 0 := T.ne (by omega)
  have hc := T.cls
  have e0 : Dec.fld m_ 6 6 = 0 := (low_fld T.lo 6 6 (by decide)).trans rfl
  have e1 : Dec.ra m_ = a := Fin.ext T.fa
  have e2 : Dec.rd m_ = d := Fin.ext T.fd
  have e3 : Dec.rb m_ = b := Fin.ext T.fb
  have es : m_ % 64 = 5 := (low_mod T.lo 64 (by decide)).trans rfl
  clear hn
  rw [decode_alu m_ hw hz hc]
  unfold Dec.alu
  rw [es]
  show (Dec.zero (Dec.fld m_ 6 6) ((Except.ok : Instr → Except Reject Instr) (.xor (Dec.rd m_) (Dec.ra m_) (Dec.rb m_)))) = _
  simp only [e0, e1, e2, e3, zero_nil]

theorem andn (d : Reg) (a : Reg) (b : Reg) : Statement (.andn d a b) := by
  have h_d := d.isLt
  have h_a := a.isLt
  have h_b := b.isLt
  refine of_bits (0 * 134217728 + d.val * 4194304 + a.val * 131072 + b.val * 4096 + 6) rfl (tri_lt _ _ _ _ _ (by decide) d.isLt a.isLt b.isLt (by decide)) fun m_ hn hw => ?_
  have T := tri_facts 0 d.val a.val b.val 6 d.isLt a.isLt b.isLt (by decide) m_ hn
  have hz : m_ ≠ 0 := T.ne (by omega)
  have hc := T.cls
  have e0 : Dec.fld m_ 6 6 = 0 := (low_fld T.lo 6 6 (by decide)).trans rfl
  have e1 : Dec.ra m_ = a := Fin.ext T.fa
  have e2 : Dec.rd m_ = d := Fin.ext T.fd
  have e3 : Dec.rb m_ = b := Fin.ext T.fb
  have es : m_ % 64 = 6 := (low_mod T.lo 64 (by decide)).trans rfl
  clear hn
  rw [decode_alu m_ hw hz hc]
  unfold Dec.alu
  rw [es]
  show (Dec.zero (Dec.fld m_ 6 6) ((Except.ok : Instr → Except Reject Instr) (.andn (Dec.rd m_) (Dec.ra m_) (Dec.rb m_)))) = _
  simp only [e0, e1, e2, e3, zero_nil]

theorem orn (d : Reg) (a : Reg) (b : Reg) : Statement (.orn d a b) := by
  have h_d := d.isLt
  have h_a := a.isLt
  have h_b := b.isLt
  refine of_bits (0 * 134217728 + d.val * 4194304 + a.val * 131072 + b.val * 4096 + 7) rfl (tri_lt _ _ _ _ _ (by decide) d.isLt a.isLt b.isLt (by decide)) fun m_ hn hw => ?_
  have T := tri_facts 0 d.val a.val b.val 7 d.isLt a.isLt b.isLt (by decide) m_ hn
  have hz : m_ ≠ 0 := T.ne (by omega)
  have hc := T.cls
  have e0 : Dec.fld m_ 6 6 = 0 := (low_fld T.lo 6 6 (by decide)).trans rfl
  have e1 : Dec.ra m_ = a := Fin.ext T.fa
  have e2 : Dec.rd m_ = d := Fin.ext T.fd
  have e3 : Dec.rb m_ = b := Fin.ext T.fb
  have es : m_ % 64 = 7 := (low_mod T.lo 64 (by decide)).trans rfl
  clear hn
  rw [decode_alu m_ hw hz hc]
  unfold Dec.alu
  rw [es]
  show (Dec.zero (Dec.fld m_ 6 6) ((Except.ok : Instr → Except Reject Instr) (.orn (Dec.rd m_) (Dec.ra m_) (Dec.rb m_)))) = _
  simp only [e0, e1, e2, e3, zero_nil]

theorem xnor (d : Reg) (a : Reg) (b : Reg) : Statement (.xnor d a b) := by
  have h_d := d.isLt
  have h_a := a.isLt
  have h_b := b.isLt
  refine of_bits (0 * 134217728 + d.val * 4194304 + a.val * 131072 + b.val * 4096 + 8) rfl (tri_lt _ _ _ _ _ (by decide) d.isLt a.isLt b.isLt (by decide)) fun m_ hn hw => ?_
  have T := tri_facts 0 d.val a.val b.val 8 d.isLt a.isLt b.isLt (by decide) m_ hn
  have hz : m_ ≠ 0 := T.ne (by omega)
  have hc := T.cls
  have e0 : Dec.fld m_ 6 6 = 0 := (low_fld T.lo 6 6 (by decide)).trans rfl
  have e1 : Dec.ra m_ = a := Fin.ext T.fa
  have e2 : Dec.rd m_ = d := Fin.ext T.fd
  have e3 : Dec.rb m_ = b := Fin.ext T.fb
  have es : m_ % 64 = 8 := (low_mod T.lo 64 (by decide)).trans rfl
  clear hn
  rw [decode_alu m_ hw hz hc]
  unfold Dec.alu
  rw [es]
  show (Dec.zero (Dec.fld m_ 6 6) ((Except.ok : Instr → Except Reject Instr) (.xnor (Dec.rd m_) (Dec.ra m_) (Dec.rb m_)))) = _
  simp only [e0, e1, e2, e3, zero_nil]

theorem shl (d : Reg) (a : Reg) (b : Reg) : Statement (.shl d a b) := by
  have h_d := d.isLt
  have h_a := a.isLt
  have h_b := b.isLt
  refine of_bits (0 * 134217728 + d.val * 4194304 + a.val * 131072 + b.val * 4096 + 9) rfl (tri_lt _ _ _ _ _ (by decide) d.isLt a.isLt b.isLt (by decide)) fun m_ hn hw => ?_
  have T := tri_facts 0 d.val a.val b.val 9 d.isLt a.isLt b.isLt (by decide) m_ hn
  have hz : m_ ≠ 0 := T.ne (by omega)
  have hc := T.cls
  have e0 : Dec.fld m_ 6 6 = 0 := (low_fld T.lo 6 6 (by decide)).trans rfl
  have e1 : Dec.ra m_ = a := Fin.ext T.fa
  have e2 : Dec.rd m_ = d := Fin.ext T.fd
  have e3 : Dec.rb m_ = b := Fin.ext T.fb
  have es : m_ % 64 = 9 := (low_mod T.lo 64 (by decide)).trans rfl
  clear hn
  rw [decode_alu m_ hw hz hc]
  unfold Dec.alu
  rw [es]
  show (Dec.zero (Dec.fld m_ 6 6) ((Except.ok : Instr → Except Reject Instr) (.shl (Dec.rd m_) (Dec.ra m_) (Dec.rb m_)))) = _
  simp only [e0, e1, e2, e3, zero_nil]

theorem shr (d : Reg) (a : Reg) (b : Reg) : Statement (.shr d a b) := by
  have h_d := d.isLt
  have h_a := a.isLt
  have h_b := b.isLt
  refine of_bits (0 * 134217728 + d.val * 4194304 + a.val * 131072 + b.val * 4096 + 10) rfl (tri_lt _ _ _ _ _ (by decide) d.isLt a.isLt b.isLt (by decide)) fun m_ hn hw => ?_
  have T := tri_facts 0 d.val a.val b.val 10 d.isLt a.isLt b.isLt (by decide) m_ hn
  have hz : m_ ≠ 0 := T.ne (by omega)
  have hc := T.cls
  have e0 : Dec.fld m_ 6 6 = 0 := (low_fld T.lo 6 6 (by decide)).trans rfl
  have e1 : Dec.ra m_ = a := Fin.ext T.fa
  have e2 : Dec.rd m_ = d := Fin.ext T.fd
  have e3 : Dec.rb m_ = b := Fin.ext T.fb
  have es : m_ % 64 = 10 := (low_mod T.lo 64 (by decide)).trans rfl
  clear hn
  rw [decode_alu m_ hw hz hc]
  unfold Dec.alu
  rw [es]
  show (Dec.zero (Dec.fld m_ 6 6) ((Except.ok : Instr → Except Reject Instr) (.shr (Dec.rd m_) (Dec.ra m_) (Dec.rb m_)))) = _
  simp only [e0, e1, e2, e3, zero_nil]

theorem sar (d : Reg) (a : Reg) (b : Reg) : Statement (.sar d a b) := by
  have h_d := d.isLt
  have h_a := a.isLt
  have h_b := b.isLt
  refine of_bits (0 * 134217728 + d.val * 4194304 + a.val * 131072 + b.val * 4096 + 11) rfl (tri_lt _ _ _ _ _ (by decide) d.isLt a.isLt b.isLt (by decide)) fun m_ hn hw => ?_
  have T := tri_facts 0 d.val a.val b.val 11 d.isLt a.isLt b.isLt (by decide) m_ hn
  have hz : m_ ≠ 0 := T.ne (by omega)
  have hc := T.cls
  have e0 : Dec.fld m_ 6 6 = 0 := (low_fld T.lo 6 6 (by decide)).trans rfl
  have e1 : Dec.ra m_ = a := Fin.ext T.fa
  have e2 : Dec.rd m_ = d := Fin.ext T.fd
  have e3 : Dec.rb m_ = b := Fin.ext T.fb
  have es : m_ % 64 = 11 := (low_mod T.lo 64 (by decide)).trans rfl
  clear hn
  rw [decode_alu m_ hw hz hc]
  unfold Dec.alu
  rw [es]
  show (Dec.zero (Dec.fld m_ 6 6) ((Except.ok : Instr → Except Reject Instr) (.sar (Dec.rd m_) (Dec.ra m_) (Dec.rb m_)))) = _
  simp only [e0, e1, e2, e3, zero_nil]

theorem rol (d : Reg) (a : Reg) (b : Reg) : Statement (.rol d a b) := by
  have h_d := d.isLt
  have h_a := a.isLt
  have h_b := b.isLt
  refine of_bits (0 * 134217728 + d.val * 4194304 + a.val * 131072 + b.val * 4096 + 12) rfl (tri_lt _ _ _ _ _ (by decide) d.isLt a.isLt b.isLt (by decide)) fun m_ hn hw => ?_
  have T := tri_facts 0 d.val a.val b.val 12 d.isLt a.isLt b.isLt (by decide) m_ hn
  have hz : m_ ≠ 0 := T.ne (by omega)
  have hc := T.cls
  have e0 : Dec.fld m_ 6 6 = 0 := (low_fld T.lo 6 6 (by decide)).trans rfl
  have e1 : Dec.ra m_ = a := Fin.ext T.fa
  have e2 : Dec.rd m_ = d := Fin.ext T.fd
  have e3 : Dec.rb m_ = b := Fin.ext T.fb
  have es : m_ % 64 = 12 := (low_mod T.lo 64 (by decide)).trans rfl
  clear hn
  rw [decode_alu m_ hw hz hc]
  unfold Dec.alu
  rw [es]
  show (Dec.zero (Dec.fld m_ 6 6) ((Except.ok : Instr → Except Reject Instr) (.rol (Dec.rd m_) (Dec.ra m_) (Dec.rb m_)))) = _
  simp only [e0, e1, e2, e3, zero_nil]

theorem ror (d : Reg) (a : Reg) (b : Reg) : Statement (.ror d a b) := by
  have h_d := d.isLt
  have h_a := a.isLt
  have h_b := b.isLt
  refine of_bits (0 * 134217728 + d.val * 4194304 + a.val * 131072 + b.val * 4096 + 13) rfl (tri_lt _ _ _ _ _ (by decide) d.isLt a.isLt b.isLt (by decide)) fun m_ hn hw => ?_
  have T := tri_facts 0 d.val a.val b.val 13 d.isLt a.isLt b.isLt (by decide) m_ hn
  have hz : m_ ≠ 0 := T.ne (by omega)
  have hc := T.cls
  have e0 : Dec.fld m_ 6 6 = 0 := (low_fld T.lo 6 6 (by decide)).trans rfl
  have e1 : Dec.ra m_ = a := Fin.ext T.fa
  have e2 : Dec.rd m_ = d := Fin.ext T.fd
  have e3 : Dec.rb m_ = b := Fin.ext T.fb
  have es : m_ % 64 = 13 := (low_mod T.lo 64 (by decide)).trans rfl
  clear hn
  rw [decode_alu m_ hw hz hc]
  unfold Dec.alu
  rw [es]
  show (Dec.zero (Dec.fld m_ 6 6) ((Except.ok : Instr → Except Reject Instr) (.ror (Dec.rd m_) (Dec.ra m_) (Dec.rb m_)))) = _
  simp only [e0, e1, e2, e3, zero_nil]

theorem mul (d : Reg) (a : Reg) (b : Reg) : Statement (.mul d a b) := by
  have h_d := d.isLt
  have h_a := a.isLt
  have h_b := b.isLt
  refine of_bits (0 * 134217728 + d.val * 4194304 + a.val * 131072 + b.val * 4096 + 14) rfl (tri_lt _ _ _ _ _ (by decide) d.isLt a.isLt b.isLt (by decide)) fun m_ hn hw => ?_
  have T := tri_facts 0 d.val a.val b.val 14 d.isLt a.isLt b.isLt (by decide) m_ hn
  have hz : m_ ≠ 0 := T.ne (by omega)
  have hc := T.cls
  have e0 : Dec.fld m_ 6 6 = 0 := (low_fld T.lo 6 6 (by decide)).trans rfl
  have e1 : Dec.ra m_ = a := Fin.ext T.fa
  have e2 : Dec.rd m_ = d := Fin.ext T.fd
  have e3 : Dec.rb m_ = b := Fin.ext T.fb
  have es : m_ % 64 = 14 := (low_mod T.lo 64 (by decide)).trans rfl
  clear hn
  rw [decode_alu m_ hw hz hc]
  unfold Dec.alu
  rw [es]
  show (Dec.zero (Dec.fld m_ 6 6) ((Except.ok : Instr → Except Reject Instr) (.mul (Dec.rd m_) (Dec.ra m_) (Dec.rb m_)))) = _
  simp only [e0, e1, e2, e3, zero_nil]

theorem mulh (d : Reg) (a : Reg) (b : Reg) : Statement (.mulh d a b) := by
  have h_d := d.isLt
  have h_a := a.isLt
  have h_b := b.isLt
  refine of_bits (0 * 134217728 + d.val * 4194304 + a.val * 131072 + b.val * 4096 + 15) rfl (tri_lt _ _ _ _ _ (by decide) d.isLt a.isLt b.isLt (by decide)) fun m_ hn hw => ?_
  have T := tri_facts 0 d.val a.val b.val 15 d.isLt a.isLt b.isLt (by decide) m_ hn
  have hz : m_ ≠ 0 := T.ne (by omega)
  have hc := T.cls
  have e0 : Dec.fld m_ 6 6 = 0 := (low_fld T.lo 6 6 (by decide)).trans rfl
  have e1 : Dec.ra m_ = a := Fin.ext T.fa
  have e2 : Dec.rd m_ = d := Fin.ext T.fd
  have e3 : Dec.rb m_ = b := Fin.ext T.fb
  have es : m_ % 64 = 15 := (low_mod T.lo 64 (by decide)).trans rfl
  clear hn
  rw [decode_alu m_ hw hz hc]
  unfold Dec.alu
  rw [es]
  show (Dec.zero (Dec.fld m_ 6 6) ((Except.ok : Instr → Except Reject Instr) (.mulh (Dec.rd m_) (Dec.ra m_) (Dec.rb m_)))) = _
  simp only [e0, e1, e2, e3, zero_nil]

theorem mulhu (d : Reg) (a : Reg) (b : Reg) : Statement (.mulhu d a b) := by
  have h_d := d.isLt
  have h_a := a.isLt
  have h_b := b.isLt
  refine of_bits (0 * 134217728 + d.val * 4194304 + a.val * 131072 + b.val * 4096 + 16) rfl (tri_lt _ _ _ _ _ (by decide) d.isLt a.isLt b.isLt (by decide)) fun m_ hn hw => ?_
  have T := tri_facts 0 d.val a.val b.val 16 d.isLt a.isLt b.isLt (by decide) m_ hn
  have hz : m_ ≠ 0 := T.ne (by omega)
  have hc := T.cls
  have e0 : Dec.fld m_ 6 6 = 0 := (low_fld T.lo 6 6 (by decide)).trans rfl
  have e1 : Dec.ra m_ = a := Fin.ext T.fa
  have e2 : Dec.rd m_ = d := Fin.ext T.fd
  have e3 : Dec.rb m_ = b := Fin.ext T.fb
  have es : m_ % 64 = 16 := (low_mod T.lo 64 (by decide)).trans rfl
  clear hn
  rw [decode_alu m_ hw hz hc]
  unfold Dec.alu
  rw [es]
  show (Dec.zero (Dec.fld m_ 6 6) ((Except.ok : Instr → Except Reject Instr) (.mulhu (Dec.rd m_) (Dec.ra m_) (Dec.rb m_)))) = _
  simp only [e0, e1, e2, e3, zero_nil]

theorem div (d : Reg) (a : Reg) (b : Reg) : Statement (.div d a b) := by
  have h_d := d.isLt
  have h_a := a.isLt
  have h_b := b.isLt
  refine of_bits (0 * 134217728 + d.val * 4194304 + a.val * 131072 + b.val * 4096 + 17) rfl (tri_lt _ _ _ _ _ (by decide) d.isLt a.isLt b.isLt (by decide)) fun m_ hn hw => ?_
  have T := tri_facts 0 d.val a.val b.val 17 d.isLt a.isLt b.isLt (by decide) m_ hn
  have hz : m_ ≠ 0 := T.ne (by omega)
  have hc := T.cls
  have e0 : Dec.fld m_ 6 6 = 0 := (low_fld T.lo 6 6 (by decide)).trans rfl
  have e1 : Dec.ra m_ = a := Fin.ext T.fa
  have e2 : Dec.rd m_ = d := Fin.ext T.fd
  have e3 : Dec.rb m_ = b := Fin.ext T.fb
  have es : m_ % 64 = 17 := (low_mod T.lo 64 (by decide)).trans rfl
  clear hn
  rw [decode_alu m_ hw hz hc]
  unfold Dec.alu
  rw [es]
  show (Dec.zero (Dec.fld m_ 6 6) ((Except.ok : Instr → Except Reject Instr) (.div (Dec.rd m_) (Dec.ra m_) (Dec.rb m_)))) = _
  simp only [e0, e1, e2, e3, zero_nil]

theorem divu (d : Reg) (a : Reg) (b : Reg) : Statement (.divu d a b) := by
  have h_d := d.isLt
  have h_a := a.isLt
  have h_b := b.isLt
  refine of_bits (0 * 134217728 + d.val * 4194304 + a.val * 131072 + b.val * 4096 + 18) rfl (tri_lt _ _ _ _ _ (by decide) d.isLt a.isLt b.isLt (by decide)) fun m_ hn hw => ?_
  have T := tri_facts 0 d.val a.val b.val 18 d.isLt a.isLt b.isLt (by decide) m_ hn
  have hz : m_ ≠ 0 := T.ne (by omega)
  have hc := T.cls
  have e0 : Dec.fld m_ 6 6 = 0 := (low_fld T.lo 6 6 (by decide)).trans rfl
  have e1 : Dec.ra m_ = a := Fin.ext T.fa
  have e2 : Dec.rd m_ = d := Fin.ext T.fd
  have e3 : Dec.rb m_ = b := Fin.ext T.fb
  have es : m_ % 64 = 18 := (low_mod T.lo 64 (by decide)).trans rfl
  clear hn
  rw [decode_alu m_ hw hz hc]
  unfold Dec.alu
  rw [es]
  show (Dec.zero (Dec.fld m_ 6 6) ((Except.ok : Instr → Except Reject Instr) (.divu (Dec.rd m_) (Dec.ra m_) (Dec.rb m_)))) = _
  simp only [e0, e1, e2, e3, zero_nil]

theorem rem (d : Reg) (a : Reg) (b : Reg) : Statement (.rem d a b) := by
  have h_d := d.isLt
  have h_a := a.isLt
  have h_b := b.isLt
  refine of_bits (0 * 134217728 + d.val * 4194304 + a.val * 131072 + b.val * 4096 + 19) rfl (tri_lt _ _ _ _ _ (by decide) d.isLt a.isLt b.isLt (by decide)) fun m_ hn hw => ?_
  have T := tri_facts 0 d.val a.val b.val 19 d.isLt a.isLt b.isLt (by decide) m_ hn
  have hz : m_ ≠ 0 := T.ne (by omega)
  have hc := T.cls
  have e0 : Dec.fld m_ 6 6 = 0 := (low_fld T.lo 6 6 (by decide)).trans rfl
  have e1 : Dec.ra m_ = a := Fin.ext T.fa
  have e2 : Dec.rd m_ = d := Fin.ext T.fd
  have e3 : Dec.rb m_ = b := Fin.ext T.fb
  have es : m_ % 64 = 19 := (low_mod T.lo 64 (by decide)).trans rfl
  clear hn
  rw [decode_alu m_ hw hz hc]
  unfold Dec.alu
  rw [es]
  show (Dec.zero (Dec.fld m_ 6 6) ((Except.ok : Instr → Except Reject Instr) (.rem (Dec.rd m_) (Dec.ra m_) (Dec.rb m_)))) = _
  simp only [e0, e1, e2, e3, zero_nil]

theorem remu (d : Reg) (a : Reg) (b : Reg) : Statement (.remu d a b) := by
  have h_d := d.isLt
  have h_a := a.isLt
  have h_b := b.isLt
  refine of_bits (0 * 134217728 + d.val * 4194304 + a.val * 131072 + b.val * 4096 + 20) rfl (tri_lt _ _ _ _ _ (by decide) d.isLt a.isLt b.isLt (by decide)) fun m_ hn hw => ?_
  have T := tri_facts 0 d.val a.val b.val 20 d.isLt a.isLt b.isLt (by decide) m_ hn
  have hz : m_ ≠ 0 := T.ne (by omega)
  have hc := T.cls
  have e0 : Dec.fld m_ 6 6 = 0 := (low_fld T.lo 6 6 (by decide)).trans rfl
  have e1 : Dec.ra m_ = a := Fin.ext T.fa
  have e2 : Dec.rd m_ = d := Fin.ext T.fd
  have e3 : Dec.rb m_ = b := Fin.ext T.fb
  have es : m_ % 64 = 20 := (low_mod T.lo 64 (by decide)).trans rfl
  clear hn
  rw [decode_alu m_ hw hz hc]
  unfold Dec.alu
  rw [es]
  show (Dec.zero (Dec.fld m_ 6 6) ((Except.ok : Instr → Except Reject Instr) (.remu (Dec.rd m_) (Dec.ra m_) (Dec.rb m_)))) = _
  simp only [e0, e1, e2, e3, zero_nil]

theorem min (d : Reg) (a : Reg) (b : Reg) : Statement (.min d a b) := by
  have h_d := d.isLt
  have h_a := a.isLt
  have h_b := b.isLt
  refine of_bits (0 * 134217728 + d.val * 4194304 + a.val * 131072 + b.val * 4096 + 21) rfl (tri_lt _ _ _ _ _ (by decide) d.isLt a.isLt b.isLt (by decide)) fun m_ hn hw => ?_
  have T := tri_facts 0 d.val a.val b.val 21 d.isLt a.isLt b.isLt (by decide) m_ hn
  have hz : m_ ≠ 0 := T.ne (by omega)
  have hc := T.cls
  have e0 : Dec.fld m_ 6 6 = 0 := (low_fld T.lo 6 6 (by decide)).trans rfl
  have e1 : Dec.ra m_ = a := Fin.ext T.fa
  have e2 : Dec.rd m_ = d := Fin.ext T.fd
  have e3 : Dec.rb m_ = b := Fin.ext T.fb
  have es : m_ % 64 = 21 := (low_mod T.lo 64 (by decide)).trans rfl
  clear hn
  rw [decode_alu m_ hw hz hc]
  unfold Dec.alu
  rw [es]
  show (Dec.zero (Dec.fld m_ 6 6) ((Except.ok : Instr → Except Reject Instr) (.min (Dec.rd m_) (Dec.ra m_) (Dec.rb m_)))) = _
  simp only [e0, e1, e2, e3, zero_nil]

theorem max (d : Reg) (a : Reg) (b : Reg) : Statement (.max d a b) := by
  have h_d := d.isLt
  have h_a := a.isLt
  have h_b := b.isLt
  refine of_bits (0 * 134217728 + d.val * 4194304 + a.val * 131072 + b.val * 4096 + 22) rfl (tri_lt _ _ _ _ _ (by decide) d.isLt a.isLt b.isLt (by decide)) fun m_ hn hw => ?_
  have T := tri_facts 0 d.val a.val b.val 22 d.isLt a.isLt b.isLt (by decide) m_ hn
  have hz : m_ ≠ 0 := T.ne (by omega)
  have hc := T.cls
  have e0 : Dec.fld m_ 6 6 = 0 := (low_fld T.lo 6 6 (by decide)).trans rfl
  have e1 : Dec.ra m_ = a := Fin.ext T.fa
  have e2 : Dec.rd m_ = d := Fin.ext T.fd
  have e3 : Dec.rb m_ = b := Fin.ext T.fb
  have es : m_ % 64 = 22 := (low_mod T.lo 64 (by decide)).trans rfl
  clear hn
  rw [decode_alu m_ hw hz hc]
  unfold Dec.alu
  rw [es]
  show (Dec.zero (Dec.fld m_ 6 6) ((Except.ok : Instr → Except Reject Instr) (.max (Dec.rd m_) (Dec.ra m_) (Dec.rb m_)))) = _
  simp only [e0, e1, e2, e3, zero_nil]

theorem minu (d : Reg) (a : Reg) (b : Reg) : Statement (.minu d a b) := by
  have h_d := d.isLt
  have h_a := a.isLt
  have h_b := b.isLt
  refine of_bits (0 * 134217728 + d.val * 4194304 + a.val * 131072 + b.val * 4096 + 23) rfl (tri_lt _ _ _ _ _ (by decide) d.isLt a.isLt b.isLt (by decide)) fun m_ hn hw => ?_
  have T := tri_facts 0 d.val a.val b.val 23 d.isLt a.isLt b.isLt (by decide) m_ hn
  have hz : m_ ≠ 0 := T.ne (by omega)
  have hc := T.cls
  have e0 : Dec.fld m_ 6 6 = 0 := (low_fld T.lo 6 6 (by decide)).trans rfl
  have e1 : Dec.ra m_ = a := Fin.ext T.fa
  have e2 : Dec.rd m_ = d := Fin.ext T.fd
  have e3 : Dec.rb m_ = b := Fin.ext T.fb
  have es : m_ % 64 = 23 := (low_mod T.lo 64 (by decide)).trans rfl
  clear hn
  rw [decode_alu m_ hw hz hc]
  unfold Dec.alu
  rw [es]
  show (Dec.zero (Dec.fld m_ 6 6) ((Except.ok : Instr → Except Reject Instr) (.minu (Dec.rd m_) (Dec.ra m_) (Dec.rb m_)))) = _
  simp only [e0, e1, e2, e3, zero_nil]

theorem maxu (d : Reg) (a : Reg) (b : Reg) : Statement (.maxu d a b) := by
  have h_d := d.isLt
  have h_a := a.isLt
  have h_b := b.isLt
  refine of_bits (0 * 134217728 + d.val * 4194304 + a.val * 131072 + b.val * 4096 + 24) rfl (tri_lt _ _ _ _ _ (by decide) d.isLt a.isLt b.isLt (by decide)) fun m_ hn hw => ?_
  have T := tri_facts 0 d.val a.val b.val 24 d.isLt a.isLt b.isLt (by decide) m_ hn
  have hz : m_ ≠ 0 := T.ne (by omega)
  have hc := T.cls
  have e0 : Dec.fld m_ 6 6 = 0 := (low_fld T.lo 6 6 (by decide)).trans rfl
  have e1 : Dec.ra m_ = a := Fin.ext T.fa
  have e2 : Dec.rd m_ = d := Fin.ext T.fd
  have e3 : Dec.rb m_ = b := Fin.ext T.fb
  have es : m_ % 64 = 24 := (low_mod T.lo 64 (by decide)).trans rfl
  clear hn
  rw [decode_alu m_ hw hz hc]
  unfold Dec.alu
  rw [es]
  show (Dec.zero (Dec.fld m_ 6 6) ((Except.ok : Instr → Except Reject Instr) (.maxu (Dec.rd m_) (Dec.ra m_) (Dec.rb m_)))) = _
  simp only [e0, e1, e2, e3, zero_nil]

theorem slt (d : Reg) (a : Reg) (b : Reg) : Statement (.slt d a b) := by
  have h_d := d.isLt
  have h_a := a.isLt
  have h_b := b.isLt
  refine of_bits (0 * 134217728 + d.val * 4194304 + a.val * 131072 + b.val * 4096 + 25) rfl (tri_lt _ _ _ _ _ (by decide) d.isLt a.isLt b.isLt (by decide)) fun m_ hn hw => ?_
  have T := tri_facts 0 d.val a.val b.val 25 d.isLt a.isLt b.isLt (by decide) m_ hn
  have hz : m_ ≠ 0 := T.ne (by omega)
  have hc := T.cls
  have e0 : Dec.fld m_ 6 6 = 0 := (low_fld T.lo 6 6 (by decide)).trans rfl
  have e1 : Dec.ra m_ = a := Fin.ext T.fa
  have e2 : Dec.rd m_ = d := Fin.ext T.fd
  have e3 : Dec.rb m_ = b := Fin.ext T.fb
  have es : m_ % 64 = 25 := (low_mod T.lo 64 (by decide)).trans rfl
  clear hn
  rw [decode_alu m_ hw hz hc]
  unfold Dec.alu
  rw [es]
  show (Dec.zero (Dec.fld m_ 6 6) ((Except.ok : Instr → Except Reject Instr) (.slt (Dec.rd m_) (Dec.ra m_) (Dec.rb m_)))) = _
  simp only [e0, e1, e2, e3, zero_nil]

theorem sltu (d : Reg) (a : Reg) (b : Reg) : Statement (.sltu d a b) := by
  have h_d := d.isLt
  have h_a := a.isLt
  have h_b := b.isLt
  refine of_bits (0 * 134217728 + d.val * 4194304 + a.val * 131072 + b.val * 4096 + 26) rfl (tri_lt _ _ _ _ _ (by decide) d.isLt a.isLt b.isLt (by decide)) fun m_ hn hw => ?_
  have T := tri_facts 0 d.val a.val b.val 26 d.isLt a.isLt b.isLt (by decide) m_ hn
  have hz : m_ ≠ 0 := T.ne (by omega)
  have hc := T.cls
  have e0 : Dec.fld m_ 6 6 = 0 := (low_fld T.lo 6 6 (by decide)).trans rfl
  have e1 : Dec.ra m_ = a := Fin.ext T.fa
  have e2 : Dec.rd m_ = d := Fin.ext T.fd
  have e3 : Dec.rb m_ = b := Fin.ext T.fb
  have es : m_ % 64 = 26 := (low_mod T.lo 64 (by decide)).trans rfl
  clear hn
  rw [decode_alu m_ hw hz hc]
  unfold Dec.alu
  rw [es]
  show (Dec.zero (Dec.fld m_ 6 6) ((Except.ok : Instr → Except Reject Instr) (.sltu (Dec.rd m_) (Dec.ra m_) (Dec.rb m_)))) = _
  simp only [e0, e1, e2, e3, zero_nil]

theorem clz (d : Reg) (a : Reg) : Statement (.clz d a) := by
  have h_d := d.isLt
  have h_a := a.isLt
  refine of_bits (0 * 134217728 + d.val * 4194304 + a.val * 131072 + 0 * 4096 + 27) rfl (tri_lt _ _ _ _ _ (by decide) d.isLt a.isLt (by decide) (by decide)) fun m_ hn hw => ?_
  have T := tri_facts 0 d.val a.val 0 27 d.isLt a.isLt (by decide) (by decide) m_ hn
  have hz : m_ ≠ 0 := T.ne (by omega)
  have hc := T.cls
  have e0 : Dec.fld m_ 12 5 = 0 := T.fb
  have e1 : Dec.fld m_ 6 6 = 0 := (low_fld T.lo 6 6 (by decide)).trans rfl
  have e2 : Dec.ra m_ = a := Fin.ext T.fa
  have e3 : Dec.rd m_ = d := Fin.ext T.fd
  have es : m_ % 64 = 27 := (low_mod T.lo 64 (by decide)).trans rfl
  clear hn
  rw [decode_alu m_ hw hz hc]
  unfold Dec.alu
  rw [es]
  show (Dec.zero (Dec.fld m_ 12 5 + Dec.fld m_ 6 6) ((Except.ok : Instr → Except Reject Instr) (.clz (Dec.rd m_) (Dec.ra m_)))) = _
  simp only [e0, e1, e2, e3, zero_nil, Nat.add_zero]

theorem ctz (d : Reg) (a : Reg) : Statement (.ctz d a) := by
  have h_d := d.isLt
  have h_a := a.isLt
  refine of_bits (0 * 134217728 + d.val * 4194304 + a.val * 131072 + 0 * 4096 + 28) rfl (tri_lt _ _ _ _ _ (by decide) d.isLt a.isLt (by decide) (by decide)) fun m_ hn hw => ?_
  have T := tri_facts 0 d.val a.val 0 28 d.isLt a.isLt (by decide) (by decide) m_ hn
  have hz : m_ ≠ 0 := T.ne (by omega)
  have hc := T.cls
  have e0 : Dec.fld m_ 12 5 = 0 := T.fb
  have e1 : Dec.fld m_ 6 6 = 0 := (low_fld T.lo 6 6 (by decide)).trans rfl
  have e2 : Dec.ra m_ = a := Fin.ext T.fa
  have e3 : Dec.rd m_ = d := Fin.ext T.fd
  have es : m_ % 64 = 28 := (low_mod T.lo 64 (by decide)).trans rfl
  clear hn
  rw [decode_alu m_ hw hz hc]
  unfold Dec.alu
  rw [es]
  show (Dec.zero (Dec.fld m_ 12 5 + Dec.fld m_ 6 6) ((Except.ok : Instr → Except Reject Instr) (.ctz (Dec.rd m_) (Dec.ra m_)))) = _
  simp only [e0, e1, e2, e3, zero_nil, Nat.add_zero]

theorem pop (d : Reg) (a : Reg) : Statement (.pop d a) := by
  have h_d := d.isLt
  have h_a := a.isLt
  refine of_bits (0 * 134217728 + d.val * 4194304 + a.val * 131072 + 0 * 4096 + 29) rfl (tri_lt _ _ _ _ _ (by decide) d.isLt a.isLt (by decide) (by decide)) fun m_ hn hw => ?_
  have T := tri_facts 0 d.val a.val 0 29 d.isLt a.isLt (by decide) (by decide) m_ hn
  have hz : m_ ≠ 0 := T.ne (by omega)
  have hc := T.cls
  have e0 : Dec.fld m_ 12 5 = 0 := T.fb
  have e1 : Dec.fld m_ 6 6 = 0 := (low_fld T.lo 6 6 (by decide)).trans rfl
  have e2 : Dec.ra m_ = a := Fin.ext T.fa
  have e3 : Dec.rd m_ = d := Fin.ext T.fd
  have es : m_ % 64 = 29 := (low_mod T.lo 64 (by decide)).trans rfl
  clear hn
  rw [decode_alu m_ hw hz hc]
  unfold Dec.alu
  rw [es]
  show (Dec.zero (Dec.fld m_ 12 5 + Dec.fld m_ 6 6) ((Except.ok : Instr → Except Reject Instr) (.pop (Dec.rd m_) (Dec.ra m_)))) = _
  simp only [e0, e1, e2, e3, zero_nil, Nat.add_zero]

theorem brev (d : Reg) (a : Reg) : Statement (.brev d a) := by
  have h_d := d.isLt
  have h_a := a.isLt
  refine of_bits (0 * 134217728 + d.val * 4194304 + a.val * 131072 + 0 * 4096 + 30) rfl (tri_lt _ _ _ _ _ (by decide) d.isLt a.isLt (by decide) (by decide)) fun m_ hn hw => ?_
  have T := tri_facts 0 d.val a.val 0 30 d.isLt a.isLt (by decide) (by decide) m_ hn
  have hz : m_ ≠ 0 := T.ne (by omega)
  have hc := T.cls
  have e0 : Dec.fld m_ 12 5 = 0 := T.fb
  have e1 : Dec.fld m_ 6 6 = 0 := (low_fld T.lo 6 6 (by decide)).trans rfl
  have e2 : Dec.ra m_ = a := Fin.ext T.fa
  have e3 : Dec.rd m_ = d := Fin.ext T.fd
  have es : m_ % 64 = 30 := (low_mod T.lo 64 (by decide)).trans rfl
  clear hn
  rw [decode_alu m_ hw hz hc]
  unfold Dec.alu
  rw [es]
  show (Dec.zero (Dec.fld m_ 12 5 + Dec.fld m_ 6 6) ((Except.ok : Instr → Except Reject Instr) (.brev (Dec.rd m_) (Dec.ra m_)))) = _
  simp only [e0, e1, e2, e3, zero_nil, Nat.add_zero]

theorem bswap (d : Reg) (a : Reg) : Statement (.bswap d a) := by
  have h_d := d.isLt
  have h_a := a.isLt
  refine of_bits (0 * 134217728 + d.val * 4194304 + a.val * 131072 + 0 * 4096 + 31) rfl (tri_lt _ _ _ _ _ (by decide) d.isLt a.isLt (by decide) (by decide)) fun m_ hn hw => ?_
  have T := tri_facts 0 d.val a.val 0 31 d.isLt a.isLt (by decide) (by decide) m_ hn
  have hz : m_ ≠ 0 := T.ne (by omega)
  have hc := T.cls
  have e0 : Dec.fld m_ 12 5 = 0 := T.fb
  have e1 : Dec.fld m_ 6 6 = 0 := (low_fld T.lo 6 6 (by decide)).trans rfl
  have e2 : Dec.ra m_ = a := Fin.ext T.fa
  have e3 : Dec.rd m_ = d := Fin.ext T.fd
  have es : m_ % 64 = 31 := (low_mod T.lo 64 (by decide)).trans rfl
  clear hn
  rw [decode_alu m_ hw hz hc]
  unfold Dec.alu
  rw [es]
  show (Dec.zero (Dec.fld m_ 12 5 + Dec.fld m_ 6 6) ((Except.ok : Instr → Except Reject Instr) (.bswap (Dec.rd m_) (Dec.ra m_)))) = _
  simp only [e0, e1, e2, e3, zero_nil, Nat.add_zero]

theorem sextB (d : Reg) (a : Reg) : Statement (.sextB d a) := by
  have h_d := d.isLt
  have h_a := a.isLt
  refine of_bits (0 * 134217728 + d.val * 4194304 + a.val * 131072 + 0 * 4096 + 32) rfl (tri_lt _ _ _ _ _ (by decide) d.isLt a.isLt (by decide) (by decide)) fun m_ hn hw => ?_
  have T := tri_facts 0 d.val a.val 0 32 d.isLt a.isLt (by decide) (by decide) m_ hn
  have hz : m_ ≠ 0 := T.ne (by omega)
  have hc := T.cls
  have e0 : Dec.fld m_ 12 5 = 0 := T.fb
  have e1 : Dec.fld m_ 6 6 = 0 := (low_fld T.lo 6 6 (by decide)).trans rfl
  have e2 : Dec.ra m_ = a := Fin.ext T.fa
  have e3 : Dec.rd m_ = d := Fin.ext T.fd
  have es : m_ % 64 = 32 := (low_mod T.lo 64 (by decide)).trans rfl
  clear hn
  rw [decode_alu m_ hw hz hc]
  unfold Dec.alu
  rw [es]
  show (Dec.zero (Dec.fld m_ 12 5 + Dec.fld m_ 6 6) ((Except.ok : Instr → Except Reject Instr) (.sextB (Dec.rd m_) (Dec.ra m_)))) = _
  simp only [e0, e1, e2, e3, zero_nil, Nat.add_zero]

theorem sextH (d : Reg) (a : Reg) : Statement (.sextH d a) := by
  have h_d := d.isLt
  have h_a := a.isLt
  refine of_bits (0 * 134217728 + d.val * 4194304 + a.val * 131072 + 0 * 4096 + 33) rfl (tri_lt _ _ _ _ _ (by decide) d.isLt a.isLt (by decide) (by decide)) fun m_ hn hw => ?_
  have T := tri_facts 0 d.val a.val 0 33 d.isLt a.isLt (by decide) (by decide) m_ hn
  have hz : m_ ≠ 0 := T.ne (by omega)
  have hc := T.cls
  have e0 : Dec.fld m_ 12 5 = 0 := T.fb
  have e1 : Dec.fld m_ 6 6 = 0 := (low_fld T.lo 6 6 (by decide)).trans rfl
  have e2 : Dec.ra m_ = a := Fin.ext T.fa
  have e3 : Dec.rd m_ = d := Fin.ext T.fd
  have es : m_ % 64 = 33 := (low_mod T.lo 64 (by decide)).trans rfl
  clear hn
  rw [decode_alu m_ hw hz hc]
  unfold Dec.alu
  rw [es]
  show (Dec.zero (Dec.fld m_ 12 5 + Dec.fld m_ 6 6) ((Except.ok : Instr → Except Reject Instr) (.sextH (Dec.rd m_) (Dec.ra m_)))) = _
  simp only [e0, e1, e2, e3, zero_nil, Nat.add_zero]

theorem sextW (d : Reg) (a : Reg) : Statement (.sextW d a) := by
  have h_d := d.isLt
  have h_a := a.isLt
  refine of_bits (0 * 134217728 + d.val * 4194304 + a.val * 131072 + 0 * 4096 + 34) rfl (tri_lt _ _ _ _ _ (by decide) d.isLt a.isLt (by decide) (by decide)) fun m_ hn hw => ?_
  have T := tri_facts 0 d.val a.val 0 34 d.isLt a.isLt (by decide) (by decide) m_ hn
  have hz : m_ ≠ 0 := T.ne (by omega)
  have hc := T.cls
  have e0 : Dec.fld m_ 12 5 = 0 := T.fb
  have e1 : Dec.fld m_ 6 6 = 0 := (low_fld T.lo 6 6 (by decide)).trans rfl
  have e2 : Dec.ra m_ = a := Fin.ext T.fa
  have e3 : Dec.rd m_ = d := Fin.ext T.fd
  have es : m_ % 64 = 34 := (low_mod T.lo 64 (by decide)).trans rfl
  clear hn
  rw [decode_alu m_ hw hz hc]
  unfold Dec.alu
  rw [es]
  show (Dec.zero (Dec.fld m_ 12 5 + Dec.fld m_ 6 6) ((Except.ok : Instr → Except Reject Instr) (.sextW (Dec.rd m_) (Dec.ra m_)))) = _
  simp only [e0, e1, e2, e3, zero_nil, Nat.add_zero]

theorem zextB (d : Reg) (a : Reg) : Statement (.zextB d a) := by
  have h_d := d.isLt
  have h_a := a.isLt
  refine of_bits (0 * 134217728 + d.val * 4194304 + a.val * 131072 + 0 * 4096 + 35) rfl (tri_lt _ _ _ _ _ (by decide) d.isLt a.isLt (by decide) (by decide)) fun m_ hn hw => ?_
  have T := tri_facts 0 d.val a.val 0 35 d.isLt a.isLt (by decide) (by decide) m_ hn
  have hz : m_ ≠ 0 := T.ne (by omega)
  have hc := T.cls
  have e0 : Dec.fld m_ 12 5 = 0 := T.fb
  have e1 : Dec.fld m_ 6 6 = 0 := (low_fld T.lo 6 6 (by decide)).trans rfl
  have e2 : Dec.ra m_ = a := Fin.ext T.fa
  have e3 : Dec.rd m_ = d := Fin.ext T.fd
  have es : m_ % 64 = 35 := (low_mod T.lo 64 (by decide)).trans rfl
  clear hn
  rw [decode_alu m_ hw hz hc]
  unfold Dec.alu
  rw [es]
  show (Dec.zero (Dec.fld m_ 12 5 + Dec.fld m_ 6 6) ((Except.ok : Instr → Except Reject Instr) (.zextB (Dec.rd m_) (Dec.ra m_)))) = _
  simp only [e0, e1, e2, e3, zero_nil, Nat.add_zero]

theorem zextH (d : Reg) (a : Reg) : Statement (.zextH d a) := by
  have h_d := d.isLt
  have h_a := a.isLt
  refine of_bits (0 * 134217728 + d.val * 4194304 + a.val * 131072 + 0 * 4096 + 36) rfl (tri_lt _ _ _ _ _ (by decide) d.isLt a.isLt (by decide) (by decide)) fun m_ hn hw => ?_
  have T := tri_facts 0 d.val a.val 0 36 d.isLt a.isLt (by decide) (by decide) m_ hn
  have hz : m_ ≠ 0 := T.ne (by omega)
  have hc := T.cls
  have e0 : Dec.fld m_ 12 5 = 0 := T.fb
  have e1 : Dec.fld m_ 6 6 = 0 := (low_fld T.lo 6 6 (by decide)).trans rfl
  have e2 : Dec.ra m_ = a := Fin.ext T.fa
  have e3 : Dec.rd m_ = d := Fin.ext T.fd
  have es : m_ % 64 = 36 := (low_mod T.lo 64 (by decide)).trans rfl
  clear hn
  rw [decode_alu m_ hw hz hc]
  unfold Dec.alu
  rw [es]
  show (Dec.zero (Dec.fld m_ 12 5 + Dec.fld m_ 6 6) ((Except.ok : Instr → Except Reject Instr) (.zextH (Dec.rd m_) (Dec.ra m_)))) = _
  simp only [e0, e1, e2, e3, zero_nil, Nat.add_zero]

theorem zextW (d : Reg) (a : Reg) : Statement (.zextW d a) := by
  have h_d := d.isLt
  have h_a := a.isLt
  refine of_bits (0 * 134217728 + d.val * 4194304 + a.val * 131072 + 0 * 4096 + 37) rfl (tri_lt _ _ _ _ _ (by decide) d.isLt a.isLt (by decide) (by decide)) fun m_ hn hw => ?_
  have T := tri_facts 0 d.val a.val 0 37 d.isLt a.isLt (by decide) (by decide) m_ hn
  have hz : m_ ≠ 0 := T.ne (by omega)
  have hc := T.cls
  have e0 : Dec.fld m_ 12 5 = 0 := T.fb
  have e1 : Dec.fld m_ 6 6 = 0 := (low_fld T.lo 6 6 (by decide)).trans rfl
  have e2 : Dec.ra m_ = a := Fin.ext T.fa
  have e3 : Dec.rd m_ = d := Fin.ext T.fd
  have es : m_ % 64 = 37 := (low_mod T.lo 64 (by decide)).trans rfl
  clear hn
  rw [decode_alu m_ hw hz hc]
  unfold Dec.alu
  rw [es]
  show (Dec.zero (Dec.fld m_ 12 5 + Dec.fld m_ 6 6) ((Except.ok : Instr → Except Reject Instr) (.zextW (Dec.rd m_) (Dec.ra m_)))) = _
  simp only [e0, e1, e2, e3, zero_nil, Nat.add_zero]

theorem addw (d : Reg) (a : Reg) (b : Reg) : Statement (.addw d a b) := by
  have h_d := d.isLt
  have h_a := a.isLt
  have h_b := b.isLt
  refine of_bits (0 * 134217728 + d.val * 4194304 + a.val * 131072 + b.val * 4096 + 38) rfl (tri_lt _ _ _ _ _ (by decide) d.isLt a.isLt b.isLt (by decide)) fun m_ hn hw => ?_
  have T := tri_facts 0 d.val a.val b.val 38 d.isLt a.isLt b.isLt (by decide) m_ hn
  have hz : m_ ≠ 0 := T.ne (by omega)
  have hc := T.cls
  have e0 : Dec.fld m_ 6 6 = 0 := (low_fld T.lo 6 6 (by decide)).trans rfl
  have e1 : Dec.ra m_ = a := Fin.ext T.fa
  have e2 : Dec.rd m_ = d := Fin.ext T.fd
  have e3 : Dec.rb m_ = b := Fin.ext T.fb
  have es : m_ % 64 = 38 := (low_mod T.lo 64 (by decide)).trans rfl
  clear hn
  rw [decode_alu m_ hw hz hc]
  unfold Dec.alu
  rw [es]
  show (Dec.zero (Dec.fld m_ 6 6) ((Except.ok : Instr → Except Reject Instr) (.addw (Dec.rd m_) (Dec.ra m_) (Dec.rb m_)))) = _
  simp only [e0, e1, e2, e3, zero_nil]

theorem subw (d : Reg) (a : Reg) (b : Reg) : Statement (.subw d a b) := by
  have h_d := d.isLt
  have h_a := a.isLt
  have h_b := b.isLt
  refine of_bits (0 * 134217728 + d.val * 4194304 + a.val * 131072 + b.val * 4096 + 39) rfl (tri_lt _ _ _ _ _ (by decide) d.isLt a.isLt b.isLt (by decide)) fun m_ hn hw => ?_
  have T := tri_facts 0 d.val a.val b.val 39 d.isLt a.isLt b.isLt (by decide) m_ hn
  have hz : m_ ≠ 0 := T.ne (by omega)
  have hc := T.cls
  have e0 : Dec.fld m_ 6 6 = 0 := (low_fld T.lo 6 6 (by decide)).trans rfl
  have e1 : Dec.ra m_ = a := Fin.ext T.fa
  have e2 : Dec.rd m_ = d := Fin.ext T.fd
  have e3 : Dec.rb m_ = b := Fin.ext T.fb
  have es : m_ % 64 = 39 := (low_mod T.lo 64 (by decide)).trans rfl
  clear hn
  rw [decode_alu m_ hw hz hc]
  unfold Dec.alu
  rw [es]
  show (Dec.zero (Dec.fld m_ 6 6) ((Except.ok : Instr → Except Reject Instr) (.subw (Dec.rd m_) (Dec.ra m_) (Dec.rb m_)))) = _
  simp only [e0, e1, e2, e3, zero_nil]

theorem mulw (d : Reg) (a : Reg) (b : Reg) : Statement (.mulw d a b) := by
  have h_d := d.isLt
  have h_a := a.isLt
  have h_b := b.isLt
  refine of_bits (0 * 134217728 + d.val * 4194304 + a.val * 131072 + b.val * 4096 + 40) rfl (tri_lt _ _ _ _ _ (by decide) d.isLt a.isLt b.isLt (by decide)) fun m_ hn hw => ?_
  have T := tri_facts 0 d.val a.val b.val 40 d.isLt a.isLt b.isLt (by decide) m_ hn
  have hz : m_ ≠ 0 := T.ne (by omega)
  have hc := T.cls
  have e0 : Dec.fld m_ 6 6 = 0 := (low_fld T.lo 6 6 (by decide)).trans rfl
  have e1 : Dec.ra m_ = a := Fin.ext T.fa
  have e2 : Dec.rd m_ = d := Fin.ext T.fd
  have e3 : Dec.rb m_ = b := Fin.ext T.fb
  have es : m_ % 64 = 40 := (low_mod T.lo 64 (by decide)).trans rfl
  clear hn
  rw [decode_alu m_ hw hz hc]
  unfold Dec.alu
  rw [es]
  show (Dec.zero (Dec.fld m_ 6 6) ((Except.ok : Instr → Except Reject Instr) (.mulw (Dec.rd m_) (Dec.ra m_) (Dec.rb m_)))) = _
  simp only [e0, e1, e2, e3, zero_nil]

theorem addi (d : Reg) (a : Reg) (i : BitVec 17) : Statement (.addi d a i) := by
  have h_d := d.isLt
  have h_a := a.isLt
  have h_i := i.isLt
  refine of_bits (1 * 134217728 + d.val * 4194304 + a.val * 131072 + i.toNat) rfl (by omega) fun m_ hn hw => ?_
  have T := imm_facts 1 d.val a.val i.toNat d.isLt a.isLt (by omega) m_ (by omega)
  have hz : m_ ≠ 0 := T.ne_of_cls (by decide)
  have hc := T.cls
  have e0 : Dec.ra m_ = a := Fin.ext T.fa
  have e1 : Dec.rd m_ = d := Fin.ext T.fd
  have e2 : BitVec.ofNat 17 m_ = i := BitVec.eq_of_toNat_eq (by rw [BitVec.toNat_ofNat]; omega)
  clear hn
  rw [decode_1 m_ hw hz hc]
  simp only [e0, e1, e2]

theorem andi (d : Reg) (a : Reg) (i : BitVec 17) : Statement (.andi d a i) := by
  have h_d := d.isLt
  have h_a := a.isLt
  have h_i := i.isLt
  refine of_bits (2 * 134217728 + d.val * 4194304 + a.val * 131072 + i.toNat) rfl (by omega) fun m_ hn hw => ?_
  have T := imm_facts 2 d.val a.val i.toNat d.isLt a.isLt (by omega) m_ (by omega)
  have hz : m_ ≠ 0 := T.ne_of_cls (by decide)
  have hc := T.cls
  have e0 : Dec.ra m_ = a := Fin.ext T.fa
  have e1 : Dec.rd m_ = d := Fin.ext T.fd
  have e2 : BitVec.ofNat 17 m_ = i := BitVec.eq_of_toNat_eq (by rw [BitVec.toNat_ofNat]; omega)
  clear hn
  rw [decode_2 m_ hw hz hc]
  simp only [e0, e1, e2]

theorem ori (d : Reg) (a : Reg) (i : BitVec 17) : Statement (.ori d a i) := by
  have h_d := d.isLt
  have h_a := a.isLt
  have h_i := i.isLt
  refine of_bits (3 * 134217728 + d.val * 4194304 + a.val * 131072 + i.toNat) rfl (by omega) fun m_ hn hw => ?_
  have T := imm_facts 3 d.val a.val i.toNat d.isLt a.isLt (by omega) m_ (by omega)
  have hz : m_ ≠ 0 := T.ne_of_cls (by decide)
  have hc := T.cls
  have e0 : Dec.ra m_ = a := Fin.ext T.fa
  have e1 : Dec.rd m_ = d := Fin.ext T.fd
  have e2 : BitVec.ofNat 17 m_ = i := BitVec.eq_of_toNat_eq (by rw [BitVec.toNat_ofNat]; omega)
  clear hn
  rw [decode_3 m_ hw hz hc]
  simp only [e0, e1, e2]

theorem xori (d : Reg) (a : Reg) (i : BitVec 17) : Statement (.xori d a i) := by
  have h_d := d.isLt
  have h_a := a.isLt
  have h_i := i.isLt
  refine of_bits (4 * 134217728 + d.val * 4194304 + a.val * 131072 + i.toNat) rfl (by omega) fun m_ hn hw => ?_
  have T := imm_facts 4 d.val a.val i.toNat d.isLt a.isLt (by omega) m_ (by omega)
  have hz : m_ ≠ 0 := T.ne_of_cls (by decide)
  have hc := T.cls
  have e0 : Dec.ra m_ = a := Fin.ext T.fa
  have e1 : Dec.rd m_ = d := Fin.ext T.fd
  have e2 : BitVec.ofNat 17 m_ = i := BitVec.eq_of_toNat_eq (by rw [BitVec.toNat_ofNat]; omega)
  clear hn
  rw [decode_4 m_ hw hz hc]
  simp only [e0, e1, e2]

theorem shli (d : Reg) (a : Reg) (n : Fin 64) : Statement (.shli d a n) := by
  have h_d := d.isLt
  have h_a := a.isLt
  have h_n := n.isLt
  refine of_bits (5 * 134217728 + d.val * 4194304 + a.val * 131072 + n.val) rfl (by omega) fun m_ hn hw => ?_
  have T := imm_facts 5 d.val a.val n.val d.isLt a.isLt (by omega) m_ (by omega)
  have hz : m_ ≠ 0 := T.ne_of_cls (by decide)
  have hc := T.cls
  have e0 : Dec.fld m_ 6 8 = 0 := (low_fld17 T.lo 6 8 (by decide)).trans (by simp only [Dec.fld]; omega)
  have e1 : Dec.fld m_ 14 3 = 0 := (low_fld17 T.lo 14 3 (by decide)).trans (by simp only [Dec.fld]; omega)
  have e2 : Dec.ra m_ = a := Fin.ext T.fa
  have e3 : Dec.rd m_ = d := Fin.ext T.fd
  have e4 : Fin.ofNat 64 m_ = n := Fin.ext (by simp only [Fin.ofNat]; omega)
  clear hn
  rw [decode_shifti m_ hw hz hc]
  simp only [Dec.shifti, e0, e1, e2, e3, e4, zero_nil]

theorem shri (d : Reg) (a : Reg) (n : Fin 64) : Statement (.shri d a n) := by
  have h_d := d.isLt
  have h_a := a.isLt
  have h_n := n.isLt
  refine of_bits (5 * 134217728 + d.val * 4194304 + a.val * 131072 + (16384 + n.val)) rfl (by omega) fun m_ hn hw => ?_
  have T := imm_facts 5 d.val a.val (16384 + n.val) d.isLt a.isLt (by omega) m_ (by omega)
  have hz : m_ ≠ 0 := T.ne_of_cls (by decide)
  have hc := T.cls
  have e0 : Dec.fld m_ 6 8 = 0 := (low_fld17 T.lo 6 8 (by decide)).trans (by simp only [Dec.fld]; omega)
  have e1 : Dec.fld m_ 14 3 = 1 := (low_fld17 T.lo 14 3 (by decide)).trans (by simp only [Dec.fld]; omega)
  have e2 : Dec.ra m_ = a := Fin.ext T.fa
  have e3 : Dec.rd m_ = d := Fin.ext T.fd
  have e4 : Fin.ofNat 64 m_ = n := Fin.ext (by simp only [Fin.ofNat]; omega)
  clear hn
  rw [decode_shifti m_ hw hz hc]
  simp only [Dec.shifti, e0, e1, e2, e3, e4, zero_nil]

theorem sari (d : Reg) (a : Reg) (n : Fin 64) : Statement (.sari d a n) := by
  have h_d := d.isLt
  have h_a := a.isLt
  have h_n := n.isLt
  refine of_bits (5 * 134217728 + d.val * 4194304 + a.val * 131072 + (32768 + n.val)) rfl (by omega) fun m_ hn hw => ?_
  have T := imm_facts 5 d.val a.val (32768 + n.val) d.isLt a.isLt (by omega) m_ (by omega)
  have hz : m_ ≠ 0 := T.ne_of_cls (by decide)
  have hc := T.cls
  have e0 : Dec.fld m_ 6 8 = 0 := (low_fld17 T.lo 6 8 (by decide)).trans (by simp only [Dec.fld]; omega)
  have e1 : Dec.fld m_ 14 3 = 2 := (low_fld17 T.lo 14 3 (by decide)).trans (by simp only [Dec.fld]; omega)
  have e2 : Dec.ra m_ = a := Fin.ext T.fa
  have e3 : Dec.rd m_ = d := Fin.ext T.fd
  have e4 : Fin.ofNat 64 m_ = n := Fin.ext (by simp only [Fin.ofNat]; omega)
  clear hn
  rw [decode_shifti m_ hw hz hc]
  simp only [Dec.shifti, e0, e1, e2, e3, e4, zero_nil]

theorem roli (d : Reg) (a : Reg) (n : Fin 64) : Statement (.roli d a n) := by
  have h_d := d.isLt
  have h_a := a.isLt
  have h_n := n.isLt
  refine of_bits (5 * 134217728 + d.val * 4194304 + a.val * 131072 + (49152 + n.val)) rfl (by omega) fun m_ hn hw => ?_
  have T := imm_facts 5 d.val a.val (49152 + n.val) d.isLt a.isLt (by omega) m_ (by omega)
  have hz : m_ ≠ 0 := T.ne_of_cls (by decide)
  have hc := T.cls
  have e0 : Dec.fld m_ 6 8 = 0 := (low_fld17 T.lo 6 8 (by decide)).trans (by simp only [Dec.fld]; omega)
  have e1 : Dec.fld m_ 14 3 = 3 := (low_fld17 T.lo 14 3 (by decide)).trans (by simp only [Dec.fld]; omega)
  have e2 : Dec.ra m_ = a := Fin.ext T.fa
  have e3 : Dec.rd m_ = d := Fin.ext T.fd
  have e4 : Fin.ofNat 64 m_ = n := Fin.ext (by simp only [Fin.ofNat]; omega)
  clear hn
  rw [decode_shifti m_ hw hz hc]
  simp only [Dec.shifti, e0, e1, e2, e3, e4, zero_nil]

theorem slti (d : Reg) (a : Reg) (i : BitVec 17) : Statement (.slti d a i) := by
  have h_d := d.isLt
  have h_a := a.isLt
  have h_i := i.isLt
  refine of_bits (6 * 134217728 + d.val * 4194304 + a.val * 131072 + i.toNat) rfl (by omega) fun m_ hn hw => ?_
  have T := imm_facts 6 d.val a.val i.toNat d.isLt a.isLt (by omega) m_ (by omega)
  have hz : m_ ≠ 0 := T.ne_of_cls (by decide)
  have hc := T.cls
  have e0 : Dec.ra m_ = a := Fin.ext T.fa
  have e1 : Dec.rd m_ = d := Fin.ext T.fd
  have e2 : BitVec.ofNat 17 m_ = i := BitVec.eq_of_toNat_eq (by rw [BitVec.toNat_ofNat]; omega)
  clear hn
  rw [decode_6 m_ hw hz hc]
  simp only [e0, e1, e2]

theorem lui (d : Reg) (i : BitVec 22) : Statement (.lui d i) := by
  have h_d := d.isLt
  have h_i := i.isLt
  refine of_bits (7 * 134217728 + d.val * 4194304 + i.toNat) rfl (by omega) fun m_ hn hw => ?_
  have hz : m_ ≠ 0 := by omega
  have hc : m_ / 134217728 = 7 := by omega
  have e0 : Dec.rd m_ = d := Fin.ext (by simp only [Dec.rd, Fin.ofNat]; omega)
  have e1 : BitVec.ofNat 22 m_ = i := BitVec.eq_of_toNat_eq (by rw [BitVec.toNat_ofNat]; omega)
  clear hn
  rw [decode_7 m_ hw hz hc]
  simp only [e0, e1]

theorem luih (d : Reg) (i : BitVec 22) : Statement (.luih d i) := by
  have h_d := d.isLt
  have h_i := i.isLt
  refine of_bits (8 * 134217728 + d.val * 4194304 + i.toNat) rfl (by omega) fun m_ hn hw => ?_
  have hz : m_ ≠ 0 := by omega
  have hc : m_ / 134217728 = 8 := by omega
  have e0 : Dec.rd m_ = d := Fin.ext (by simp only [Dec.rd, Fin.ofNat]; omega)
  have e1 : BitVec.ofNat 22 m_ = i := BitVec.eq_of_toNat_eq (by rw [BitVec.toNat_ofNat]; omega)
  clear hn
  rw [decode_8 m_ hw hz hc]
  simp only [e0, e1]

theorem addpc (d : Reg) (i : BitVec 22) : Statement (.addpc d i) := by
  have h_d := d.isLt
  have h_i := i.isLt
  refine of_bits (9 * 134217728 + d.val * 4194304 + i.toNat) rfl (by omega) fun m_ hn hw => ?_
  have hz : m_ ≠ 0 := by omega
  have hc : m_ / 134217728 = 9 := by omega
  have e0 : Dec.rd m_ = d := Fin.ext (by simp only [Dec.rd, Fin.ofNat]; omega)
  have e1 : BitVec.ofNat 22 m_ = i := BitVec.eq_of_toNat_eq (by rw [BitVec.toNat_ofNat]; omega)
  clear hn
  rw [decode_9 m_ hw hz hc]
  simp only [e0, e1]

theorem lea (d : Reg) (a : Reg) (b : Reg) (s : Fin 8) (i : BitVec 7) : Statement (.lea d a b s i) := by
  have h_d := d.isLt
  have h_a := a.isLt
  have h_b := b.isLt
  have h_s := s.isLt
  have h_i := i.isLt
  refine of_bits (10 * 134217728 + d.val * 4194304 + a.val * 131072 + b.val * 4096 + s.val * 128 + (i.toNat)) rfl (by omega) fun m_ hn hw => ?_
  have hz : m_ ≠ 0 := by omega
  have hc : m_ / 134217728 = 10 := by omega
  have e0 : Dec.fld m_ 10 2 = 0 := by simp only [Dec.fld]; omega
  have e1 : Dec.ra m_ = a := Fin.ext (by simp only [Dec.ra, Fin.ofNat]; omega)
  have e2 : Dec.rd m_ = d := Fin.ext (by simp only [Dec.rd, Fin.ofNat]; omega)
  have e3 : Dec.rb m_ = b := Fin.ext (by simp only [Dec.rb, Fin.ofNat]; omega)
  have e4 : Fin.ofNat 8 (m_ / 128) = s := Fin.ext (by simp only [Fin.ofNat]; omega)
  have e5 : BitVec.ofNat 7 m_ = i := BitVec.eq_of_toNat_eq (by rw [BitVec.toNat_ofNat]; omega)
  clear hn
  rw [decode_10 m_ hw hz hc]
  simp only [e0, e1, e2, e3, e4, e5, zero_nil]

theorem bfxu (d : Reg) (a : Reg) (l : Fin 64) (p : Fin 64) : Statement (.bfxu d a l p) := by
  have h_d := d.isLt
  have h_a := a.isLt
  have h_l := l.isLt
  have h_p := p.isLt
  refine of_bits (11 * 134217728 + d.val * 4194304 + a.val * 131072 + (l.val * 64 + p.val)) rfl (by omega) fun m_ hn hw => ?_
  have T := imm_facts 11 d.val a.val (l.val * 64 + p.val) d.isLt a.isLt (by omega) m_ (by omega)
  have hz : m_ ≠ 0 := T.ne_of_cls (by decide)
  have hc := T.cls
  have e0 : Dec.fld m_ 13 4 = 0 := (low_fld17 T.lo 13 4 (by decide)).trans (by simp only [Dec.fld]; omega)
  have e1 : Dec.fld m_ 12 1 = 0 := (low_fld17 T.lo 12 1 (by decide)).trans (by simp only [Dec.fld]; omega)
  have e2 : Dec.ra m_ = a := Fin.ext T.fa
  have e3 : Dec.rd m_ = d := Fin.ext T.fd
  have e4 : Fin.ofNat 64 m_ = p := Fin.ext (by simp only [Fin.ofNat]; omega)
  have e5 : Fin.ofNat 64 (m_ / 64) = l := Fin.ext (by simp only [Fin.ofNat]; omega)
  clear hn
  rw [decode_11 m_ hw hz hc]
  simp only [e0, e1, e2, e3, e4, e5, zero_nil, if_true]

theorem bfx (d : Reg) (a : Reg) (l : Fin 64) (p : Fin 64) : Statement (.bfx d a l p) := by
  have h_d := d.isLt
  have h_a := a.isLt
  have h_l := l.isLt
  have h_p := p.isLt
  refine of_bits (11 * 134217728 + d.val * 4194304 + a.val * 131072 + (4096 + l.val * 64 + p.val)) rfl (by omega) fun m_ hn hw => ?_
  have T := imm_facts 11 d.val a.val (4096 + l.val * 64 + p.val) d.isLt a.isLt (by omega) m_ (by omega)
  have hz : m_ ≠ 0 := T.ne_of_cls (by decide)
  have hc := T.cls
  have e0 : Dec.fld m_ 13 4 = 0 := (low_fld17 T.lo 13 4 (by decide)).trans (by simp only [Dec.fld]; omega)
  have e1 : Dec.fld m_ 12 1 = 1 := (low_fld17 T.lo 12 1 (by decide)).trans (by simp only [Dec.fld]; omega)
  have e2 : Dec.ra m_ = a := Fin.ext T.fa
  have e3 : Dec.rd m_ = d := Fin.ext T.fd
  have e4 : Fin.ofNat 64 m_ = p := Fin.ext (by simp only [Fin.ofNat]; omega)
  have e5 : Fin.ofNat 64 (m_ / 64) = l := Fin.ext (by simp only [Fin.ofNat]; omega)
  clear hn
  rw [decode_11 m_ hw hz hc]
  simp only [e0, e1, e2, e3, e4, e5, zero_nil, if_false, Nat.one_ne_zero]

theorem bfi (d : Reg) (a : Reg) (l : Fin 64) (p : Fin 64) : Statement (.bfi d a l p) := by
  have h_d := d.isLt
  have h_a := a.isLt
  have h_l := l.isLt
  have h_p := p.isLt
  refine of_bits (12 * 134217728 + d.val * 4194304 + a.val * 131072 + (l.val * 64 + p.val)) rfl (by omega) fun m_ hn hw => ?_
  have T := imm_facts 12 d.val a.val (l.val * 64 + p.val) d.isLt a.isLt (by omega) m_ (by omega)
  have hz : m_ ≠ 0 := T.ne_of_cls (by decide)
  have hc := T.cls
  have e0 : Dec.fld m_ 12 5 = 0 := (low_fld17 T.lo 12 5 (by decide)).trans (by simp only [Dec.fld]; omega)
  have e1 : Dec.ra m_ = a := Fin.ext T.fa
  have e2 : Dec.rd m_ = d := Fin.ext T.fd
  have e3 : Fin.ofNat 64 m_ = p := Fin.ext (by simp only [Fin.ofNat]; omega)
  have e4 : Fin.ofNat 64 (m_ / 64) = l := Fin.ext (by simp only [Fin.ofNat]; omega)
  clear hn
  rw [decode_12 m_ hw hz hc]
  simp only [e0, e1, e2, e3, e4, zero_nil]

theorem mhpk (d : Reg) (a : Reg) (b : Reg) (l : Fin 8) : Statement (.mhpk d a b l) := by
  have h_d := d.isLt
  have h_a := a.isLt
  have h_b := b.isLt
  have h_l := l.isLt
  refine of_bits (13 * 134217728 + d.val * 4194304 + a.val * 131072 + b.val * 4096 + (l.val * 64 + 1)) rfl (tri_lt _ _ _ _ _ (by decide) d.isLt a.isLt b.isLt (by omega)) fun m_ hn hw => ?_
  have T := tri_facts 13 d.val a.val b.val (l.val * 64 + 1) d.isLt a.isLt b.isLt (by omega) m_ hn
  have hz : m_ ≠ 0 := T.ne_of_cls (by decide)
  have hc := T.cls
  have e0 : Dec.fld m_ 9 3 = 0 := (low_fld T.lo 9 3 (by decide)).trans (by simp only [Dec.fld]; omega)
  have e1 : Dec.ra m_ = a := Fin.ext T.fa
  have e2 : Dec.rd m_ = d := Fin.ext T.fd
  have e3 : Dec.rb m_ = b := Fin.ext T.fb
  have e4 : Fin.ofNat 8 (m_ / 64) = l := Fin.ext (by simp only [Fin.ofNat]; omega)
  have es : m_ % 64 = 1 := (low_mod T.lo 64 (by decide)).trans (by omega)
  clear hn
  rw [decode_bitsCls m_ hw hz hc]
  unfold Dec.bitsCls
  rw [es]
  show (Dec.zero (Dec.fld m_ 9 3) ((Except.ok : Instr → Except Reject Instr) (.mhpk (Dec.rd m_) (Dec.ra m_) (Dec.rb m_) (Fin.ofNat 8 (m_ / 64))))) = _
  simp only [e0, e1, e2, e3, e4, zero_nil]

theorem mhun (s : Bool) (d : Reg) (a : Reg) (l : Fin 8) : Statement (.mhun s d a l) := by
  have h_s := bit_lt s
  have h_d := d.isLt
  have h_a := a.isLt
  have h_l := l.isLt
  refine of_bits (13 * 134217728 + d.val * 4194304 + a.val * 131072 + 0 * 4096 + (Enc.bit s * 512 + l.val * 64 + 2)) rfl (tri_lt _ _ _ _ _ (by decide) d.isLt a.isLt (by decide) (by omega)) fun m_ hn hw => ?_
  have T := tri_facts 13 d.val a.val 0 (Enc.bit s * 512 + l.val * 64 + 2) d.isLt a.isLt (by decide) (by omega) m_ hn
  have hz : m_ ≠ 0 := T.ne_of_cls (by decide)
  have hc := T.cls
  have e0 : Dec.fld m_ 12 5 = 0 := T.fb
  have e1 : Dec.fld m_ 10 2 = 0 := (low_fld T.lo 10 2 (by decide)).trans (by simp only [Dec.fld]; omega)
  have e2 : Dec.fld m_ 9 1 = Enc.bit s := (low_fld T.lo 9 1 (by decide)).trans (by simp only [Dec.fld]; omega)
  have e3 : Dec.ra m_ = a := Fin.ext T.fa
  have e4 : Dec.rd m_ = d := Fin.ext T.fd
  have e5 : Fin.ofNat 8 (m_ / 64) = l := Fin.ext (by simp only [Fin.ofNat]; omega)
  have es : m_ % 64 = 2 := (low_mod T.lo 64 (by decide)).trans (by omega)
  clear hn
  rw [decode_bitsCls m_ hw hz hc]
  unfold Dec.bitsCls
  rw [es]
  show (Dec.zero (Dec.fld m_ 12 5 + Dec.fld m_ 10 2) ((Except.ok : Instr → Except Reject Instr) (.mhun (Dec.fld m_ 9 1 == 1) (Dec.rd m_) (Dec.ra m_) (Fin.ofNat 8 (m_ / 64))))) = _
  simp only [e0, e1, e2, e3, e4, e5, bit_enc, zero_nil, Nat.add_zero]

theorem layw (a : Reg) (b : Reg) : Statement (.layw a b) := by
  have h_a := a.isLt
  have h_b := b.isLt
  refine of_bits (13 * 134217728 + 0 * 4194304 + a.val * 131072 + b.val * 4096 + 3) rfl (tri_lt _ _ _ _ _ (by decide) (by decide) a.isLt b.isLt (by decide)) fun m_ hn hw => ?_
  have T := tri_facts 13 0 a.val b.val 3 (by decide) a.isLt b.isLt (by decide) m_ hn
  have hz : m_ ≠ 0 := T.ne_of_cls (by decide)
  have hc := T.cls
  have e0 : Dec.fld m_ 22 5 = 0 := T.fd
  have e1 : Dec.fld m_ 6 6 = 0 := (low_fld T.lo 6 6 (by decide)).trans rfl
  have e2 : Dec.ra m_ = a := Fin.ext T.fa
  have e3 : Dec.rb m_ = b := Fin.ext T.fb
  have es : m_ % 64 = 3 := (low_mod T.lo 64 (by decide)).trans rfl
  clear hn
  rw [decode_bitsCls m_ hw hz hc]
  unfold Dec.bitsCls
  rw [es]
  show (Dec.zero (Dec.fld m_ 22 5 + Dec.fld m_ 6 6) ((Except.ok : Instr → Except Reject Instr) (.layw (Dec.ra m_) (Dec.rb m_)))) = _
  simp only [e0, e1, e2, e3, zero_nil, Nat.add_zero]

theorem layr (d : Reg) (a : Reg) : Statement (.layr d a) := by
  have h_d := d.isLt
  have h_a := a.isLt
  refine of_bits (13 * 134217728 + d.val * 4194304 + a.val * 131072 + 0 * 4096 + 4) rfl (tri_lt _ _ _ _ _ (by decide) d.isLt a.isLt (by decide) (by decide)) fun m_ hn hw => ?_
  have T := tri_facts 13 d.val a.val 0 4 d.isLt a.isLt (by decide) (by decide) m_ hn
  have hz : m_ ≠ 0 := T.ne_of_cls (by decide)
  have hc := T.cls
  have e0 : Dec.fld m_ 12 5 = 0 := T.fb
  have e1 : Dec.fld m_ 6 6 = 0 := (low_fld T.lo 6 6 (by decide)).trans rfl
  have e2 : Dec.ra m_ = a := Fin.ext T.fa
  have e3 : Dec.rd m_ = d := Fin.ext T.fd
  have es : m_ % 64 = 4 := (low_mod T.lo 64 (by decide)).trans rfl
  clear hn
  rw [decode_bitsCls m_ hw hz hc]
  unfold Dec.bitsCls
  rw [es]
  show (Dec.zero (Dec.fld m_ 12 5 + Dec.fld m_ 6 6) ((Except.ok : Instr → Except Reject Instr) (.layr (Dec.rd m_) (Dec.ra m_)))) = _
  simp only [e0, e1, e2, e3, zero_nil, Nat.add_zero]

theorem prdx (d : Reg) (g : Fin 3) : Statement (.prdx d g) := by
  have h_d := d.isLt
  have h_g := g.isLt
  refine of_bits (13 * 134217728 + d.val * 4194304 + 0 * 131072 + 0 * 4096 + (g.val * 64 + 5)) rfl (tri_lt _ _ _ _ _ (by decide) d.isLt (by decide) (by decide) (by omega)) fun m_ hn hw => ?_
  have T := tri_facts 13 d.val 0 0 (g.val * 64 + 5) d.isLt (by decide) (by decide) (by omega) m_ hn
  have hz : m_ ≠ 0 := T.ne_of_cls (by decide)
  have hc := T.cls
  have e0 : Dec.fld m_ 8 14 = 0 := by simp only [Dec.fld]; omega
  have e1 : Dec.fld m_ 6 2 = g.val := (low_fld T.lo 6 2 (by decide)).trans (by simp only [Dec.fld]; omega)
  have e2 : Dec.rd m_ = d := Fin.ext T.fd
  have es : m_ % 64 = 5 := (low_mod T.lo 64 (by decide)).trans (by omega)
  clear hn
  rw [decode_bitsCls m_ hw hz hc]
  unfold Dec.bitsCls
  rw [es]
  show (Dec.zero (Dec.fld m_ 8 14) (Dec.three (Dec.fld m_ 6 2) fun g => (Except.ok : Instr → Except Reject Instr) (.prdx (Dec.rd m_) g))) = _
  simp only [e0, e1, e2, three_enc, zero_nil]

theorem xprd (a : Reg) (g : Fin 3) : Statement (.xprd a g) := by
  have h_a := a.isLt
  have h_g := g.isLt
  refine of_bits (13 * 134217728 + 0 * 4194304 + a.val * 131072 + 0 * 4096 + (g.val * 64 + 6)) rfl (tri_lt _ _ _ _ _ (by decide) (by decide) a.isLt (by decide) (by omega)) fun m_ hn hw => ?_
  have T := tri_facts 13 0 a.val 0 (g.val * 64 + 6) (by decide) a.isLt (by decide) (by omega) m_ hn
  have hz : m_ ≠ 0 := T.ne_of_cls (by decide)
  have hc := T.cls
  have e0 : Dec.fld m_ 22 5 = 0 := T.fd
  have e1 : Dec.fld m_ 8 9 = 0 := by simp only [Dec.fld]; omega
  have e2 : Dec.fld m_ 6 2 = g.val := (low_fld T.lo 6 2 (by decide)).trans (by simp only [Dec.fld]; omega)
  have e3 : Dec.ra m_ = a := Fin.ext T.fa
  have es : m_ % 64 = 6 := (low_mod T.lo 64 (by decide)).trans (by omega)
  clear hn
  rw [decode_bitsCls m_ hw hz hc]
  unfold Dec.bitsCls
  rw [es]
  show (Dec.zero (Dec.fld m_ 22 5 + Dec.fld m_ 8 9) (Dec.three (Dec.fld m_ 6 2) fun g => (Except.ok : Instr → Except Reject Instr) (.xprd (Dec.ra m_) g))) = _
  simp only [e0, e1, e2, e3, three_enc, zero_nil, Nat.add_zero]

theorem pcmp (c : Cc) (p : Pred) (a : Reg) (b : Reg) : Statement (.pcmp c p a b) := by
  have h_c := cc_lt c
  have h_p := p.isLt
  have h_a := a.isLt
  have h_b := b.isLt
  refine of_bits (14 * 134217728 + p.val * 1048576 + a.val * 32768 + b.val * 1024 + (Enc.cc c) * 64 + 1) rfl (by omega) fun m_ hn hw => ?_
  have hz : m_ ≠ 0 := by omega
  have hc : m_ / 134217728 = 14 := by omega
  have e0 : Dec.fld m_ 20 7 = p.val := by simp only [Dec.fld]; omega
  have e1 : Dec.fld m_ 6 4 = Enc.cc c := by simp only [Dec.fld]; omega
  have e2 : Dec.prb m_ = b := Fin.ext (by simp only [Dec.prb, Fin.ofNat]; omega)
  have e3 : Dec.pra m_ = a := Fin.ext (by simp only [Dec.pra, Fin.ofNat]; omega)
  have es : m_ % 64 = 1 := by omega
  clear hn
  rw [decode_predCls m_ hw hz hc]
  unfold Dec.predCls
  rw [es]
  show (Dec.pred (Dec.fld m_ 20 7) fun p => Dec.cc (Dec.fld m_ 6 4) fun c => (Except.ok : Instr → Except Reject Instr) (.pcmp c p (Dec.pra m_) (Dec.prb m_))) = _
  simp only [e0, e1, e2, e3, cc_enc, pred_enc]

theorem pcmpi (c : Cc) (p : Pred) (a : Reg) (i : BitVec 5) : Statement (.pcmpi c p a i) := by
  have h_c := cc_lt c
  have h_p := p.isLt
  have h_a := a.isLt
  have h_i := i.isLt
  refine of_bits (14 * 134217728 + p.val * 1048576 + a.val * 32768 + i.toNat * 1024 + (Enc.cc c) * 64 + 2) rfl (by omega) fun m_ hn hw => ?_
  have hz : m_ ≠ 0 := by omega
  have hc : m_ / 134217728 = 14 := by omega
  have e0 : Dec.fld m_ 20 7 = p.val := by simp only [Dec.fld]; omega
  have e1 : Dec.fld m_ 6 4 = Enc.cc c := by simp only [Dec.fld]; omega
  have e2 : Dec.pra m_ = a := Fin.ext (by simp only [Dec.pra, Fin.ofNat]; omega)
  have e3 : BitVec.ofNat 5 (m_ / 1024) = i := BitVec.eq_of_toNat_eq (by rw [BitVec.toNat_ofNat]; omega)
  have es : m_ % 64 = 2 := by omega
  clear hn
  rw [decode_predCls m_ hw hz hc]
  unfold Dec.predCls
  rw [es]
  show (Dec.pred (Dec.fld m_ 20 7) fun p => Dec.cc (Dec.fld m_ 6 4) fun c => (Except.ok : Instr → Except Reject Instr) (.pcmpi c p (Dec.pra m_) (BitVec.ofNat 5 (m_ / 1024)))) = _
  simp only [e0, e1, e2, e3, cc_enc, pred_enc]

theorem fcmp (c : Fcc) (p : Pred) (a : Reg) (b : Reg) : Statement (.fcmp c p a b) := by
  have h_c := fcc_lt c
  have h_p := p.isLt
  have h_a := a.isLt
  have h_b := b.isLt
  refine of_bits (14 * 134217728 + p.val * 1048576 + a.val * 32768 + b.val * 1024 + (Enc.fcc c) * 64 + 3) rfl (by omega) fun m_ hn hw => ?_
  have hz : m_ ≠ 0 := by omega
  have hc : m_ / 134217728 = 14 := by omega
  have e0 : Dec.fld m_ 20 7 = p.val := by simp only [Dec.fld]; omega
  have e1 : Dec.fld m_ 6 4 = Enc.fcc c := by simp only [Dec.fld]; omega
  have e2 : Dec.prb m_ = b := Fin.ext (by simp only [Dec.prb, Fin.ofNat]; omega)
  have e3 : Dec.pra m_ = a := Fin.ext (by simp only [Dec.pra, Fin.ofNat]; omega)
  have es : m_ % 64 = 3 := by omega
  clear hn
  rw [decode_predCls m_ hw hz hc]
  unfold Dec.predCls
  rw [es]
  show (Dec.pred (Dec.fld m_ 20 7) fun p => Dec.fcc (Dec.fld m_ 6 4) fun c => (Except.ok : Instr → Except Reject Instr) (.fcmp c p (Dec.pra m_) (Dec.prb m_))) = _
  simp only [e0, e1, e2, e3, fcc_enc, pred_enc]

theorem pand (p : Pred) (a : Pred) (b : Pred) : Statement (.pand p a b) := by
  have h_p := p.isLt
  have h_a := a.isLt
  have h_b := b.isLt
  refine of_bits (15 * 134217728 + p.val * 1048576 + a.val * 8192 + b.val * 64 + 1 * 8) rfl (by omega) fun m_ hn hw => ?_
  have hz : m_ ≠ 0 := by omega
  have hc : m_ / 134217728 = 15 := by omega
  have e0 : m_ % 8 = 0 := by omega
  have e1 : Dec.fld m_ 20 7 = p.val := by simp only [Dec.fld]; omega
  have e2 : Dec.fld m_ 13 7 = a.val := by simp only [Dec.fld]; omega
  have e3 : Dec.fld m_ 6 7 = b.val := by simp only [Dec.fld]; omega
  have e4 : Dec.fld m_ 3 3 = 1 := by simp only [Dec.fld]; omega
  clear hn
  rw [decode_plog m_ hw hz hc]
  simp only [Dec.plog, e0, e1, e2, e3, e4, pred_enc, zero_nil]

theorem por (p : Pred) (a : Pred) (b : Pred) : Statement (.por p a b) := by
  have h_p := p.isLt
  have h_a := a.isLt
  have h_b := b.isLt
  refine of_bits (15 * 134217728 + p.val * 1048576 + a.val * 8192 + b.val * 64 + 2 * 8) rfl (by omega) fun m_ hn hw => ?_
  have hz : m_ ≠ 0 := by omega
  have hc : m_ / 134217728 = 15 := by omega
  have e0 : m_ % 8 = 0 := by omega
  have e1 : Dec.fld m_ 20 7 = p.val := by simp only [Dec.fld]; omega
  have e2 : Dec.fld m_ 13 7 = a.val := by simp only [Dec.fld]; omega
  have e3 : Dec.fld m_ 6 7 = b.val := by simp only [Dec.fld]; omega
  have e4 : Dec.fld m_ 3 3 = 2 := by simp only [Dec.fld]; omega
  clear hn
  rw [decode_plog m_ hw hz hc]
  simp only [Dec.plog, e0, e1, e2, e3, e4, pred_enc, zero_nil]

theorem pxor (p : Pred) (a : Pred) (b : Pred) : Statement (.pxor p a b) := by
  have h_p := p.isLt
  have h_a := a.isLt
  have h_b := b.isLt
  refine of_bits (15 * 134217728 + p.val * 1048576 + a.val * 8192 + b.val * 64 + 3 * 8) rfl (by omega) fun m_ hn hw => ?_
  have hz : m_ ≠ 0 := by omega
  have hc : m_ / 134217728 = 15 := by omega
  have e0 : m_ % 8 = 0 := by omega
  have e1 : Dec.fld m_ 20 7 = p.val := by simp only [Dec.fld]; omega
  have e2 : Dec.fld m_ 13 7 = a.val := by simp only [Dec.fld]; omega
  have e3 : Dec.fld m_ 6 7 = b.val := by simp only [Dec.fld]; omega
  have e4 : Dec.fld m_ 3 3 = 3 := by simp only [Dec.fld]; omega
  clear hn
  rw [decode_plog m_ hw hz hc]
  simp only [Dec.plog, e0, e1, e2, e3, e4, pred_enc, zero_nil]

theorem pandn (p : Pred) (a : Pred) (b : Pred) : Statement (.pandn p a b) := by
  have h_p := p.isLt
  have h_a := a.isLt
  have h_b := b.isLt
  refine of_bits (15 * 134217728 + p.val * 1048576 + a.val * 8192 + b.val * 64 + 4 * 8) rfl (by omega) fun m_ hn hw => ?_
  have hz : m_ ≠ 0 := by omega
  have hc : m_ / 134217728 = 15 := by omega
  have e0 : m_ % 8 = 0 := by omega
  have e1 : Dec.fld m_ 20 7 = p.val := by simp only [Dec.fld]; omega
  have e2 : Dec.fld m_ 13 7 = a.val := by simp only [Dec.fld]; omega
  have e3 : Dec.fld m_ 6 7 = b.val := by simp only [Dec.fld]; omega
  have e4 : Dec.fld m_ 3 3 = 4 := by simp only [Dec.fld]; omega
  clear hn
  rw [decode_plog m_ hw hz hc]
  simp only [Dec.plog, e0, e1, e2, e3, e4, pred_enc, zero_nil]

theorem porn (p : Pred) (a : Pred) (b : Pred) : Statement (.porn p a b) := by
  have h_p := p.isLt
  have h_a := a.isLt
  have h_b := b.isLt
  refine of_bits (15 * 134217728 + p.val * 1048576 + a.val * 8192 + b.val * 64 + 5 * 8) rfl (by omega) fun m_ hn hw => ?_
  have hz : m_ ≠ 0 := by omega
  have hc : m_ / 134217728 = 15 := by omega
  have e0 : m_ % 8 = 0 := by omega
  have e1 : Dec.fld m_ 20 7 = p.val := by simp only [Dec.fld]; omega
  have e2 : Dec.fld m_ 13 7 = a.val := by simp only [Dec.fld]; omega
  have e3 : Dec.fld m_ 6 7 = b.val := by simp only [Dec.fld]; omega
  have e4 : Dec.fld m_ 3 3 = 5 := by simp only [Dec.fld]; omega
  clear hn
  rw [decode_plog m_ hw hz hc]
  simp only [Dec.plog, e0, e1, e2, e3, e4, pred_enc, zero_nil]

theorem pnot (p : Pred) (a : Pred) : Statement (.pnot p a) := by
  have h_p := p.isLt
  have h_a := a.isLt
  refine of_bits (15 * 134217728 + p.val * 1048576 + a.val * 8192 + 0 * 64 + 6 * 8) rfl (by omega) fun m_ hn hw => ?_
  have hz : m_ ≠ 0 := by omega
  have hc : m_ / 134217728 = 15 := by omega
  have e0 : m_ % 8 = 0 := by omega
  have e1 : Dec.fld m_ 20 7 = p.val := by simp only [Dec.fld]; omega
  have e2 : Dec.fld m_ 13 7 = a.val := by simp only [Dec.fld]; omega
  have e3 : Dec.fld m_ 6 7 = 0 := by simp only [Dec.fld]; omega
  have e4 : Dec.fld m_ 3 3 = 6 := by simp only [Dec.fld]; omega
  clear hn
  rw [decode_plog m_ hw hz hc]
  simp only [Dec.plog, e0, e1, e2, e3, e4, pred_enc, zero_nil, pred_zero]

theorem br (o : BitVec 25) : Statement (.br o) := by
  have h_o := o.isLt
  refine of_bits (16 * 134217728 + o.toNat) rfl (by omega) fun m_ hn hw => ?_
  have hz : m_ ≠ 0 := by omega
  have hc : m_ / 134217728 = 16 := by omega
  have e0 : BitVec.ofNat 25 m_ = o := BitVec.eq_of_toNat_eq (by rw [BitVec.toNat_ofNat]; omega)
  have es : Dec.fld m_ 25 2 = 0 := by simp only [Dec.fld]; omega
  clear hn
  rw [decode_branch m_ hw hz hc]
  unfold Dec.branch
  rw [es]
  show ((Except.ok : Instr → Except Reject Instr) (.br (BitVec.ofNat 25 m_))) = _
  simp only [e0]

theorem call (o : BitVec 25) : Statement (.call o) := by
  have h_o := o.isLt
  refine of_bits (16 * 134217728 + 33554432 + o.toNat) rfl (by omega) fun m_ hn hw => ?_
  have hz : m_ ≠ 0 := by omega
  have hc : m_ / 134217728 = 16 := by omega
  have e0 : BitVec.ofNat 25 m_ = o := BitVec.eq_of_toNat_eq (by rw [BitVec.toNat_ofNat]; omega)
  have es : Dec.fld m_ 25 2 = 1 := by simp only [Dec.fld]; omega
  clear hn
  rw [decode_branch m_ hw hz hc]
  unfold Dec.branch
  rw [es]
  show ((Except.ok : Instr → Except Reject Instr) (.call (BitVec.ofNat 25 m_))) = _
  simp only [e0]

theorem brp (p : Pred) (o : BitVec 18) : Statement (.brp p o) := by
  have h_p := p.isLt
  have h_o := o.isLt
  refine of_bits (16 * 134217728 + 2 * 33554432 + p.val * 262144 + o.toNat) rfl (by omega) fun m_ hn hw => ?_
  have hz : m_ ≠ 0 := by omega
  have hc : m_ / 134217728 = 16 := by omega
  have e0 : Dec.fld m_ 18 7 = p.val := by simp only [Dec.fld]; omega
  have e1 : BitVec.ofNat 18 m_ = o := BitVec.eq_of_toNat_eq (by rw [BitVec.toNat_ofNat]; omega)
  have es : Dec.fld m_ 25 2 = 2 := by simp only [Dec.fld]; omega
  clear hn
  rw [decode_branch m_ hw hz hc]
  unfold Dec.branch
  rw [es]
  show (Dec.pred (Dec.fld m_ 18 7) fun p => (Except.ok : Instr → Except Reject Instr) (.brp p (BitVec.ofNat 18 m_))) = _
  simp only [e0, e1, pred_enc]

theorem brn (p : Pred) (o : BitVec 18) : Statement (.brn p o) := by
  have h_p := p.isLt
  have h_o := o.isLt
  refine of_bits (16 * 134217728 + 3 * 33554432 + p.val * 262144 + o.toNat) rfl (by omega) fun m_ hn hw => ?_
  have hz : m_ ≠ 0 := by omega
  have hc : m_ / 134217728 = 16 := by omega
  have e0 : Dec.fld m_ 18 7 = p.val := by simp only [Dec.fld]; omega
  have e1 : BitVec.ofNat 18 m_ = o := BitVec.eq_of_toNat_eq (by rw [BitVec.toNat_ofNat]; omega)
  have es : Dec.fld m_ 25 2 = 3 := by simp only [Dec.fld]; omega
  clear hn
  rw [decode_branch m_ hw hz hc]
  unfold Dec.branch
  rw [es]
  show (Dec.pred (Dec.fld m_ 18 7) fun p => (Except.ok : Instr → Except Reject Instr) (.brn p (BitVec.ofNat 18 m_))) = _
  simp only [e0, e1, pred_enc]

theorem jmpr (a : Reg) : Statement (.jmpr a) := by
  have h_a := a.isLt
  refine of_bits (17 * 134217728 + 0 * 4194304 + a.val * 131072 + 0 * 4096 + 1) rfl (tri_lt _ _ _ _ _ (by decide) (by decide) a.isLt (by decide) (by decide)) fun m_ hn hw => ?_
  have T := tri_facts 17 0 a.val 0 1 (by decide) a.isLt (by decide) (by decide) m_ hn
  have hz : m_ ≠ 0 := T.ne_of_cls (by decide)
  have hc := T.cls
  have e0 : Dec.fld m_ 22 5 = 0 := T.fd
  have e1 : Dec.fld m_ 12 5 = 0 := T.fb
  have e2 : Dec.fld m_ 6 6 = 0 := (low_fld T.lo 6 6 (by decide)).trans rfl
  have e3 : Dec.ra m_ = a := Fin.ext T.fa
  have es : m_ % 64 = 1 := (low_mod T.lo 64 (by decide)).trans rfl
  clear hn
  rw [decode_jumpr m_ hw hz hc]
  unfold Dec.jumpr
  rw [es]
  show (Dec.zero (Dec.fld m_ 22 5 + Dec.fld m_ 12 5 + Dec.fld m_ 6 6) ((Except.ok : Instr → Except Reject Instr) (.jmpr (Dec.ra m_)))) = _
  simp only [e0, e1, e2, e3, zero_nil, Nat.add_zero]

theorem callr (a : Reg) : Statement (.callr a) := by
  have h_a := a.isLt
  refine of_bits (17 * 134217728 + 0 * 4194304 + a.val * 131072 + 0 * 4096 + 2) rfl (tri_lt _ _ _ _ _ (by decide) (by decide) a.isLt (by decide) (by decide)) fun m_ hn hw => ?_
  have T := tri_facts 17 0 a.val 0 2 (by decide) a.isLt (by decide) (by decide) m_ hn
  have hz : m_ ≠ 0 := T.ne_of_cls (by decide)
  have hc := T.cls
  have e0 : Dec.fld m_ 22 5 = 0 := T.fd
  have e1 : Dec.fld m_ 12 5 = 0 := T.fb
  have e2 : Dec.fld m_ 6 6 = 0 := (low_fld T.lo 6 6 (by decide)).trans rfl
  have e3 : Dec.ra m_ = a := Fin.ext T.fa
  have es : m_ % 64 = 2 := (low_mod T.lo 64 (by decide)).trans rfl
  clear hn
  rw [decode_jumpr m_ hw hz hc]
  unfold Dec.jumpr
  rw [es]
  show (Dec.zero (Dec.fld m_ 22 5 + Dec.fld m_ 12 5 + Dec.fld m_ 6 6) ((Except.ok : Instr → Except Reject Instr) (.callr (Dec.ra m_)))) = _
  simp only [e0, e1, e2, e3, zero_nil, Nat.add_zero]

theorem ret : Statement (.ret) := by
  refine of_bits (17 * 134217728 + 0 * 4194304 + 0 * 131072 + 0 * 4096 + 3) rfl (tri_lt _ _ _ _ _ (by decide) (by decide) (by decide) (by decide) (by decide)) fun m_ hn hw => ?_
  have T := tri_facts 17 0 0 0 3 (by decide) (by decide) (by decide) (by decide) m_ hn
  have hz : m_ ≠ 0 := T.ne_of_cls (by decide)
  have hc := T.cls
  have e0 : Dec.fld m_ 22 5 = 0 := T.fd
  have e1 : Dec.fld m_ 17 5 = 0 := T.fa
  have e2 : Dec.fld m_ 12 5 = 0 := T.fb
  have e3 : Dec.fld m_ 6 6 = 0 := (low_fld T.lo 6 6 (by decide)).trans rfl
  have es : m_ % 64 = 3 := (low_mod T.lo 64 (by decide)).trans rfl
  clear hn
  rw [decode_jumpr m_ hw hz hc]
  unfold Dec.jumpr
  rw [es]
  show (Dec.zero (Dec.fld m_ 22 5 + Dec.fld m_ 17 5 + Dec.fld m_ 12 5 + Dec.fld m_ 6 6) ((Except.ok : Instr → Except Reject Instr) (.ret))) = _
  simp only [e0, e1, e2, e3, zero_nil, Nat.add_zero]

theorem fadd (r : Rnd) (d : Reg) (a : Reg) (b : Reg) : Statement (.fadd r d a b) := by
  have h_r := rnd_lt r
  have h_d := d.isLt
  have h_a := a.isLt
  have h_b := b.isLt
  refine of_bits (18 * 134217728 + d.val * 4194304 + a.val * 131072 + b.val * 4096 + (Enc.rnd r * 512 + 1)) rfl (tri_lt _ _ _ _ _ (by decide) d.isLt a.isLt b.isLt (by omega)) fun m_ hn hw => ?_
  have T := tri_facts 18 d.val a.val b.val (Enc.rnd r * 512 + 1) d.isLt a.isLt b.isLt (by omega) m_ hn
  have hz : m_ ≠ 0 := T.ne_of_cls (by decide)
  have hc := T.cls
  have e0 : Dec.fld m_ 9 3 = Enc.rnd r := (low_fld T.lo 9 3 (by decide)).trans (by simp only [Dec.fld]; omega)
  have e1 : Dec.ra m_ = a := Fin.ext T.fa
  have e2 : Dec.rd m_ = d := Fin.ext T.fd
  have e3 : Dec.rb m_ = b := Fin.ext T.fb
  have es : m_ % 512 = 1 := (low_mod T.lo 512 (by decide)).trans (by omega)
  clear hn
  rw [decode_fpu m_ hw hz hc]
  unfold Dec.fpu
  rw [e0, rnd_enc]
  rw [es]
  show ((Except.ok : Instr → Except Reject Instr) (.fadd r (Dec.rd m_) (Dec.ra m_) (Dec.rb m_))) = _
  simp only [e1, e2, e3]

theorem fsub (r : Rnd) (d : Reg) (a : Reg) (b : Reg) : Statement (.fsub r d a b) := by
  have h_r := rnd_lt r
  have h_d := d.isLt
  have h_a := a.isLt
  have h_b := b.isLt
  refine of_bits (18 * 134217728 + d.val * 4194304 + a.val * 131072 + b.val * 4096 + (Enc.rnd r * 512 + 2)) rfl (tri_lt _ _ _ _ _ (by decide) d.isLt a.isLt b.isLt (by omega)) fun m_ hn hw => ?_
  have T := tri_facts 18 d.val a.val b.val (Enc.rnd r * 512 + 2) d.isLt a.isLt b.isLt (by omega) m_ hn
  have hz : m_ ≠ 0 := T.ne_of_cls (by decide)
  have hc := T.cls
  have e0 : Dec.fld m_ 9 3 = Enc.rnd r := (low_fld T.lo 9 3 (by decide)).trans (by simp only [Dec.fld]; omega)
  have e1 : Dec.ra m_ = a := Fin.ext T.fa
  have e2 : Dec.rd m_ = d := Fin.ext T.fd
  have e3 : Dec.rb m_ = b := Fin.ext T.fb
  have es : m_ % 512 = 2 := (low_mod T.lo 512 (by decide)).trans (by omega)
  clear hn
  rw [decode_fpu m_ hw hz hc]
  unfold Dec.fpu
  rw [e0, rnd_enc]
  rw [es]
  show ((Except.ok : Instr → Except Reject Instr) (.fsub r (Dec.rd m_) (Dec.ra m_) (Dec.rb m_))) = _
  simp only [e1, e2, e3]

theorem fmul (r : Rnd) (d : Reg) (a : Reg) (b : Reg) : Statement (.fmul r d a b) := by
  have h_r := rnd_lt r
  have h_d := d.isLt
  have h_a := a.isLt
  have h_b := b.isLt
  refine of_bits (18 * 134217728 + d.val * 4194304 + a.val * 131072 + b.val * 4096 + (Enc.rnd r * 512 + 3)) rfl (tri_lt _ _ _ _ _ (by decide) d.isLt a.isLt b.isLt (by omega)) fun m_ hn hw => ?_
  have T := tri_facts 18 d.val a.val b.val (Enc.rnd r * 512 + 3) d.isLt a.isLt b.isLt (by omega) m_ hn
  have hz : m_ ≠ 0 := T.ne_of_cls (by decide)
  have hc := T.cls
  have e0 : Dec.fld m_ 9 3 = Enc.rnd r := (low_fld T.lo 9 3 (by decide)).trans (by simp only [Dec.fld]; omega)
  have e1 : Dec.ra m_ = a := Fin.ext T.fa
  have e2 : Dec.rd m_ = d := Fin.ext T.fd
  have e3 : Dec.rb m_ = b := Fin.ext T.fb
  have es : m_ % 512 = 3 := (low_mod T.lo 512 (by decide)).trans (by omega)
  clear hn
  rw [decode_fpu m_ hw hz hc]
  unfold Dec.fpu
  rw [e0, rnd_enc]
  rw [es]
  show ((Except.ok : Instr → Except Reject Instr) (.fmul r (Dec.rd m_) (Dec.ra m_) (Dec.rb m_))) = _
  simp only [e1, e2, e3]

theorem fdiv (r : Rnd) (d : Reg) (a : Reg) (b : Reg) : Statement (.fdiv r d a b) := by
  have h_r := rnd_lt r
  have h_d := d.isLt
  have h_a := a.isLt
  have h_b := b.isLt
  refine of_bits (18 * 134217728 + d.val * 4194304 + a.val * 131072 + b.val * 4096 + (Enc.rnd r * 512 + 4)) rfl (tri_lt _ _ _ _ _ (by decide) d.isLt a.isLt b.isLt (by omega)) fun m_ hn hw => ?_
  have T := tri_facts 18 d.val a.val b.val (Enc.rnd r * 512 + 4) d.isLt a.isLt b.isLt (by omega) m_ hn
  have hz : m_ ≠ 0 := T.ne_of_cls (by decide)
  have hc := T.cls
  have e0 : Dec.fld m_ 9 3 = Enc.rnd r := (low_fld T.lo 9 3 (by decide)).trans (by simp only [Dec.fld]; omega)
  have e1 : Dec.ra m_ = a := Fin.ext T.fa
  have e2 : Dec.rd m_ = d := Fin.ext T.fd
  have e3 : Dec.rb m_ = b := Fin.ext T.fb
  have es : m_ % 512 = 4 := (low_mod T.lo 512 (by decide)).trans (by omega)
  clear hn
  rw [decode_fpu m_ hw hz hc]
  unfold Dec.fpu
  rw [e0, rnd_enc]
  rw [es]
  show ((Except.ok : Instr → Except Reject Instr) (.fdiv r (Dec.rd m_) (Dec.ra m_) (Dec.rb m_))) = _
  simp only [e1, e2, e3]

theorem fsqrt (r : Rnd) (d : Reg) (a : Reg) : Statement (.fsqrt r d a) := by
  have h_r := rnd_lt r
  have h_d := d.isLt
  have h_a := a.isLt
  refine of_bits (18 * 134217728 + d.val * 4194304 + a.val * 131072 + 0 * 4096 + (Enc.rnd r * 512 + 5)) rfl (tri_lt _ _ _ _ _ (by decide) d.isLt a.isLt (by decide) (by omega)) fun m_ hn hw => ?_
  have T := tri_facts 18 d.val a.val 0 (Enc.rnd r * 512 + 5) d.isLt a.isLt (by decide) (by omega) m_ hn
  have hz : m_ ≠ 0 := T.ne_of_cls (by decide)
  have hc := T.cls
  have e0 : Dec.fld m_ 9 3 = Enc.rnd r := (low_fld T.lo 9 3 (by decide)).trans (by simp only [Dec.fld]; omega)
  have e1 : Dec.fld m_ 12 5 = 0 := T.fb
  have e2 : Dec.ra m_ = a := Fin.ext T.fa
  have e3 : Dec.rd m_ = d := Fin.ext T.fd
  have es : m_ % 512 = 5 := (low_mod T.lo 512 (by decide)).trans (by omega)
  clear hn
  rw [decode_fpu m_ hw hz hc]
  unfold Dec.fpu
  rw [e0, rnd_enc]
  rw [es]
  show (Dec.zero (Dec.fld m_ 12 5) ((Except.ok : Instr → Except Reject Instr) (.fsqrt r (Dec.rd m_) (Dec.ra m_)))) = _
  simp only [e1, e2, e3, zero_nil]

theorem fmin (r : Rnd) (d : Reg) (a : Reg) (b : Reg) : Statement (.fmin r d a b) := by
  have h_r := rnd_lt r
  have h_d := d.isLt
  have h_a := a.isLt
  have h_b := b.isLt
  refine of_bits (18 * 134217728 + d.val * 4194304 + a.val * 131072 + b.val * 4096 + (Enc.rnd r * 512 + 6)) rfl (tri_lt _ _ _ _ _ (by decide) d.isLt a.isLt b.isLt (by omega)) fun m_ hn hw => ?_
  have T := tri_facts 18 d.val a.val b.val (Enc.rnd r * 512 + 6) d.isLt a.isLt b.isLt (by omega) m_ hn
  have hz : m_ ≠ 0 := T.ne_of_cls (by decide)
  have hc := T.cls
  have e0 : Dec.fld m_ 9 3 = Enc.rnd r := (low_fld T.lo 9 3 (by decide)).trans (by simp only [Dec.fld]; omega)
  have e1 : Dec.ra m_ = a := Fin.ext T.fa
  have e2 : Dec.rd m_ = d := Fin.ext T.fd
  have e3 : Dec.rb m_ = b := Fin.ext T.fb
  have es : m_ % 512 = 6 := (low_mod T.lo 512 (by decide)).trans (by omega)
  clear hn
  rw [decode_fpu m_ hw hz hc]
  unfold Dec.fpu
  rw [e0, rnd_enc]
  rw [es]
  show ((Except.ok : Instr → Except Reject Instr) (.fmin r (Dec.rd m_) (Dec.ra m_) (Dec.rb m_))) = _
  simp only [e1, e2, e3]

theorem fmax (r : Rnd) (d : Reg) (a : Reg) (b : Reg) : Statement (.fmax r d a b) := by
  have h_r := rnd_lt r
  have h_d := d.isLt
  have h_a := a.isLt
  have h_b := b.isLt
  refine of_bits (18 * 134217728 + d.val * 4194304 + a.val * 131072 + b.val * 4096 + (Enc.rnd r * 512 + 7)) rfl (tri_lt _ _ _ _ _ (by decide) d.isLt a.isLt b.isLt (by omega)) fun m_ hn hw => ?_
  have T := tri_facts 18 d.val a.val b.val (Enc.rnd r * 512 + 7) d.isLt a.isLt b.isLt (by omega) m_ hn
  have hz : m_ ≠ 0 := T.ne_of_cls (by decide)
  have hc := T.cls
  have e0 : Dec.fld m_ 9 3 = Enc.rnd r := (low_fld T.lo 9 3 (by decide)).trans (by simp only [Dec.fld]; omega)
  have e1 : Dec.ra m_ = a := Fin.ext T.fa
  have e2 : Dec.rd m_ = d := Fin.ext T.fd
  have e3 : Dec.rb m_ = b := Fin.ext T.fb
  have es : m_ % 512 = 7 := (low_mod T.lo 512 (by decide)).trans (by omega)
  clear hn
  rw [decode_fpu m_ hw hz hc]
  unfold Dec.fpu
  rw [e0, rnd_enc]
  rw [es]
  show ((Except.ok : Instr → Except Reject Instr) (.fmax r (Dec.rd m_) (Dec.ra m_) (Dec.rb m_))) = _
  simp only [e1, e2, e3]

theorem fabs (r : Rnd) (d : Reg) (a : Reg) : Statement (.fabs r d a) := by
  have h_r := rnd_lt r
  have h_d := d.isLt
  have h_a := a.isLt
  refine of_bits (18 * 134217728 + d.val * 4194304 + a.val * 131072 + 0 * 4096 + (Enc.rnd r * 512 + 8)) rfl (tri_lt _ _ _ _ _ (by decide) d.isLt a.isLt (by decide) (by omega)) fun m_ hn hw => ?_
  have T := tri_facts 18 d.val a.val 0 (Enc.rnd r * 512 + 8) d.isLt a.isLt (by decide) (by omega) m_ hn
  have hz : m_ ≠ 0 := T.ne_of_cls (by decide)
  have hc := T.cls
  have e0 : Dec.fld m_ 9 3 = Enc.rnd r := (low_fld T.lo 9 3 (by decide)).trans (by simp only [Dec.fld]; omega)
  have e1 : Dec.fld m_ 12 5 = 0 := T.fb
  have e2 : Dec.ra m_ = a := Fin.ext T.fa
  have e3 : Dec.rd m_ = d := Fin.ext T.fd
  have es : m_ % 512 = 8 := (low_mod T.lo 512 (by decide)).trans (by omega)
  clear hn
  rw [decode_fpu m_ hw hz hc]
  unfold Dec.fpu
  rw [e0, rnd_enc]
  rw [es]
  show (Dec.zero (Dec.fld m_ 12 5) ((Except.ok : Instr → Except Reject Instr) (.fabs r (Dec.rd m_) (Dec.ra m_)))) = _
  simp only [e1, e2, e3, zero_nil]

theorem fneg (r : Rnd) (d : Reg) (a : Reg) : Statement (.fneg r d a) := by
  have h_r := rnd_lt r
  have h_d := d.isLt
  have h_a := a.isLt
  refine of_bits (18 * 134217728 + d.val * 4194304 + a.val * 131072 + 0 * 4096 + (Enc.rnd r * 512 + 9)) rfl (tri_lt _ _ _ _ _ (by decide) d.isLt a.isLt (by decide) (by omega)) fun m_ hn hw => ?_
  have T := tri_facts 18 d.val a.val 0 (Enc.rnd r * 512 + 9) d.isLt a.isLt (by decide) (by omega) m_ hn
  have hz : m_ ≠ 0 := T.ne_of_cls (by decide)
  have hc := T.cls
  have e0 : Dec.fld m_ 9 3 = Enc.rnd r := (low_fld T.lo 9 3 (by decide)).trans (by simp only [Dec.fld]; omega)
  have e1 : Dec.fld m_ 12 5 = 0 := T.fb
  have e2 : Dec.ra m_ = a := Fin.ext T.fa
  have e3 : Dec.rd m_ = d := Fin.ext T.fd
  have es : m_ % 512 = 9 := (low_mod T.lo 512 (by decide)).trans (by omega)
  clear hn
  rw [decode_fpu m_ hw hz hc]
  unfold Dec.fpu
  rw [e0, rnd_enc]
  rw [es]
  show (Dec.zero (Dec.fld m_ 12 5) ((Except.ok : Instr → Except Reject Instr) (.fneg r (Dec.rd m_) (Dec.ra m_)))) = _
  simp only [e1, e2, e3, zero_nil]

theorem fsgnj (r : Rnd) (d : Reg) (a : Reg) (b : Reg) : Statement (.fsgnj r d a b) := by
  have h_r := rnd_lt r
  have h_d := d.isLt
  have h_a := a.isLt
  have h_b := b.isLt
  refine of_bits (18 * 134217728 + d.val * 4194304 + a.val * 131072 + b.val * 4096 + (Enc.rnd r * 512 + 10)) rfl (tri_lt _ _ _ _ _ (by decide) d.isLt a.isLt b.isLt (by omega)) fun m_ hn hw => ?_
  have T := tri_facts 18 d.val a.val b.val (Enc.rnd r * 512 + 10) d.isLt a.isLt b.isLt (by omega) m_ hn
  have hz : m_ ≠ 0 := T.ne_of_cls (by decide)
  have hc := T.cls
  have e0 : Dec.fld m_ 9 3 = Enc.rnd r := (low_fld T.lo 9 3 (by decide)).trans (by simp only [Dec.fld]; omega)
  have e1 : Dec.ra m_ = a := Fin.ext T.fa
  have e2 : Dec.rd m_ = d := Fin.ext T.fd
  have e3 : Dec.rb m_ = b := Fin.ext T.fb
  have es : m_ % 512 = 10 := (low_mod T.lo 512 (by decide)).trans (by omega)
  clear hn
  rw [decode_fpu m_ hw hz hc]
  unfold Dec.fpu
  rw [e0, rnd_enc]
  rw [es]
  show ((Except.ok : Instr → Except Reject Instr) (.fsgnj r (Dec.rd m_) (Dec.ra m_) (Dec.rb m_))) = _
  simp only [e1, e2, e3]

theorem frcp (r : Rnd) (d : Reg) (a : Reg) : Statement (.frcp r d a) := by
  have h_r := rnd_lt r
  have h_d := d.isLt
  have h_a := a.isLt
  refine of_bits (18 * 134217728 + d.val * 4194304 + a.val * 131072 + 0 * 4096 + (Enc.rnd r * 512 + 11)) rfl (tri_lt _ _ _ _ _ (by decide) d.isLt a.isLt (by decide) (by omega)) fun m_ hn hw => ?_
  have T := tri_facts 18 d.val a.val 0 (Enc.rnd r * 512 + 11) d.isLt a.isLt (by decide) (by omega) m_ hn
  have hz : m_ ≠ 0 := T.ne_of_cls (by decide)
  have hc := T.cls
  have e0 : Dec.fld m_ 9 3 = Enc.rnd r := (low_fld T.lo 9 3 (by decide)).trans (by simp only [Dec.fld]; omega)
  have e1 : Dec.fld m_ 12 5 = 0 := T.fb
  have e2 : Dec.ra m_ = a := Fin.ext T.fa
  have e3 : Dec.rd m_ = d := Fin.ext T.fd
  have es : m_ % 512 = 11 := (low_mod T.lo 512 (by decide)).trans (by omega)
  clear hn
  rw [decode_fpu m_ hw hz hc]
  unfold Dec.fpu
  rw [e0, rnd_enc]
  rw [es]
  show (Dec.zero (Dec.fld m_ 12 5) ((Except.ok : Instr → Except Reject Instr) (.frcp r (Dec.rd m_) (Dec.ra m_)))) = _
  simp only [e1, e2, e3, zero_nil]

theorem frsq (r : Rnd) (d : Reg) (a : Reg) : Statement (.frsq r d a) := by
  have h_r := rnd_lt r
  have h_d := d.isLt
  have h_a := a.isLt
  refine of_bits (18 * 134217728 + d.val * 4194304 + a.val * 131072 + 0 * 4096 + (Enc.rnd r * 512 + 12)) rfl (tri_lt _ _ _ _ _ (by decide) d.isLt a.isLt (by decide) (by omega)) fun m_ hn hw => ?_
  have T := tri_facts 18 d.val a.val 0 (Enc.rnd r * 512 + 12) d.isLt a.isLt (by decide) (by omega) m_ hn
  have hz : m_ ≠ 0 := T.ne_of_cls (by decide)
  have hc := T.cls
  have e0 : Dec.fld m_ 9 3 = Enc.rnd r := (low_fld T.lo 9 3 (by decide)).trans (by simp only [Dec.fld]; omega)
  have e1 : Dec.fld m_ 12 5 = 0 := T.fb
  have e2 : Dec.ra m_ = a := Fin.ext T.fa
  have e3 : Dec.rd m_ = d := Fin.ext T.fd
  have es : m_ % 512 = 12 := (low_mod T.lo 512 (by decide)).trans (by omega)
  clear hn
  rw [decode_fpu m_ hw hz hc]
  unfold Dec.fpu
  rw [e0, rnd_enc]
  rw [es]
  show (Dec.zero (Dec.fld m_ 12 5) ((Except.ok : Instr → Except Reject Instr) (.frsq r (Dec.rd m_) (Dec.ra m_)))) = _
  simp only [e1, e2, e3, zero_nil]

theorem fexp2 (r : Rnd) (d : Reg) (a : Reg) : Statement (.fexp2 r d a) := by
  have h_r := rnd_lt r
  have h_d := d.isLt
  have h_a := a.isLt
  refine of_bits (18 * 134217728 + d.val * 4194304 + a.val * 131072 + 0 * 4096 + (Enc.rnd r * 512 + 13)) rfl (tri_lt _ _ _ _ _ (by decide) d.isLt a.isLt (by decide) (by omega)) fun m_ hn hw => ?_
  have T := tri_facts 18 d.val a.val 0 (Enc.rnd r * 512 + 13) d.isLt a.isLt (by decide) (by omega) m_ hn
  have hz : m_ ≠ 0 := T.ne_of_cls (by decide)
  have hc := T.cls
  have e0 : Dec.fld m_ 9 3 = Enc.rnd r := (low_fld T.lo 9 3 (by decide)).trans (by simp only [Dec.fld]; omega)
  have e1 : Dec.fld m_ 12 5 = 0 := T.fb
  have e2 : Dec.ra m_ = a := Fin.ext T.fa
  have e3 : Dec.rd m_ = d := Fin.ext T.fd
  have es : m_ % 512 = 13 := (low_mod T.lo 512 (by decide)).trans (by omega)
  clear hn
  rw [decode_fpu m_ hw hz hc]
  unfold Dec.fpu
  rw [e0, rnd_enc]
  rw [es]
  show (Dec.zero (Dec.fld m_ 12 5) ((Except.ok : Instr → Except Reject Instr) (.fexp2 r (Dec.rd m_) (Dec.ra m_)))) = _
  simp only [e1, e2, e3, zero_nil]

theorem flog2 (r : Rnd) (d : Reg) (a : Reg) : Statement (.flog2 r d a) := by
  have h_r := rnd_lt r
  have h_d := d.isLt
  have h_a := a.isLt
  refine of_bits (18 * 134217728 + d.val * 4194304 + a.val * 131072 + 0 * 4096 + (Enc.rnd r * 512 + 14)) rfl (tri_lt _ _ _ _ _ (by decide) d.isLt a.isLt (by decide) (by omega)) fun m_ hn hw => ?_
  have T := tri_facts 18 d.val a.val 0 (Enc.rnd r * 512 + 14) d.isLt a.isLt (by decide) (by omega) m_ hn
  have hz : m_ ≠ 0 := T.ne_of_cls (by decide)
  have hc := T.cls
  have e0 : Dec.fld m_ 9 3 = Enc.rnd r := (low_fld T.lo 9 3 (by decide)).trans (by simp only [Dec.fld]; omega)
  have e1 : Dec.fld m_ 12 5 = 0 := T.fb
  have e2 : Dec.ra m_ = a := Fin.ext T.fa
  have e3 : Dec.rd m_ = d := Fin.ext T.fd
  have es : m_ % 512 = 14 := (low_mod T.lo 512 (by decide)).trans (by omega)
  clear hn
  rw [decode_fpu m_ hw hz hc]
  unfold Dec.fpu
  rw [e0, rnd_enc]
  rw [es]
  show (Dec.zero (Dec.fld m_ 12 5) ((Except.ok : Instr → Except Reject Instr) (.flog2 r (Dec.rd m_) (Dec.ra m_)))) = _
  simp only [e1, e2, e3, zero_nil]

theorem fsin (r : Rnd) (d : Reg) (a : Reg) : Statement (.fsin r d a) := by
  have h_r := rnd_lt r
  have h_d := d.isLt
  have h_a := a.isLt
  refine of_bits (18 * 134217728 + d.val * 4194304 + a.val * 131072 + 0 * 4096 + (Enc.rnd r * 512 + 15)) rfl (tri_lt _ _ _ _ _ (by decide) d.isLt a.isLt (by decide) (by omega)) fun m_ hn hw => ?_
  have T := tri_facts 18 d.val a.val 0 (Enc.rnd r * 512 + 15) d.isLt a.isLt (by decide) (by omega) m_ hn
  have hz : m_ ≠ 0 := T.ne_of_cls (by decide)
  have hc := T.cls
  have e0 : Dec.fld m_ 9 3 = Enc.rnd r := (low_fld T.lo 9 3 (by decide)).trans (by simp only [Dec.fld]; omega)
  have e1 : Dec.fld m_ 12 5 = 0 := T.fb
  have e2 : Dec.ra m_ = a := Fin.ext T.fa
  have e3 : Dec.rd m_ = d := Fin.ext T.fd
  have es : m_ % 512 = 15 := (low_mod T.lo 512 (by decide)).trans (by omega)
  clear hn
  rw [decode_fpu m_ hw hz hc]
  unfold Dec.fpu
  rw [e0, rnd_enc]
  rw [es]
  show (Dec.zero (Dec.fld m_ 12 5) ((Except.ok : Instr → Except Reject Instr) (.fsin r (Dec.rd m_) (Dec.ra m_)))) = _
  simp only [e1, e2, e3, zero_nil]

theorem fcos (r : Rnd) (d : Reg) (a : Reg) : Statement (.fcos r d a) := by
  have h_r := rnd_lt r
  have h_d := d.isLt
  have h_a := a.isLt
  refine of_bits (18 * 134217728 + d.val * 4194304 + a.val * 131072 + 0 * 4096 + (Enc.rnd r * 512 + 16)) rfl (tri_lt _ _ _ _ _ (by decide) d.isLt a.isLt (by decide) (by omega)) fun m_ hn hw => ?_
  have T := tri_facts 18 d.val a.val 0 (Enc.rnd r * 512 + 16) d.isLt a.isLt (by decide) (by omega) m_ hn
  have hz : m_ ≠ 0 := T.ne_of_cls (by decide)
  have hc := T.cls
  have e0 : Dec.fld m_ 9 3 = Enc.rnd r := (low_fld T.lo 9 3 (by decide)).trans (by simp only [Dec.fld]; omega)
  have e1 : Dec.fld m_ 12 5 = 0 := T.fb
  have e2 : Dec.ra m_ = a := Fin.ext T.fa
  have e3 : Dec.rd m_ = d := Fin.ext T.fd
  have es : m_ % 512 = 16 := (low_mod T.lo 512 (by decide)).trans (by omega)
  clear hn
  rw [decode_fpu m_ hw hz hc]
  unfold Dec.fpu
  rw [e0, rnd_enc]
  rw [es]
  show (Dec.zero (Dec.fld m_ 12 5) ((Except.ok : Instr → Except Reject Instr) (.fcos r (Dec.rd m_) (Dec.ra m_)))) = _
  simp only [e1, e2, e3, zero_nil]

theorem fclass (r : Rnd) (d : Reg) (a : Reg) : Statement (.fclass r d a) := by
  have h_r := rnd_lt r
  have h_d := d.isLt
  have h_a := a.isLt
  refine of_bits (18 * 134217728 + d.val * 4194304 + a.val * 131072 + 0 * 4096 + (Enc.rnd r * 512 + 17)) rfl (tri_lt _ _ _ _ _ (by decide) d.isLt a.isLt (by decide) (by omega)) fun m_ hn hw => ?_
  have T := tri_facts 18 d.val a.val 0 (Enc.rnd r * 512 + 17) d.isLt a.isLt (by decide) (by omega) m_ hn
  have hz : m_ ≠ 0 := T.ne_of_cls (by decide)
  have hc := T.cls
  have e0 : Dec.fld m_ 9 3 = Enc.rnd r := (low_fld T.lo 9 3 (by decide)).trans (by simp only [Dec.fld]; omega)
  have e1 : Dec.fld m_ 12 5 = 0 := T.fb
  have e2 : Dec.ra m_ = a := Fin.ext T.fa
  have e3 : Dec.rd m_ = d := Fin.ext T.fd
  have es : m_ % 512 = 17 := (low_mod T.lo 512 (by decide)).trans (by omega)
  clear hn
  rw [decode_fpu m_ hw hz hc]
  unfold Dec.fpu
  rw [e0, rnd_enc]
  rw [es]
  show (Dec.zero (Dec.fld m_ 12 5) ((Except.ok : Instr → Except Reject Instr) (.fclass r (Dec.rd m_) (Dec.ra m_)))) = _
  simp only [e1, e2, e3, zero_nil]

theorem f2i (r : Rnd) (d : Reg) (a : Reg) : Statement (.f2i r d a) := by
  have h_r := rnd_lt r
  have h_d := d.isLt
  have h_a := a.isLt
  refine of_bits (18 * 134217728 + d.val * 4194304 + a.val * 131072 + 0 * 4096 + (Enc.rnd r * 512 + 18)) rfl (tri_lt _ _ _ _ _ (by decide) d.isLt a.isLt (by decide) (by omega)) fun m_ hn hw => ?_
  have T := tri_facts 18 d.val a.val 0 (Enc.rnd r * 512 + 18) d.isLt a.isLt (by decide) (by omega) m_ hn
  have hz : m_ ≠ 0 := T.ne_of_cls (by decide)
  have hc := T.cls
  have e0 : Dec.fld m_ 9 3 = Enc.rnd r := (low_fld T.lo 9 3 (by decide)).trans (by simp only [Dec.fld]; omega)
  have e1 : Dec.fld m_ 12 5 = 0 := T.fb
  have e2 : Dec.ra m_ = a := Fin.ext T.fa
  have e3 : Dec.rd m_ = d := Fin.ext T.fd
  have es : m_ % 512 = 18 := (low_mod T.lo 512 (by decide)).trans (by omega)
  clear hn
  rw [decode_fpu m_ hw hz hc]
  unfold Dec.fpu
  rw [e0, rnd_enc]
  rw [es]
  show (Dec.zero (Dec.fld m_ 12 5) ((Except.ok : Instr → Except Reject Instr) (.f2i r (Dec.rd m_) (Dec.ra m_)))) = _
  simp only [e1, e2, e3, zero_nil]

theorem f2iu (r : Rnd) (d : Reg) (a : Reg) : Statement (.f2iu r d a) := by
  have h_r := rnd_lt r
  have h_d := d.isLt
  have h_a := a.isLt
  refine of_bits (18 * 134217728 + d.val * 4194304 + a.val * 131072 + 0 * 4096 + (Enc.rnd r * 512 + 19)) rfl (tri_lt _ _ _ _ _ (by decide) d.isLt a.isLt (by decide) (by omega)) fun m_ hn hw => ?_
  have T := tri_facts 18 d.val a.val 0 (Enc.rnd r * 512 + 19) d.isLt a.isLt (by decide) (by omega) m_ hn
  have hz : m_ ≠ 0 := T.ne_of_cls (by decide)
  have hc := T.cls
  have e0 : Dec.fld m_ 9 3 = Enc.rnd r := (low_fld T.lo 9 3 (by decide)).trans (by simp only [Dec.fld]; omega)
  have e1 : Dec.fld m_ 12 5 = 0 := T.fb
  have e2 : Dec.ra m_ = a := Fin.ext T.fa
  have e3 : Dec.rd m_ = d := Fin.ext T.fd
  have es : m_ % 512 = 19 := (low_mod T.lo 512 (by decide)).trans (by omega)
  clear hn
  rw [decode_fpu m_ hw hz hc]
  unfold Dec.fpu
  rw [e0, rnd_enc]
  rw [es]
  show (Dec.zero (Dec.fld m_ 12 5) ((Except.ok : Instr → Except Reject Instr) (.f2iu r (Dec.rd m_) (Dec.ra m_)))) = _
  simp only [e1, e2, e3, zero_nil]

theorem i2f (r : Rnd) (d : Reg) (a : Reg) : Statement (.i2f r d a) := by
  have h_r := rnd_lt r
  have h_d := d.isLt
  have h_a := a.isLt
  refine of_bits (18 * 134217728 + d.val * 4194304 + a.val * 131072 + 0 * 4096 + (Enc.rnd r * 512 + 20)) rfl (tri_lt _ _ _ _ _ (by decide) d.isLt a.isLt (by decide) (by omega)) fun m_ hn hw => ?_
  have T := tri_facts 18 d.val a.val 0 (Enc.rnd r * 512 + 20) d.isLt a.isLt (by decide) (by omega) m_ hn
  have hz : m_ ≠ 0 := T.ne_of_cls (by decide)
  have hc := T.cls
  have e0 : Dec.fld m_ 9 3 = Enc.rnd r := (low_fld T.lo 9 3 (by decide)).trans (by simp only [Dec.fld]; omega)
  have e1 : Dec.fld m_ 12 5 = 0 := T.fb
  have e2 : Dec.ra m_ = a := Fin.ext T.fa
  have e3 : Dec.rd m_ = d := Fin.ext T.fd
  have es : m_ % 512 = 20 := (low_mod T.lo 512 (by decide)).trans (by omega)
  clear hn
  rw [decode_fpu m_ hw hz hc]
  unfold Dec.fpu
  rw [e0, rnd_enc]
  rw [es]
  show (Dec.zero (Dec.fld m_ 12 5) ((Except.ok : Instr → Except Reject Instr) (.i2f r (Dec.rd m_) (Dec.ra m_)))) = _
  simp only [e1, e2, e3, zero_nil]

theorem iu2f (r : Rnd) (d : Reg) (a : Reg) : Statement (.iu2f r d a) := by
  have h_r := rnd_lt r
  have h_d := d.isLt
  have h_a := a.isLt
  refine of_bits (18 * 134217728 + d.val * 4194304 + a.val * 131072 + 0 * 4096 + (Enc.rnd r * 512 + 21)) rfl (tri_lt _ _ _ _ _ (by decide) d.isLt a.isLt (by decide) (by omega)) fun m_ hn hw => ?_
  have T := tri_facts 18 d.val a.val 0 (Enc.rnd r * 512 + 21) d.isLt a.isLt (by decide) (by omega) m_ hn
  have hz : m_ ≠ 0 := T.ne_of_cls (by decide)
  have hc := T.cls
  have e0 : Dec.fld m_ 9 3 = Enc.rnd r := (low_fld T.lo 9 3 (by decide)).trans (by simp only [Dec.fld]; omega)
  have e1 : Dec.fld m_ 12 5 = 0 := T.fb
  have e2 : Dec.ra m_ = a := Fin.ext T.fa
  have e3 : Dec.rd m_ = d := Fin.ext T.fd
  have es : m_ % 512 = 21 := (low_mod T.lo 512 (by decide)).trans (by omega)
  clear hn
  rw [decode_fpu m_ hw hz hc]
  unfold Dec.fpu
  rw [e0, rnd_enc]
  rw [es]
  show (Dec.zero (Dec.fld m_ 12 5) ((Except.ok : Instr → Except Reject Instr) (.iu2f r (Dec.rd m_) (Dec.ra m_)))) = _
  simp only [e1, e2, e3, zero_nil]

theorem f2bf (r : Rnd) (d : Reg) (a : Reg) : Statement (.f2bf r d a) := by
  have h_r := rnd_lt r
  have h_d := d.isLt
  have h_a := a.isLt
  refine of_bits (18 * 134217728 + d.val * 4194304 + a.val * 131072 + 0 * 4096 + (Enc.rnd r * 512 + 22)) rfl (tri_lt _ _ _ _ _ (by decide) d.isLt a.isLt (by decide) (by omega)) fun m_ hn hw => ?_
  have T := tri_facts 18 d.val a.val 0 (Enc.rnd r * 512 + 22) d.isLt a.isLt (by decide) (by omega) m_ hn
  have hz : m_ ≠ 0 := T.ne_of_cls (by decide)
  have hc := T.cls
  have e0 : Dec.fld m_ 9 3 = Enc.rnd r := (low_fld T.lo 9 3 (by decide)).trans (by simp only [Dec.fld]; omega)
  have e1 : Dec.fld m_ 12 5 = 0 := T.fb
  have e2 : Dec.ra m_ = a := Fin.ext T.fa
  have e3 : Dec.rd m_ = d := Fin.ext T.fd
  have es : m_ % 512 = 22 := (low_mod T.lo 512 (by decide)).trans (by omega)
  clear hn
  rw [decode_fpu m_ hw hz hc]
  unfold Dec.fpu
  rw [e0, rnd_enc]
  rw [es]
  show (Dec.zero (Dec.fld m_ 12 5) ((Except.ok : Instr → Except Reject Instr) (.f2bf r (Dec.rd m_) (Dec.ra m_)))) = _
  simp only [e1, e2, e3, zero_nil]

theorem bf2f (r : Rnd) (d : Reg) (a : Reg) : Statement (.bf2f r d a) := by
  have h_r := rnd_lt r
  have h_d := d.isLt
  have h_a := a.isLt
  refine of_bits (18 * 134217728 + d.val * 4194304 + a.val * 131072 + 0 * 4096 + (Enc.rnd r * 512 + 23)) rfl (tri_lt _ _ _ _ _ (by decide) d.isLt a.isLt (by decide) (by omega)) fun m_ hn hw => ?_
  have T := tri_facts 18 d.val a.val 0 (Enc.rnd r * 512 + 23) d.isLt a.isLt (by decide) (by omega) m_ hn
  have hz : m_ ≠ 0 := T.ne_of_cls (by decide)
  have hc := T.cls
  have e0 : Dec.fld m_ 9 3 = Enc.rnd r := (low_fld T.lo 9 3 (by decide)).trans (by simp only [Dec.fld]; omega)
  have e1 : Dec.fld m_ 12 5 = 0 := T.fb
  have e2 : Dec.ra m_ = a := Fin.ext T.fa
  have e3 : Dec.rd m_ = d := Fin.ext T.fd
  have es : m_ % 512 = 23 := (low_mod T.lo 512 (by decide)).trans (by omega)
  clear hn
  rw [decode_fpu m_ hw hz hc]
  unfold Dec.fpu
  rw [e0, rnd_enc]
  rw [es]
  show (Dec.zero (Dec.fld m_ 12 5) ((Except.ok : Instr → Except Reject Instr) (.bf2f r (Dec.rd m_) (Dec.ra m_)))) = _
  simp only [e1, e2, e3, zero_nil]

theorem f2h (r : Rnd) (d : Reg) (a : Reg) : Statement (.f2h r d a) := by
  have h_r := rnd_lt r
  have h_d := d.isLt
  have h_a := a.isLt
  refine of_bits (18 * 134217728 + d.val * 4194304 + a.val * 131072 + 0 * 4096 + (Enc.rnd r * 512 + 24)) rfl (tri_lt _ _ _ _ _ (by decide) d.isLt a.isLt (by decide) (by omega)) fun m_ hn hw => ?_
  have T := tri_facts 18 d.val a.val 0 (Enc.rnd r * 512 + 24) d.isLt a.isLt (by decide) (by omega) m_ hn
  have hz : m_ ≠ 0 := T.ne_of_cls (by decide)
  have hc := T.cls
  have e0 : Dec.fld m_ 9 3 = Enc.rnd r := (low_fld T.lo 9 3 (by decide)).trans (by simp only [Dec.fld]; omega)
  have e1 : Dec.fld m_ 12 5 = 0 := T.fb
  have e2 : Dec.ra m_ = a := Fin.ext T.fa
  have e3 : Dec.rd m_ = d := Fin.ext T.fd
  have es : m_ % 512 = 24 := (low_mod T.lo 512 (by decide)).trans (by omega)
  clear hn
  rw [decode_fpu m_ hw hz hc]
  unfold Dec.fpu
  rw [e0, rnd_enc]
  rw [es]
  show (Dec.zero (Dec.fld m_ 12 5) ((Except.ok : Instr → Except Reject Instr) (.f2h r (Dec.rd m_) (Dec.ra m_)))) = _
  simp only [e1, e2, e3, zero_nil]

theorem h2f (r : Rnd) (d : Reg) (a : Reg) : Statement (.h2f r d a) := by
  have h_r := rnd_lt r
  have h_d := d.isLt
  have h_a := a.isLt
  refine of_bits (18 * 134217728 + d.val * 4194304 + a.val * 131072 + 0 * 4096 + (Enc.rnd r * 512 + 25)) rfl (tri_lt _ _ _ _ _ (by decide) d.isLt a.isLt (by decide) (by omega)) fun m_ hn hw => ?_
  have T := tri_facts 18 d.val a.val 0 (Enc.rnd r * 512 + 25) d.isLt a.isLt (by decide) (by omega) m_ hn
  have hz : m_ ≠ 0 := T.ne_of_cls (by decide)
  have hc := T.cls
  have e0 : Dec.fld m_ 9 3 = Enc.rnd r := (low_fld T.lo 9 3 (by decide)).trans (by simp only [Dec.fld]; omega)
  have e1 : Dec.fld m_ 12 5 = 0 := T.fb
  have e2 : Dec.ra m_ = a := Fin.ext T.fa
  have e3 : Dec.rd m_ = d := Fin.ext T.fd
  have es : m_ % 512 = 25 := (low_mod T.lo 512 (by decide)).trans (by omega)
  clear hn
  rw [decode_fpu m_ hw hz hc]
  unfold Dec.fpu
  rw [e0, rnd_enc]
  rw [es]
  show (Dec.zero (Dec.fld m_ 12 5) ((Except.ok : Instr → Except Reject Instr) (.h2f r (Dec.rd m_) (Dec.ra m_)))) = _
  simp only [e1, e2, e3, zero_nil]

theorem hadd2 (r : Rnd) (d : Reg) (a : Reg) (b : Reg) : Statement (.hadd2 r d a b) := by
  have h_r := rnd_lt r
  have h_d := d.isLt
  have h_a := a.isLt
  have h_b := b.isLt
  refine of_bits (18 * 134217728 + d.val * 4194304 + a.val * 131072 + b.val * 4096 + (Enc.rnd r * 512 + 26)) rfl (tri_lt _ _ _ _ _ (by decide) d.isLt a.isLt b.isLt (by omega)) fun m_ hn hw => ?_
  have T := tri_facts 18 d.val a.val b.val (Enc.rnd r * 512 + 26) d.isLt a.isLt b.isLt (by omega) m_ hn
  have hz : m_ ≠ 0 := T.ne_of_cls (by decide)
  have hc := T.cls
  have e0 : Dec.fld m_ 9 3 = Enc.rnd r := (low_fld T.lo 9 3 (by decide)).trans (by simp only [Dec.fld]; omega)
  have e1 : Dec.ra m_ = a := Fin.ext T.fa
  have e2 : Dec.rd m_ = d := Fin.ext T.fd
  have e3 : Dec.rb m_ = b := Fin.ext T.fb
  have es : m_ % 512 = 26 := (low_mod T.lo 512 (by decide)).trans (by omega)
  clear hn
  rw [decode_fpu m_ hw hz hc]
  unfold Dec.fpu
  rw [e0, rnd_enc]
  rw [es]
  show ((Except.ok : Instr → Except Reject Instr) (.hadd2 r (Dec.rd m_) (Dec.ra m_) (Dec.rb m_))) = _
  simp only [e1, e2, e3]

theorem hmul2 (r : Rnd) (d : Reg) (a : Reg) (b : Reg) : Statement (.hmul2 r d a b) := by
  have h_r := rnd_lt r
  have h_d := d.isLt
  have h_a := a.isLt
  have h_b := b.isLt
  refine of_bits (18 * 134217728 + d.val * 4194304 + a.val * 131072 + b.val * 4096 + (Enc.rnd r * 512 + 27)) rfl (tri_lt _ _ _ _ _ (by decide) d.isLt a.isLt b.isLt (by omega)) fun m_ hn hw => ?_
  have T := tri_facts 18 d.val a.val b.val (Enc.rnd r * 512 + 27) d.isLt a.isLt b.isLt (by omega) m_ hn
  have hz : m_ ≠ 0 := T.ne_of_cls (by decide)
  have hc := T.cls
  have e0 : Dec.fld m_ 9 3 = Enc.rnd r := (low_fld T.lo 9 3 (by decide)).trans (by simp only [Dec.fld]; omega)
  have e1 : Dec.ra m_ = a := Fin.ext T.fa
  have e2 : Dec.rd m_ = d := Fin.ext T.fd
  have e3 : Dec.rb m_ = b := Fin.ext T.fb
  have es : m_ % 512 = 27 := (low_mod T.lo 512 (by decide)).trans (by omega)
  clear hn
  rw [decode_fpu m_ hw hz hc]
  unfold Dec.fpu
  rw [e0, rnd_enc]
  rw [es]
  show ((Except.ok : Instr → Except Reject Instr) (.hmul2 r (Dec.rd m_) (Dec.ra m_) (Dec.rb m_))) = _
  simp only [e1, e2, e3]

theorem hmin2 (r : Rnd) (d : Reg) (a : Reg) (b : Reg) : Statement (.hmin2 r d a b) := by
  have h_r := rnd_lt r
  have h_d := d.isLt
  have h_a := a.isLt
  have h_b := b.isLt
  refine of_bits (18 * 134217728 + d.val * 4194304 + a.val * 131072 + b.val * 4096 + (Enc.rnd r * 512 + 28)) rfl (tri_lt _ _ _ _ _ (by decide) d.isLt a.isLt b.isLt (by omega)) fun m_ hn hw => ?_
  have T := tri_facts 18 d.val a.val b.val (Enc.rnd r * 512 + 28) d.isLt a.isLt b.isLt (by omega) m_ hn
  have hz : m_ ≠ 0 := T.ne_of_cls (by decide)
  have hc := T.cls
  have e0 : Dec.fld m_ 9 3 = Enc.rnd r := (low_fld T.lo 9 3 (by decide)).trans (by simp only [Dec.fld]; omega)
  have e1 : Dec.ra m_ = a := Fin.ext T.fa
  have e2 : Dec.rd m_ = d := Fin.ext T.fd
  have e3 : Dec.rb m_ = b := Fin.ext T.fb
  have es : m_ % 512 = 28 := (low_mod T.lo 512 (by decide)).trans (by omega)
  clear hn
  rw [decode_fpu m_ hw hz hc]
  unfold Dec.fpu
  rw [e0, rnd_enc]
  rw [es]
  show ((Except.ok : Instr → Except Reject Instr) (.hmin2 r (Dec.rd m_) (Dec.ra m_) (Dec.rb m_))) = _
  simp only [e1, e2, e3]

theorem hmax2 (r : Rnd) (d : Reg) (a : Reg) (b : Reg) : Statement (.hmax2 r d a b) := by
  have h_r := rnd_lt r
  have h_d := d.isLt
  have h_a := a.isLt
  have h_b := b.isLt
  refine of_bits (18 * 134217728 + d.val * 4194304 + a.val * 131072 + b.val * 4096 + (Enc.rnd r * 512 + 29)) rfl (tri_lt _ _ _ _ _ (by decide) d.isLt a.isLt b.isLt (by omega)) fun m_ hn hw => ?_
  have T := tri_facts 18 d.val a.val b.val (Enc.rnd r * 512 + 29) d.isLt a.isLt b.isLt (by omega) m_ hn
  have hz : m_ ≠ 0 := T.ne_of_cls (by decide)
  have hc := T.cls
  have e0 : Dec.fld m_ 9 3 = Enc.rnd r := (low_fld T.lo 9 3 (by decide)).trans (by simp only [Dec.fld]; omega)
  have e1 : Dec.ra m_ = a := Fin.ext T.fa
  have e2 : Dec.rd m_ = d := Fin.ext T.fd
  have e3 : Dec.rb m_ = b := Fin.ext T.fb
  have es : m_ % 512 = 29 := (low_mod T.lo 512 (by decide)).trans (by omega)
  clear hn
  rw [decode_fpu m_ hw hz hc]
  unfold Dec.fpu
  rw [e0, rnd_enc]
  rw [es]
  show ((Except.ok : Instr → Except Reject Instr) (.hmax2 r (Dec.rd m_) (Dec.ra m_) (Dec.rb m_))) = _
  simp only [e1, e2, e3]

theorem fmvXf (r : Rnd) (d : Reg) (a : Reg) : Statement (.fmvXf r d a) := by
  have h_r := rnd_lt r
  have h_d := d.isLt
  have h_a := a.isLt
  refine of_bits (18 * 134217728 + d.val * 4194304 + a.val * 131072 + 0 * 4096 + (Enc.rnd r * 512 + 30)) rfl (tri_lt _ _ _ _ _ (by decide) d.isLt a.isLt (by decide) (by omega)) fun m_ hn hw => ?_
  have T := tri_facts 18 d.val a.val 0 (Enc.rnd r * 512 + 30) d.isLt a.isLt (by decide) (by omega) m_ hn
  have hz : m_ ≠ 0 := T.ne_of_cls (by decide)
  have hc := T.cls
  have e0 : Dec.fld m_ 9 3 = Enc.rnd r := (low_fld T.lo 9 3 (by decide)).trans (by simp only [Dec.fld]; omega)
  have e1 : Dec.fld m_ 12 5 = 0 := T.fb
  have e2 : Dec.ra m_ = a := Fin.ext T.fa
  have e3 : Dec.rd m_ = d := Fin.ext T.fd
  have es : m_ % 512 = 30 := (low_mod T.lo 512 (by decide)).trans (by omega)
  clear hn
  rw [decode_fpu m_ hw hz hc]
  unfold Dec.fpu
  rw [e0, rnd_enc]
  rw [es]
  show (Dec.zero (Dec.fld m_ 12 5) ((Except.ok : Instr → Except Reject Instr) (.fmvXf r (Dec.rd m_) (Dec.ra m_)))) = _
  simp only [e1, e2, e3, zero_nil]

theorem fmvFx (r : Rnd) (d : Reg) (a : Reg) : Statement (.fmvFx r d a) := by
  have h_r := rnd_lt r
  have h_d := d.isLt
  have h_a := a.isLt
  refine of_bits (18 * 134217728 + d.val * 4194304 + a.val * 131072 + 0 * 4096 + (Enc.rnd r * 512 + 31)) rfl (tri_lt _ _ _ _ _ (by decide) d.isLt a.isLt (by decide) (by omega)) fun m_ hn hw => ?_
  have T := tri_facts 18 d.val a.val 0 (Enc.rnd r * 512 + 31) d.isLt a.isLt (by decide) (by omega) m_ hn
  have hz : m_ ≠ 0 := T.ne_of_cls (by decide)
  have hc := T.cls
  have e0 : Dec.fld m_ 9 3 = Enc.rnd r := (low_fld T.lo 9 3 (by decide)).trans (by simp only [Dec.fld]; omega)
  have e1 : Dec.fld m_ 12 5 = 0 := T.fb
  have e2 : Dec.ra m_ = a := Fin.ext T.fa
  have e3 : Dec.rd m_ = d := Fin.ext T.fd
  have es : m_ % 512 = 31 := (low_mod T.lo 512 (by decide)).trans (by omega)
  clear hn
  rw [decode_fpu m_ hw hz hc]
  unfold Dec.fpu
  rw [e0, rnd_enc]
  rw [es]
  show (Dec.zero (Dec.fld m_ 12 5) ((Except.ok : Instr → Except Reject Instr) (.fmvFx r (Dec.rd m_) (Dec.ra m_)))) = _
  simp only [e1, e2, e3, zero_nil]

theorem fma (r : Rnd) (d : Reg) (a : Reg) (b : Reg) (c : Reg) : Statement (.fma r d a b c) := by
  have h_r := rnd_lt r
  have h_d := d.isLt
  have h_a := a.isLt
  have h_b := b.isLt
  have h_c := c.isLt
  refine of_bits (19 * 134217728 + d.val * 4194304 + a.val * 131072 + b.val * 4096 + c.val * 128 + (Enc.rnd r * 16 + 1)) rfl (by omega) fun m_ hn hw => ?_
  have hz : m_ ≠ 0 := by omega
  have hc : m_ / 134217728 = 19 := by omega
  have e0 : Dec.fld m_ 4 3 = Enc.rnd r := by simp only [Dec.fld]; omega
  have e1 : Dec.rc m_ = c := Fin.ext (by simp only [Dec.rc, Fin.ofNat]; omega)
  have e2 : Dec.ra m_ = a := Fin.ext (by simp only [Dec.ra, Fin.ofNat]; omega)
  have e3 : Dec.rd m_ = d := Fin.ext (by simp only [Dec.rd, Fin.ofNat]; omega)
  have e4 : Dec.rb m_ = b := Fin.ext (by simp only [Dec.rb, Fin.ofNat]; omega)
  have es : m_ % 16 = 1 := by omega
  clear hn
  rw [decode_fma m_ hw hz hc]
  unfold Dec.fma
  rw [e0, rnd_enc]
  rw [es]
  show ((Except.ok : Instr → Except Reject Instr) (.fma r (Dec.rd m_) (Dec.ra m_) (Dec.rb m_) (Dec.rc m_))) = _
  simp only [e1, e2, e3, e4]

theorem fms (r : Rnd) (d : Reg) (a : Reg) (b : Reg) (c : Reg) : Statement (.fms r d a b c) := by
  have h_r := rnd_lt r
  have h_d := d.isLt
  have h_a := a.isLt
  have h_b := b.isLt
  have h_c := c.isLt
  refine of_bits (19 * 134217728 + d.val * 4194304 + a.val * 131072 + b.val * 4096 + c.val * 128 + (Enc.rnd r * 16 + 2)) rfl (by omega) fun m_ hn hw => ?_
  have hz : m_ ≠ 0 := by omega
  have hc : m_ / 134217728 = 19 := by omega
  have e0 : Dec.fld m_ 4 3 = Enc.rnd r := by simp only [Dec.fld]; omega
  have e1 : Dec.rc m_ = c := Fin.ext (by simp only [Dec.rc, Fin.ofNat]; omega)
  have e2 : Dec.ra m_ = a := Fin.ext (by simp only [Dec.ra, Fin.ofNat]; omega)
  have e3 : Dec.rd m_ = d := Fin.ext (by simp only [Dec.rd, Fin.ofNat]; omega)
  have e4 : Dec.rb m_ = b := Fin.ext (by simp only [Dec.rb, Fin.ofNat]; omega)
  have es : m_ % 16 = 2 := by omega
  clear hn
  rw [decode_fma m_ hw hz hc]
  unfold Dec.fma
  rw [e0, rnd_enc]
  rw [es]
  show ((Except.ok : Instr → Except Reject Instr) (.fms r (Dec.rd m_) (Dec.ra m_) (Dec.rb m_) (Dec.rc m_))) = _
  simp only [e1, e2, e3, e4]

theorem fnma (r : Rnd) (d : Reg) (a : Reg) (b : Reg) (c : Reg) : Statement (.fnma r d a b c) := by
  have h_r := rnd_lt r
  have h_d := d.isLt
  have h_a := a.isLt
  have h_b := b.isLt
  have h_c := c.isLt
  refine of_bits (19 * 134217728 + d.val * 4194304 + a.val * 131072 + b.val * 4096 + c.val * 128 + (Enc.rnd r * 16 + 3)) rfl (by omega) fun m_ hn hw => ?_
  have hz : m_ ≠ 0 := by omega
  have hc : m_ / 134217728 = 19 := by omega
  have e0 : Dec.fld m_ 4 3 = Enc.rnd r := by simp only [Dec.fld]; omega
  have e1 : Dec.rc m_ = c := Fin.ext (by simp only [Dec.rc, Fin.ofNat]; omega)
  have e2 : Dec.ra m_ = a := Fin.ext (by simp only [Dec.ra, Fin.ofNat]; omega)
  have e3 : Dec.rd m_ = d := Fin.ext (by simp only [Dec.rd, Fin.ofNat]; omega)
  have e4 : Dec.rb m_ = b := Fin.ext (by simp only [Dec.rb, Fin.ofNat]; omega)
  have es : m_ % 16 = 3 := by omega
  clear hn
  rw [decode_fma m_ hw hz hc]
  unfold Dec.fma
  rw [e0, rnd_enc]
  rw [es]
  show ((Except.ok : Instr → Except Reject Instr) (.fnma r (Dec.rd m_) (Dec.ra m_) (Dec.rb m_) (Dec.rc m_))) = _
  simp only [e1, e2, e3, e4]

theorem fnms (r : Rnd) (d : Reg) (a : Reg) (b : Reg) (c : Reg) : Statement (.fnms r d a b c) := by
  have h_r := rnd_lt r
  have h_d := d.isLt
  have h_a := a.isLt
  have h_b := b.isLt
  have h_c := c.isLt
  refine of_bits (19 * 134217728 + d.val * 4194304 + a.val * 131072 + b.val * 4096 + c.val * 128 + (Enc.rnd r * 16 + 4)) rfl (by omega) fun m_ hn hw => ?_
  have hz : m_ ≠ 0 := by omega
  have hc : m_ / 134217728 = 19 := by omega
  have e0 : Dec.fld m_ 4 3 = Enc.rnd r := by simp only [Dec.fld]; omega
  have e1 : Dec.rc m_ = c := Fin.ext (by simp only [Dec.rc, Fin.ofNat]; omega)
  have e2 : Dec.ra m_ = a := Fin.ext (by simp only [Dec.ra, Fin.ofNat]; omega)
  have e3 : Dec.rd m_ = d := Fin.ext (by simp only [Dec.rd, Fin.ofNat]; omega)
  have e4 : Dec.rb m_ = b := Fin.ext (by simp only [Dec.rb, Fin.ofNat]; omega)
  have es : m_ % 16 = 4 := by omega
  clear hn
  rw [decode_fma m_ hw hz hc]
  unfold Dec.fma
  rw [e0, rnd_enc]
  rw [es]
  show ((Except.ok : Instr → Except Reject Instr) (.fnms r (Dec.rd m_) (Dec.ra m_) (Dec.rb m_) (Dec.rc m_))) = _
  simp only [e1, e2, e3, e4]

theorem hfma2 (r : Rnd) (d : Reg) (a : Reg) (b : Reg) (c : Reg) : Statement (.hfma2 r d a b c) := by
  have h_r := rnd_lt r
  have h_d := d.isLt
  have h_a := a.isLt
  have h_b := b.isLt
  have h_c := c.isLt
  refine of_bits (19 * 134217728 + d.val * 4194304 + a.val * 131072 + b.val * 4096 + c.val * 128 + (Enc.rnd r * 16 + 5)) rfl (by omega) fun m_ hn hw => ?_
  have hz : m_ ≠ 0 := by omega
  have hc : m_ / 134217728 = 19 := by omega
  have e0 : Dec.fld m_ 4 3 = Enc.rnd r := by simp only [Dec.fld]; omega
  have e1 : Dec.rc m_ = c := Fin.ext (by simp only [Dec.rc, Fin.ofNat]; omega)
  have e2 : Dec.ra m_ = a := Fin.ext (by simp only [Dec.ra, Fin.ofNat]; omega)
  have e3 : Dec.rd m_ = d := Fin.ext (by simp only [Dec.rd, Fin.ofNat]; omega)
  have e4 : Dec.rb m_ = b := Fin.ext (by simp only [Dec.rb, Fin.ofNat]; omega)
  have es : m_ % 16 = 5 := by omega
  clear hn
  rw [decode_fma m_ hw hz hc]
  unfold Dec.fma
  rw [e0, rnd_enc]
  rw [es]
  show ((Except.ok : Instr → Except Reject Instr) (.hfma2 r (Dec.rd m_) (Dec.ra m_) (Dec.rb m_) (Dec.rc m_))) = _
  simp only [e1, e2, e3, e4]

theorem hfma2h (r : Rnd) (d : Reg) (a : Reg) (b : Reg) (c : Reg) : Statement (.hfma2h r d a b c) := by
  have h_r := rnd_lt r
  have h_d := d.isLt
  have h_a := a.isLt
  have h_b := b.isLt
  have h_c := c.isLt
  refine of_bits (19 * 134217728 + d.val * 4194304 + a.val * 131072 + b.val * 4096 + c.val * 128 + (Enc.rnd r * 16 + 6)) rfl (by omega) fun m_ hn hw => ?_
  have hz : m_ ≠ 0 := by omega
  have hc : m_ / 134217728 = 19 := by omega
  have e0 : Dec.fld m_ 4 3 = Enc.rnd r := by simp only [Dec.fld]; omega
  have e1 : Dec.rc m_ = c := Fin.ext (by simp only [Dec.rc, Fin.ofNat]; omega)
  have e2 : Dec.ra m_ = a := Fin.ext (by simp only [Dec.ra, Fin.ofNat]; omega)
  have e3 : Dec.rd m_ = d := Fin.ext (by simp only [Dec.rd, Fin.ofNat]; omega)
  have e4 : Dec.rb m_ = b := Fin.ext (by simp only [Dec.rb, Fin.ofNat]; omega)
  have es : m_ % 16 = 6 := by omega
  clear hn
  rw [decode_fma m_ hw hz hc]
  unfold Dec.fma
  rw [e0, rnd_enc]
  rw [es]
  show ((Except.ok : Instr → Except Reject Instr) (.hfma2h r (Dec.rd m_) (Dec.ra m_) (Dec.rb m_) (Dec.rc m_))) = _
  simp only [e1, e2, e3, e4]

theorem ldB (h : Hint) (d : Reg) (a : Reg) (o : BitVec 12) : Statement (.ldB h d a o) := by
  have h_h := hint_lt h
  have h_d := d.isLt
  have h_a := a.isLt
  have h_o := o.isLt
  refine of_bits (20 * 134217728 + d.val * 4194304 + a.val * 131072 + 0 * 16384 + (Enc.hint h) * 4096 + o.toNat) rfl (by omega) fun m_ hn hw => ?_
  have T := imm_facts 20 d.val a.val (0 * 16384 + (Enc.hint h) * 4096 + o.toNat) d.isLt a.isLt (by omega) m_ (by omega)
  have hz : m_ ≠ 0 := T.ne_of_cls (by decide)
  have hc := T.cls
  have e0 : Dec.fld m_ 12 2 = Enc.hint h := (low_fld17 T.lo 12 2 (by decide)).trans (by simp only [Dec.fld]; omega)
  have e1 : Dec.ra m_ = a := Fin.ext T.fa
  have e2 : Dec.rd m_ = d := Fin.ext T.fd
  have e3 : BitVec.ofNat 12 m_ = o := BitVec.eq_of_toNat_eq (by rw [BitVec.toNat_ofNat]; omega)
  have es : Dec.fld m_ 14 3 = 0 := (low_fld17 T.lo 14 3 (by decide)).trans (by simp only [Dec.fld]; omega)
  clear hn
  rw [decode_load m_ hw hz hc]
  unfold Dec.load
  rw [e0, hint_enc]
  rw [es]
  show ((Except.ok : Instr → Except Reject Instr) (.ldB h (Dec.rd m_) (Dec.ra m_) (BitVec.ofNat 12 m_))) = _
  simp only [e1, e2, e3]

theorem ldBu (h : Hint) (d : Reg) (a : Reg) (o : BitVec 12) : Statement (.ldBu h d a o) := by
  have h_h := hint_lt h
  have h_d := d.isLt
  have h_a := a.isLt
  have h_o := o.isLt
  refine of_bits (20 * 134217728 + d.val * 4194304 + a.val * 131072 + 1 * 16384 + (Enc.hint h) * 4096 + o.toNat) rfl (by omega) fun m_ hn hw => ?_
  have T := imm_facts 20 d.val a.val (1 * 16384 + (Enc.hint h) * 4096 + o.toNat) d.isLt a.isLt (by omega) m_ (by omega)
  have hz : m_ ≠ 0 := T.ne_of_cls (by decide)
  have hc := T.cls
  have e0 : Dec.fld m_ 12 2 = Enc.hint h := (low_fld17 T.lo 12 2 (by decide)).trans (by simp only [Dec.fld]; omega)
  have e1 : Dec.ra m_ = a := Fin.ext T.fa
  have e2 : Dec.rd m_ = d := Fin.ext T.fd
  have e3 : BitVec.ofNat 12 m_ = o := BitVec.eq_of_toNat_eq (by rw [BitVec.toNat_ofNat]; omega)
  have es : Dec.fld m_ 14 3 = 1 := (low_fld17 T.lo 14 3 (by decide)).trans (by simp only [Dec.fld]; omega)
  clear hn
  rw [decode_load m_ hw hz hc]
  unfold Dec.load
  rw [e0, hint_enc]
  rw [es]
  show ((Except.ok : Instr → Except Reject Instr) (.ldBu h (Dec.rd m_) (Dec.ra m_) (BitVec.ofNat 12 m_))) = _
  simp only [e1, e2, e3]

theorem ldH (h : Hint) (d : Reg) (a : Reg) (o : BitVec 12) : Statement (.ldH h d a o) := by
  have h_h := hint_lt h
  have h_d := d.isLt
  have h_a := a.isLt
  have h_o := o.isLt
  refine of_bits (20 * 134217728 + d.val * 4194304 + a.val * 131072 + 2 * 16384 + (Enc.hint h) * 4096 + o.toNat) rfl (by omega) fun m_ hn hw => ?_
  have T := imm_facts 20 d.val a.val (2 * 16384 + (Enc.hint h) * 4096 + o.toNat) d.isLt a.isLt (by omega) m_ (by omega)
  have hz : m_ ≠ 0 := T.ne_of_cls (by decide)
  have hc := T.cls
  have e0 : Dec.fld m_ 12 2 = Enc.hint h := (low_fld17 T.lo 12 2 (by decide)).trans (by simp only [Dec.fld]; omega)
  have e1 : Dec.ra m_ = a := Fin.ext T.fa
  have e2 : Dec.rd m_ = d := Fin.ext T.fd
  have e3 : BitVec.ofNat 12 m_ = o := BitVec.eq_of_toNat_eq (by rw [BitVec.toNat_ofNat]; omega)
  have es : Dec.fld m_ 14 3 = 2 := (low_fld17 T.lo 14 3 (by decide)).trans (by simp only [Dec.fld]; omega)
  clear hn
  rw [decode_load m_ hw hz hc]
  unfold Dec.load
  rw [e0, hint_enc]
  rw [es]
  show ((Except.ok : Instr → Except Reject Instr) (.ldH h (Dec.rd m_) (Dec.ra m_) (BitVec.ofNat 12 m_))) = _
  simp only [e1, e2, e3]

theorem ldHu (h : Hint) (d : Reg) (a : Reg) (o : BitVec 12) : Statement (.ldHu h d a o) := by
  have h_h := hint_lt h
  have h_d := d.isLt
  have h_a := a.isLt
  have h_o := o.isLt
  refine of_bits (20 * 134217728 + d.val * 4194304 + a.val * 131072 + 3 * 16384 + (Enc.hint h) * 4096 + o.toNat) rfl (by omega) fun m_ hn hw => ?_
  have T := imm_facts 20 d.val a.val (3 * 16384 + (Enc.hint h) * 4096 + o.toNat) d.isLt a.isLt (by omega) m_ (by omega)
  have hz : m_ ≠ 0 := T.ne_of_cls (by decide)
  have hc := T.cls
  have e0 : Dec.fld m_ 12 2 = Enc.hint h := (low_fld17 T.lo 12 2 (by decide)).trans (by simp only [Dec.fld]; omega)
  have e1 : Dec.ra m_ = a := Fin.ext T.fa
  have e2 : Dec.rd m_ = d := Fin.ext T.fd
  have e3 : BitVec.ofNat 12 m_ = o := BitVec.eq_of_toNat_eq (by rw [BitVec.toNat_ofNat]; omega)
  have es : Dec.fld m_ 14 3 = 3 := (low_fld17 T.lo 14 3 (by decide)).trans (by simp only [Dec.fld]; omega)
  clear hn
  rw [decode_load m_ hw hz hc]
  unfold Dec.load
  rw [e0, hint_enc]
  rw [es]
  show ((Except.ok : Instr → Except Reject Instr) (.ldHu h (Dec.rd m_) (Dec.ra m_) (BitVec.ofNat 12 m_))) = _
  simp only [e1, e2, e3]

theorem ldW (h : Hint) (d : Reg) (a : Reg) (o : BitVec 12) : Statement (.ldW h d a o) := by
  have h_h := hint_lt h
  have h_d := d.isLt
  have h_a := a.isLt
  have h_o := o.isLt
  refine of_bits (20 * 134217728 + d.val * 4194304 + a.val * 131072 + 4 * 16384 + (Enc.hint h) * 4096 + o.toNat) rfl (by omega) fun m_ hn hw => ?_
  have T := imm_facts 20 d.val a.val (4 * 16384 + (Enc.hint h) * 4096 + o.toNat) d.isLt a.isLt (by omega) m_ (by omega)
  have hz : m_ ≠ 0 := T.ne_of_cls (by decide)
  have hc := T.cls
  have e0 : Dec.fld m_ 12 2 = Enc.hint h := (low_fld17 T.lo 12 2 (by decide)).trans (by simp only [Dec.fld]; omega)
  have e1 : Dec.ra m_ = a := Fin.ext T.fa
  have e2 : Dec.rd m_ = d := Fin.ext T.fd
  have e3 : BitVec.ofNat 12 m_ = o := BitVec.eq_of_toNat_eq (by rw [BitVec.toNat_ofNat]; omega)
  have es : Dec.fld m_ 14 3 = 4 := (low_fld17 T.lo 14 3 (by decide)).trans (by simp only [Dec.fld]; omega)
  clear hn
  rw [decode_load m_ hw hz hc]
  unfold Dec.load
  rw [e0, hint_enc]
  rw [es]
  show ((Except.ok : Instr → Except Reject Instr) (.ldW h (Dec.rd m_) (Dec.ra m_) (BitVec.ofNat 12 m_))) = _
  simp only [e1, e2, e3]

theorem ldWu (h : Hint) (d : Reg) (a : Reg) (o : BitVec 12) : Statement (.ldWu h d a o) := by
  have h_h := hint_lt h
  have h_d := d.isLt
  have h_a := a.isLt
  have h_o := o.isLt
  refine of_bits (20 * 134217728 + d.val * 4194304 + a.val * 131072 + 5 * 16384 + (Enc.hint h) * 4096 + o.toNat) rfl (by omega) fun m_ hn hw => ?_
  have T := imm_facts 20 d.val a.val (5 * 16384 + (Enc.hint h) * 4096 + o.toNat) d.isLt a.isLt (by omega) m_ (by omega)
  have hz : m_ ≠ 0 := T.ne_of_cls (by decide)
  have hc := T.cls
  have e0 : Dec.fld m_ 12 2 = Enc.hint h := (low_fld17 T.lo 12 2 (by decide)).trans (by simp only [Dec.fld]; omega)
  have e1 : Dec.ra m_ = a := Fin.ext T.fa
  have e2 : Dec.rd m_ = d := Fin.ext T.fd
  have e3 : BitVec.ofNat 12 m_ = o := BitVec.eq_of_toNat_eq (by rw [BitVec.toNat_ofNat]; omega)
  have es : Dec.fld m_ 14 3 = 5 := (low_fld17 T.lo 14 3 (by decide)).trans (by simp only [Dec.fld]; omega)
  clear hn
  rw [decode_load m_ hw hz hc]
  unfold Dec.load
  rw [e0, hint_enc]
  rw [es]
  show ((Except.ok : Instr → Except Reject Instr) (.ldWu h (Dec.rd m_) (Dec.ra m_) (BitVec.ofNat 12 m_))) = _
  simp only [e1, e2, e3]

theorem ldD (h : Hint) (d : Reg) (a : Reg) (o : BitVec 12) : Statement (.ldD h d a o) := by
  have h_h := hint_lt h
  have h_d := d.isLt
  have h_a := a.isLt
  have h_o := o.isLt
  refine of_bits (20 * 134217728 + d.val * 4194304 + a.val * 131072 + 6 * 16384 + (Enc.hint h) * 4096 + o.toNat) rfl (by omega) fun m_ hn hw => ?_
  have T := imm_facts 20 d.val a.val (6 * 16384 + (Enc.hint h) * 4096 + o.toNat) d.isLt a.isLt (by omega) m_ (by omega)
  have hz : m_ ≠ 0 := T.ne_of_cls (by decide)
  have hc := T.cls
  have e0 : Dec.fld m_ 12 2 = Enc.hint h := (low_fld17 T.lo 12 2 (by decide)).trans (by simp only [Dec.fld]; omega)
  have e1 : Dec.ra m_ = a := Fin.ext T.fa
  have e2 : Dec.rd m_ = d := Fin.ext T.fd
  have e3 : BitVec.ofNat 12 m_ = o := BitVec.eq_of_toNat_eq (by rw [BitVec.toNat_ofNat]; omega)
  have es : Dec.fld m_ 14 3 = 6 := (low_fld17 T.lo 14 3 (by decide)).trans (by simp only [Dec.fld]; omega)
  clear hn
  rw [decode_load m_ hw hz hc]
  unfold Dec.load
  rw [e0, hint_enc]
  rw [es]
  show ((Except.ok : Instr → Except Reject Instr) (.ldD h (Dec.rd m_) (Dec.ra m_) (BitVec.ofNat 12 m_))) = _
  simp only [e1, e2, e3]

theorem fld (h : Hint) (d : Reg) (a : Reg) (o : BitVec 12) : Statement (.fld h d a o) := by
  have h_h := hint_lt h
  have h_d := d.isLt
  have h_a := a.isLt
  have h_o := o.isLt
  refine of_bits (20 * 134217728 + d.val * 4194304 + a.val * 131072 + 7 * 16384 + (Enc.hint h) * 4096 + o.toNat) rfl (by omega) fun m_ hn hw => ?_
  have T := imm_facts 20 d.val a.val (7 * 16384 + (Enc.hint h) * 4096 + o.toNat) d.isLt a.isLt (by omega) m_ (by omega)
  have hz : m_ ≠ 0 := T.ne_of_cls (by decide)
  have hc := T.cls
  have e0 : Dec.fld m_ 12 2 = Enc.hint h := (low_fld17 T.lo 12 2 (by decide)).trans (by simp only [Dec.fld]; omega)
  have e1 : Dec.ra m_ = a := Fin.ext T.fa
  have e2 : Dec.rd m_ = d := Fin.ext T.fd
  have e3 : BitVec.ofNat 12 m_ = o := BitVec.eq_of_toNat_eq (by rw [BitVec.toNat_ofNat]; omega)
  have es : Dec.fld m_ 14 3 = 7 := (low_fld17 T.lo 14 3 (by decide)).trans (by simp only [Dec.fld]; omega)
  clear hn
  rw [decode_load m_ hw hz hc]
  unfold Dec.load
  rw [e0, hint_enc]
  rw [es]
  show ((Except.ok : Instr → Except Reject Instr) (.fld h (Dec.rd m_) (Dec.ra m_) (BitVec.ofNat 12 m_))) = _
  simp only [e1, e2, e3]

theorem stB (h : Hint) (d : Reg) (a : Reg) (o : BitVec 12) : Statement (.stB h d a o) := by
  have h_h := hint_lt h
  have h_d := d.isLt
  have h_a := a.isLt
  have h_o := o.isLt
  refine of_bits (21 * 134217728 + d.val * 4194304 + a.val * 131072 + 0 * 16384 + (Enc.hint h) * 4096 + o.toNat) rfl (by omega) fun m_ hn hw => ?_
  have T := imm_facts 21 d.val a.val (0 * 16384 + (Enc.hint h) * 4096 + o.toNat) d.isLt a.isLt (by omega) m_ (by omega)
  have hz : m_ ≠ 0 := T.ne_of_cls (by decide)
  have hc := T.cls
  have e0 : Dec.fld m_ 12 2 = Enc.hint h := (low_fld17 T.lo 12 2 (by decide)).trans (by simp only [Dec.fld]; omega)
  have e1 : Dec.ra m_ = a := Fin.ext T.fa
  have e2 : Dec.rd m_ = d := Fin.ext T.fd
  have e3 : BitVec.ofNat 12 m_ = o := BitVec.eq_of_toNat_eq (by rw [BitVec.toNat_ofNat]; omega)
  have es : Dec.fld m_ 14 3 = 0 := (low_fld17 T.lo 14 3 (by decide)).trans (by simp only [Dec.fld]; omega)
  clear hn
  rw [decode_store m_ hw hz hc]
  unfold Dec.store
  rw [e0, hint_enc]
  rw [es]
  show ((Except.ok : Instr → Except Reject Instr) (.stB h (Dec.rd m_) (Dec.ra m_) (BitVec.ofNat 12 m_))) = _
  simp only [e1, e2, e3]

theorem stH (h : Hint) (d : Reg) (a : Reg) (o : BitVec 12) : Statement (.stH h d a o) := by
  have h_h := hint_lt h
  have h_d := d.isLt
  have h_a := a.isLt
  have h_o := o.isLt
  refine of_bits (21 * 134217728 + d.val * 4194304 + a.val * 131072 + 1 * 16384 + (Enc.hint h) * 4096 + o.toNat) rfl (by omega) fun m_ hn hw => ?_
  have T := imm_facts 21 d.val a.val (1 * 16384 + (Enc.hint h) * 4096 + o.toNat) d.isLt a.isLt (by omega) m_ (by omega)
  have hz : m_ ≠ 0 := T.ne_of_cls (by decide)
  have hc := T.cls
  have e0 : Dec.fld m_ 12 2 = Enc.hint h := (low_fld17 T.lo 12 2 (by decide)).trans (by simp only [Dec.fld]; omega)
  have e1 : Dec.ra m_ = a := Fin.ext T.fa
  have e2 : Dec.rd m_ = d := Fin.ext T.fd
  have e3 : BitVec.ofNat 12 m_ = o := BitVec.eq_of_toNat_eq (by rw [BitVec.toNat_ofNat]; omega)
  have es : Dec.fld m_ 14 3 = 1 := (low_fld17 T.lo 14 3 (by decide)).trans (by simp only [Dec.fld]; omega)
  clear hn
  rw [decode_store m_ hw hz hc]
  unfold Dec.store
  rw [e0, hint_enc]
  rw [es]
  show ((Except.ok : Instr → Except Reject Instr) (.stH h (Dec.rd m_) (Dec.ra m_) (BitVec.ofNat 12 m_))) = _
  simp only [e1, e2, e3]

theorem stW (h : Hint) (d : Reg) (a : Reg) (o : BitVec 12) : Statement (.stW h d a o) := by
  have h_h := hint_lt h
  have h_d := d.isLt
  have h_a := a.isLt
  have h_o := o.isLt
  refine of_bits (21 * 134217728 + d.val * 4194304 + a.val * 131072 + 2 * 16384 + (Enc.hint h) * 4096 + o.toNat) rfl (by omega) fun m_ hn hw => ?_
  have T := imm_facts 21 d.val a.val (2 * 16384 + (Enc.hint h) * 4096 + o.toNat) d.isLt a.isLt (by omega) m_ (by omega)
  have hz : m_ ≠ 0 := T.ne_of_cls (by decide)
  have hc := T.cls
  have e0 : Dec.fld m_ 12 2 = Enc.hint h := (low_fld17 T.lo 12 2 (by decide)).trans (by simp only [Dec.fld]; omega)
  have e1 : Dec.ra m_ = a := Fin.ext T.fa
  have e2 : Dec.rd m_ = d := Fin.ext T.fd
  have e3 : BitVec.ofNat 12 m_ = o := BitVec.eq_of_toNat_eq (by rw [BitVec.toNat_ofNat]; omega)
  have es : Dec.fld m_ 14 3 = 2 := (low_fld17 T.lo 14 3 (by decide)).trans (by simp only [Dec.fld]; omega)
  clear hn
  rw [decode_store m_ hw hz hc]
  unfold Dec.store
  rw [e0, hint_enc]
  rw [es]
  show ((Except.ok : Instr → Except Reject Instr) (.stW h (Dec.rd m_) (Dec.ra m_) (BitVec.ofNat 12 m_))) = _
  simp only [e1, e2, e3]

theorem stD (h : Hint) (d : Reg) (a : Reg) (o : BitVec 12) : Statement (.stD h d a o) := by
  have h_h := hint_lt h
  have h_d := d.isLt
  have h_a := a.isLt
  have h_o := o.isLt
  refine of_bits (21 * 134217728 + d.val * 4194304 + a.val * 131072 + 3 * 16384 + (Enc.hint h) * 4096 + o.toNat) rfl (by omega) fun m_ hn hw => ?_
  have T := imm_facts 21 d.val a.val (3 * 16384 + (Enc.hint h) * 4096 + o.toNat) d.isLt a.isLt (by omega) m_ (by omega)
  have hz : m_ ≠ 0 := T.ne_of_cls (by decide)
  have hc := T.cls
  have e0 : Dec.fld m_ 12 2 = Enc.hint h := (low_fld17 T.lo 12 2 (by decide)).trans (by simp only [Dec.fld]; omega)
  have e1 : Dec.ra m_ = a := Fin.ext T.fa
  have e2 : Dec.rd m_ = d := Fin.ext T.fd
  have e3 : BitVec.ofNat 12 m_ = o := BitVec.eq_of_toNat_eq (by rw [BitVec.toNat_ofNat]; omega)
  have es : Dec.fld m_ 14 3 = 3 := (low_fld17 T.lo 14 3 (by decide)).trans (by simp only [Dec.fld]; omega)
  clear hn
  rw [decode_store m_ hw hz hc]
  unfold Dec.store
  rw [e0, hint_enc]
  rw [es]
  show ((Except.ok : Instr → Except Reject Instr) (.stD h (Dec.rd m_) (Dec.ra m_) (BitVec.ofNat 12 m_))) = _
  simp only [e1, e2, e3]

theorem fst (h : Hint) (d : Reg) (a : Reg) (o : BitVec 12) : Statement (.fst h d a o) := by
  have h_h := hint_lt h
  have h_d := d.isLt
  have h_a := a.isLt
  have h_o := o.isLt
  refine of_bits (21 * 134217728 + d.val * 4194304 + a.val * 131072 + 4 * 16384 + (Enc.hint h) * 4096 + o.toNat) rfl (by omega) fun m_ hn hw => ?_
  have T := imm_facts 21 d.val a.val (4 * 16384 + (Enc.hint h) * 4096 + o.toNat) d.isLt a.isLt (by omega) m_ (by omega)
  have hz : m_ ≠ 0 := T.ne_of_cls (by decide)
  have hc := T.cls
  have e0 : Dec.fld m_ 12 2 = Enc.hint h := (low_fld17 T.lo 12 2 (by decide)).trans (by simp only [Dec.fld]; omega)
  have e1 : Dec.ra m_ = a := Fin.ext T.fa
  have e2 : Dec.rd m_ = d := Fin.ext T.fd
  have e3 : BitVec.ofNat 12 m_ = o := BitVec.eq_of_toNat_eq (by rw [BitVec.toNat_ofNat]; omega)
  have es : Dec.fld m_ 14 3 = 4 := (low_fld17 T.lo 14 3 (by decide)).trans (by simp only [Dec.fld]; omega)
  clear hn
  rw [decode_store m_ hw hz hc]
  unfold Dec.store
  rw [e0, hint_enc]
  rw [es]
  show ((Except.ok : Instr → Except Reject Instr) (.fst h (Dec.rd m_) (Dec.ra m_) (BitVec.ofNat 12 m_))) = _
  simp only [e1, e2, e3]

theorem lda (z : MemSize) (s : Scope) (d : Reg) (a : Reg) (i : BitVec 5) : Statement (.lda z s d a i) := by
  have h_z := size_lt z
  have h_s := scope_lt s
  have h_d := d.isLt
  have h_a := a.isLt
  have h_i := i.isLt
  refine of_bits (22 * 134217728 + d.val * 4194304 + a.val * 131072 + i.toNat * 4096 + (16 + Enc.size z * 4 + Enc.scope s)) rfl (tri_lt _ _ _ _ _ (by decide) d.isLt a.isLt (by omega) (by omega)) fun m_ hn hw => ?_
  have T := tri_facts 22 d.val a.val i.toNat (16 + Enc.size z * 4 + Enc.scope s) d.isLt a.isLt (by omega) (by omega) m_ hn
  have hz : m_ ≠ 0 := T.ne_of_cls (by decide)
  have hc := T.cls
  have e0 : Dec.fld m_ 2 2 = Enc.size z := (low_fld T.lo 2 2 (by decide)).trans (by simp only [Dec.fld]; omega)
  have e1 : m_ % 4 = Enc.scope s := (low_mod T.lo 4 (by decide)).trans (by omega)
  have e2 : Dec.ra m_ = a := Fin.ext T.fa
  have e3 : Dec.rd m_ = d := Fin.ext T.fd
  have e4 : BitVec.ofNat 5 (m_ / 4096) = i := BitVec.eq_of_toNat_eq (by rw [BitVec.toNat_ofNat]; omega)
  have es : Dec.fld m_ 4 8 = 1 := (low_fld T.lo 4 8 (by decide)).trans (by simp only [Dec.fld]; omega)
  clear hn
  rw [decode_memsync m_ hw hz hc]
  unfold Dec.memsync
  extract_lets zz ss
  rw [es]
  show ((Except.ok : Instr → Except Reject Instr) (.lda (Dec.size zz) ss (Dec.rd m_) (Dec.ra m_) (BitVec.ofNat 5 (m_ / 4096)))) = _
  simp only [zz, ss, e0, e1, e2, e3, e4, scope_enc, size_enc]

theorem strel (z : MemSize) (s : Scope) (b : Reg) (a : Reg) (i : BitVec 5) : Statement (.strel z s b a i) := by
  have h_z := size_lt z
  have h_s := scope_lt s
  have h_b := b.isLt
  have h_a := a.isLt
  have h_i := i.isLt
  refine of_bits (22 * 134217728 + i.toNat * 4194304 + a.val * 131072 + b.val * 4096 + (32 + Enc.size z * 4 + Enc.scope s)) rfl (tri_lt _ _ _ _ _ (by decide) (by omega) a.isLt b.isLt (by omega)) fun m_ hn hw => ?_
  have T := tri_facts 22 i.toNat a.val b.val (32 + Enc.size z * 4 + Enc.scope s) (by omega) a.isLt b.isLt (by omega) m_ hn
  have hz : m_ ≠ 0 := T.ne_of_cls (by decide)
  have hc := T.cls
  have e0 : Dec.fld m_ 2 2 = Enc.size z := (low_fld T.lo 2 2 (by decide)).trans (by simp only [Dec.fld]; omega)
  have e1 : m_ % 4 = Enc.scope s := (low_mod T.lo 4 (by decide)).trans (by omega)
  have e2 : Dec.ra m_ = a := Fin.ext T.fa
  have e3 : Dec.rb m_ = b := Fin.ext T.fb
  have e4 : BitVec.ofNat 5 (m_ / 4194304) = i := BitVec.eq_of_toNat_eq (by rw [BitVec.toNat_ofNat]; omega)
  have es : Dec.fld m_ 4 8 = 2 := (low_fld T.lo 4 8 (by decide)).trans (by simp only [Dec.fld]; omega)
  clear hn
  rw [decode_memsync m_ hw hz hc]
  unfold Dec.memsync
  extract_lets zz ss
  rw [es]
  show ((Except.ok : Instr → Except Reject Instr) (.strel (Dec.size zz) ss (Dec.rb m_) (Dec.ra m_) (BitVec.ofNat 5 (m_ / 4194304)))) = _
  simp only [zz, ss, e0, e1, e2, e3, e4, scope_enc, size_enc]

theorem fence (s : Scope) : Statement (.fence s) := by
  have h_s := scope_lt s
  refine of_bits (22 * 134217728 + 0 * 4194304 + 0 * 131072 + 0 * 4096 + (48 + Enc.scope s)) rfl (tri_lt _ _ _ _ _ (by decide) (by decide) (by decide) (by decide) (by omega)) fun m_ hn hw => ?_
  have T := tri_facts 22 0 0 0 (48 + Enc.scope s) (by decide) (by decide) (by decide) (by omega) m_ hn
  have hz : m_ ≠ 0 := T.ne_of_cls (by decide)
  have hc := T.cls
  have e0 : Dec.fld m_ 2 2 = 0 := (low_fld T.lo 2 2 (by decide)).trans (by simp only [Dec.fld]; omega)
  have e1 : m_ % 4 = Enc.scope s := (low_mod T.lo 4 (by decide)).trans (by omega)
  have e2 : Dec.fld m_ 12 15 = 0 := by simp only [Dec.fld]; omega
  have es : Dec.fld m_ 4 8 = 3 := (low_fld T.lo 4 8 (by decide)).trans (by simp only [Dec.fld]; omega)
  clear hn
  rw [decode_memsync m_ hw hz hc]
  unfold Dec.memsync
  extract_lets zz ss
  rw [es]
  show (Dec.need (zz == 0) .size (Dec.zero (Dec.fld m_ 12 15) ((Except.ok : Instr → Except Reject Instr) (.fence ss)))) = _
  simp only [zz, ss, e0, e1, e2, scope_enc, zero_nil, need_true, beq_self_eq_true]

theorem atomAdd (z : MemSize) (s : Scope) (d : Reg) (a : Reg) (b : Reg) : Statement (.atomAdd z s d a b) := by
  refine of_wf fun hwf => ?_
  have h_z := size_lt z
  have h_s := scope_lt s
  have h_d := d.isLt
  have h_a := a.isLt
  have h_b := b.isLt
  refine of_bits (22 * 134217728 + d.val * 4194304 + a.val * 131072 + b.val * 4096 + (64 + Enc.size z * 4 + Enc.scope s)) rfl (tri_lt _ _ _ _ _ (by decide) d.isLt a.isLt b.isLt (by omega)) fun m_ hn hw => ?_
  have T := tri_facts 22 d.val a.val b.val (64 + Enc.size z * 4 + Enc.scope s) d.isLt a.isLt b.isLt (by omega) m_ hn
  have hz : m_ ≠ 0 := T.ne_of_cls (by decide)
  have hc := T.cls
  have e0 : Dec.fld m_ 2 2 = Enc.size z := (low_fld T.lo 2 2 (by decide)).trans (by simp only [Dec.fld]; omega)
  have e1 : m_ % 4 = Enc.scope s := (low_mod T.lo 4 (by decide)).trans (by omega)
  have e2 : Dec.ra m_ = a := Fin.ext T.fa
  have e3 : Dec.rd m_ = d := Fin.ext T.fd
  have e4 : Dec.rb m_ = b := Fin.ext T.fb
  have es : Dec.fld m_ 4 8 = 4 := (low_fld T.lo 4 8 (by decide)).trans (by simp only [Dec.fld]; omega)
  clear hn
  rw [decode_memsync m_ hw hz hc]
  unfold Dec.memsync
  extract_lets zz ss
  rw [es]
  show (Dec.sizeWd zz fun z => (Except.ok : Instr → Except Reject Instr) (.atomAdd z ss (Dec.rd m_) (Dec.ra m_) (Dec.rb m_))) = _
  simp only [zz, ss, e0, e1, e2, e3, e4, scope_enc, sizeWd_enc z hwf]

theorem atomMin (z : MemSize) (s : Scope) (d : Reg) (a : Reg) (b : Reg) : Statement (.atomMin z s d a b) := by
  refine of_wf fun hwf => ?_
  have h_z := size_lt z
  have h_s := scope_lt s
  have h_d := d.isLt
  have h_a := a.isLt
  have h_b := b.isLt
  refine of_bits (22 * 134217728 + d.val * 4194304 + a.val * 131072 + b.val * 4096 + (80 + Enc.size z * 4 + Enc.scope s)) rfl (tri_lt _ _ _ _ _ (by decide) d.isLt a.isLt b.isLt (by omega)) fun m_ hn hw => ?_
  have T := tri_facts 22 d.val a.val b.val (80 + Enc.size z * 4 + Enc.scope s) d.isLt a.isLt b.isLt (by omega) m_ hn
  have hz : m_ ≠ 0 := T.ne_of_cls (by decide)
  have hc := T.cls
  have e0 : Dec.fld m_ 2 2 = Enc.size z := (low_fld T.lo 2 2 (by decide)).trans (by simp only [Dec.fld]; omega)
  have e1 : m_ % 4 = Enc.scope s := (low_mod T.lo 4 (by decide)).trans (by omega)
  have e2 : Dec.ra m_ = a := Fin.ext T.fa
  have e3 : Dec.rd m_ = d := Fin.ext T.fd
  have e4 : Dec.rb m_ = b := Fin.ext T.fb
  have es : Dec.fld m_ 4 8 = 5 := (low_fld T.lo 4 8 (by decide)).trans (by simp only [Dec.fld]; omega)
  clear hn
  rw [decode_memsync m_ hw hz hc]
  unfold Dec.memsync
  extract_lets zz ss
  rw [es]
  show (Dec.sizeWd zz fun z => (Except.ok : Instr → Except Reject Instr) (.atomMin z ss (Dec.rd m_) (Dec.ra m_) (Dec.rb m_))) = _
  simp only [zz, ss, e0, e1, e2, e3, e4, scope_enc, sizeWd_enc z hwf]

theorem atomMax (z : MemSize) (s : Scope) (d : Reg) (a : Reg) (b : Reg) : Statement (.atomMax z s d a b) := by
  refine of_wf fun hwf => ?_
  have h_z := size_lt z
  have h_s := scope_lt s
  have h_d := d.isLt
  have h_a := a.isLt
  have h_b := b.isLt
  refine of_bits (22 * 134217728 + d.val * 4194304 + a.val * 131072 + b.val * 4096 + (96 + Enc.size z * 4 + Enc.scope s)) rfl (tri_lt _ _ _ _ _ (by decide) d.isLt a.isLt b.isLt (by omega)) fun m_ hn hw => ?_
  have T := tri_facts 22 d.val a.val b.val (96 + Enc.size z * 4 + Enc.scope s) d.isLt a.isLt b.isLt (by omega) m_ hn
  have hz : m_ ≠ 0 := T.ne_of_cls (by decide)
  have hc := T.cls
  have e0 : Dec.fld m_ 2 2 = Enc.size z := (low_fld T.lo 2 2 (by decide)).trans (by simp only [Dec.fld]; omega)
  have e1 : m_ % 4 = Enc.scope s := (low_mod T.lo 4 (by decide)).trans (by omega)
  have e2 : Dec.ra m_ = a := Fin.ext T.fa
  have e3 : Dec.rd m_ = d := Fin.ext T.fd
  have e4 : Dec.rb m_ = b := Fin.ext T.fb
  have es : Dec.fld m_ 4 8 = 6 := (low_fld T.lo 4 8 (by decide)).trans (by simp only [Dec.fld]; omega)
  clear hn
  rw [decode_memsync m_ hw hz hc]
  unfold Dec.memsync
  extract_lets zz ss
  rw [es]
  show (Dec.sizeWd zz fun z => (Except.ok : Instr → Except Reject Instr) (.atomMax z ss (Dec.rd m_) (Dec.ra m_) (Dec.rb m_))) = _
  simp only [zz, ss, e0, e1, e2, e3, e4, scope_enc, sizeWd_enc z hwf]

theorem atomMinu (z : MemSize) (s : Scope) (d : Reg) (a : Reg) (b : Reg) : Statement (.atomMinu z s d a b) := by
  refine of_wf fun hwf => ?_
  have h_z := size_lt z
  have h_s := scope_lt s
  have h_d := d.isLt
  have h_a := a.isLt
  have h_b := b.isLt
  refine of_bits (22 * 134217728 + d.val * 4194304 + a.val * 131072 + b.val * 4096 + (112 + Enc.size z * 4 + Enc.scope s)) rfl (tri_lt _ _ _ _ _ (by decide) d.isLt a.isLt b.isLt (by omega)) fun m_ hn hw => ?_
  have T := tri_facts 22 d.val a.val b.val (112 + Enc.size z * 4 + Enc.scope s) d.isLt a.isLt b.isLt (by omega) m_ hn
  have hz : m_ ≠ 0 := T.ne_of_cls (by decide)
  have hc := T.cls
  have e0 : Dec.fld m_ 2 2 = Enc.size z := (low_fld T.lo 2 2 (by decide)).trans (by simp only [Dec.fld]; omega)
  have e1 : m_ % 4 = Enc.scope s := (low_mod T.lo 4 (by decide)).trans (by omega)
  have e2 : Dec.ra m_ = a := Fin.ext T.fa
  have e3 : Dec.rd m_ = d := Fin.ext T.fd
  have e4 : Dec.rb m_ = b := Fin.ext T.fb
  have es : Dec.fld m_ 4 8 = 7 := (low_fld T.lo 4 8 (by decide)).trans (by simp only [Dec.fld]; omega)
  clear hn
  rw [decode_memsync m_ hw hz hc]
  unfold Dec.memsync
  extract_lets zz ss
  rw [es]
  show (Dec.sizeWd zz fun z => (Except.ok : Instr → Except Reject Instr) (.atomMinu z ss (Dec.rd m_) (Dec.ra m_) (Dec.rb m_))) = _
  simp only [zz, ss, e0, e1, e2, e3, e4, scope_enc, sizeWd_enc z hwf]

theorem atomMaxu (z : MemSize) (s : Scope) (d : Reg) (a : Reg) (b : Reg) : Statement (.atomMaxu z s d a b) := by
  refine of_wf fun hwf => ?_
  have h_z := size_lt z
  have h_s := scope_lt s
  have h_d := d.isLt
  have h_a := a.isLt
  have h_b := b.isLt
  refine of_bits (22 * 134217728 + d.val * 4194304 + a.val * 131072 + b.val * 4096 + (128 + Enc.size z * 4 + Enc.scope s)) rfl (tri_lt _ _ _ _ _ (by decide) d.isLt a.isLt b.isLt (by omega)) fun m_ hn hw => ?_
  have T := tri_facts 22 d.val a.val b.val (128 + Enc.size z * 4 + Enc.scope s) d.isLt a.isLt b.isLt (by omega) m_ hn
  have hz : m_ ≠ 0 := T.ne_of_cls (by decide)
  have hc := T.cls
  have e0 : Dec.fld m_ 2 2 = Enc.size z := (low_fld T.lo 2 2 (by decide)).trans (by simp only [Dec.fld]; omega)
  have e1 : m_ % 4 = Enc.scope s := (low_mod T.lo 4 (by decide)).trans (by omega)
  have e2 : Dec.ra m_ = a := Fin.ext T.fa
  have e3 : Dec.rd m_ = d := Fin.ext T.fd
  have e4 : Dec.rb m_ = b := Fin.ext T.fb
  have es : Dec.fld m_ 4 8 = 8 := (low_fld T.lo 4 8 (by decide)).trans (by simp only [Dec.fld]; omega)
  clear hn
  rw [decode_memsync m_ hw hz hc]
  unfold Dec.memsync
  extract_lets zz ss
  rw [es]
  show (Dec.sizeWd zz fun z => (Except.ok : Instr → Except Reject Instr) (.atomMaxu z ss (Dec.rd m_) (Dec.ra m_) (Dec.rb m_))) = _
  simp only [zz, ss, e0, e1, e2, e3, e4, scope_enc, sizeWd_enc z hwf]

theorem atomAnd (z : MemSize) (s : Scope) (d : Reg) (a : Reg) (b : Reg) : Statement (.atomAnd z s d a b) := by
  refine of_wf fun hwf => ?_
  have h_z := size_lt z
  have h_s := scope_lt s
  have h_d := d.isLt
  have h_a := a.isLt
  have h_b := b.isLt
  refine of_bits (22 * 134217728 + d.val * 4194304 + a.val * 131072 + b.val * 4096 + (144 + Enc.size z * 4 + Enc.scope s)) rfl (tri_lt _ _ _ _ _ (by decide) d.isLt a.isLt b.isLt (by omega)) fun m_ hn hw => ?_
  have T := tri_facts 22 d.val a.val b.val (144 + Enc.size z * 4 + Enc.scope s) d.isLt a.isLt b.isLt (by omega) m_ hn
  have hz : m_ ≠ 0 := T.ne_of_cls (by decide)
  have hc := T.cls
  have e0 : Dec.fld m_ 2 2 = Enc.size z := (low_fld T.lo 2 2 (by decide)).trans (by simp only [Dec.fld]; omega)
  have e1 : m_ % 4 = Enc.scope s := (low_mod T.lo 4 (by decide)).trans (by omega)
  have e2 : Dec.ra m_ = a := Fin.ext T.fa
  have e3 : Dec.rd m_ = d := Fin.ext T.fd
  have e4 : Dec.rb m_ = b := Fin.ext T.fb
  have es : Dec.fld m_ 4 8 = 9 := (low_fld T.lo 4 8 (by decide)).trans (by simp only [Dec.fld]; omega)
  clear hn
  rw [decode_memsync m_ hw hz hc]
  unfold Dec.memsync
  extract_lets zz ss
  rw [es]
  show (Dec.sizeWd zz fun z => (Except.ok : Instr → Except Reject Instr) (.atomAnd z ss (Dec.rd m_) (Dec.ra m_) (Dec.rb m_))) = _
  simp only [zz, ss, e0, e1, e2, e3, e4, scope_enc, sizeWd_enc z hwf]

theorem atomOr (z : MemSize) (s : Scope) (d : Reg) (a : Reg) (b : Reg) : Statement (.atomOr z s d a b) := by
  refine of_wf fun hwf => ?_
  have h_z := size_lt z
  have h_s := scope_lt s
  have h_d := d.isLt
  have h_a := a.isLt
  have h_b := b.isLt
  refine of_bits (22 * 134217728 + d.val * 4194304 + a.val * 131072 + b.val * 4096 + (160 + Enc.size z * 4 + Enc.scope s)) rfl (tri_lt _ _ _ _ _ (by decide) d.isLt a.isLt b.isLt (by omega)) fun m_ hn hw => ?_
  have T := tri_facts 22 d.val a.val b.val (160 + Enc.size z * 4 + Enc.scope s) d.isLt a.isLt b.isLt (by omega) m_ hn
  have hz : m_ ≠ 0 := T.ne_of_cls (by decide)
  have hc := T.cls
  have e0 : Dec.fld m_ 2 2 = Enc.size z := (low_fld T.lo 2 2 (by decide)).trans (by simp only [Dec.fld]; omega)
  have e1 : m_ % 4 = Enc.scope s := (low_mod T.lo 4 (by decide)).trans (by omega)
  have e2 : Dec.ra m_ = a := Fin.ext T.fa
  have e3 : Dec.rd m_ = d := Fin.ext T.fd
  have e4 : Dec.rb m_ = b := Fin.ext T.fb
  have es : Dec.fld m_ 4 8 = 10 := (low_fld T.lo 4 8 (by decide)).trans (by simp only [Dec.fld]; omega)
  clear hn
  rw [decode_memsync m_ hw hz hc]
  unfold Dec.memsync
  extract_lets zz ss
  rw [es]
  show (Dec.sizeWd zz fun z => (Except.ok : Instr → Except Reject Instr) (.atomOr z ss (Dec.rd m_) (Dec.ra m_) (Dec.rb m_))) = _
  simp only [zz, ss, e0, e1, e2, e3, e4, scope_enc, sizeWd_enc z hwf]

theorem atomXor (z : MemSize) (s : Scope) (d : Reg) (a : Reg) (b : Reg) : Statement (.atomXor z s d a b) := by
  refine of_wf fun hwf => ?_
  have h_z := size_lt z
  have h_s := scope_lt s
  have h_d := d.isLt
  have h_a := a.isLt
  have h_b := b.isLt
  refine of_bits (22 * 134217728 + d.val * 4194304 + a.val * 131072 + b.val * 4096 + (176 + Enc.size z * 4 + Enc.scope s)) rfl (tri_lt _ _ _ _ _ (by decide) d.isLt a.isLt b.isLt (by omega)) fun m_ hn hw => ?_
  have T := tri_facts 22 d.val a.val b.val (176 + Enc.size z * 4 + Enc.scope s) d.isLt a.isLt b.isLt (by omega) m_ hn
  have hz : m_ ≠ 0 := T.ne_of_cls (by decide)
  have hc := T.cls
  have e0 : Dec.fld m_ 2 2 = Enc.size z := (low_fld T.lo 2 2 (by decide)).trans (by simp only [Dec.fld]; omega)
  have e1 : m_ % 4 = Enc.scope s := (low_mod T.lo 4 (by decide)).trans (by omega)
  have e2 : Dec.ra m_ = a := Fin.ext T.fa
  have e3 : Dec.rd m_ = d := Fin.ext T.fd
  have e4 : Dec.rb m_ = b := Fin.ext T.fb
  have es : Dec.fld m_ 4 8 = 11 := (low_fld T.lo 4 8 (by decide)).trans (by simp only [Dec.fld]; omega)
  clear hn
  rw [decode_memsync m_ hw hz hc]
  unfold Dec.memsync
  extract_lets zz ss
  rw [es]
  show (Dec.sizeWd zz fun z => (Except.ok : Instr → Except Reject Instr) (.atomXor z ss (Dec.rd m_) (Dec.ra m_) (Dec.rb m_))) = _
  simp only [zz, ss, e0, e1, e2, e3, e4, scope_enc, sizeWd_enc z hwf]

theorem atomSwap (z : MemSize) (s : Scope) (d : Reg) (a : Reg) (b : Reg) : Statement (.atomSwap z s d a b) := by
  refine of_wf fun hwf => ?_
  have h_z := size_lt z
  have h_s := scope_lt s
  have h_d := d.isLt
  have h_a := a.isLt
  have h_b := b.isLt
  refine of_bits (22 * 134217728 + d.val * 4194304 + a.val * 131072 + b.val * 4096 + (192 + Enc.size z * 4 + Enc.scope s)) rfl (tri_lt _ _ _ _ _ (by decide) d.isLt a.isLt b.isLt (by omega)) fun m_ hn hw => ?_
  have T := tri_facts 22 d.val a.val b.val (192 + Enc.size z * 4 + Enc.scope s) d.isLt a.isLt b.isLt (by omega) m_ hn
  have hz : m_ ≠ 0 := T.ne_of_cls (by decide)
  have hc := T.cls
  have e0 : Dec.fld m_ 2 2 = Enc.size z := (low_fld T.lo 2 2 (by decide)).trans (by simp only [Dec.fld]; omega)
  have e1 : m_ % 4 = Enc.scope s := (low_mod T.lo 4 (by decide)).trans (by omega)
  have e2 : Dec.ra m_ = a := Fin.ext T.fa
  have e3 : Dec.rd m_ = d := Fin.ext T.fd
  have e4 : Dec.rb m_ = b := Fin.ext T.fb
  have es : Dec.fld m_ 4 8 = 12 := (low_fld T.lo 4 8 (by decide)).trans (by simp only [Dec.fld]; omega)
  clear hn
  rw [decode_memsync m_ hw hz hc]
  unfold Dec.memsync
  extract_lets zz ss
  rw [es]
  show (Dec.sizeWd zz fun z => (Except.ok : Instr → Except Reject Instr) (.atomSwap z ss (Dec.rd m_) (Dec.ra m_) (Dec.rb m_))) = _
  simp only [zz, ss, e0, e1, e2, e3, e4, scope_enc, sizeWd_enc z hwf]

theorem cas (z : MemSize) (s : Scope) (d : Reg) (a : Reg) (b : Reg) : Statement (.cas z s d a b) := by
  refine of_wf fun hwf => ?_
  have h_z := size_lt z
  have h_s := scope_lt s
  have h_d := d.isLt
  have h_a := a.isLt
  have h_b := b.isLt
  refine of_bits (22 * 134217728 + d.val * 4194304 + a.val * 131072 + b.val * 4096 + (208 + Enc.size z * 4 + Enc.scope s)) rfl (tri_lt _ _ _ _ _ (by decide) d.isLt a.isLt b.isLt (by omega)) fun m_ hn hw => ?_
  have T := tri_facts 22 d.val a.val b.val (208 + Enc.size z * 4 + Enc.scope s) d.isLt a.isLt b.isLt (by omega) m_ hn
  have hz : m_ ≠ 0 := T.ne_of_cls (by decide)
  have hc := T.cls
  have e0 : Dec.fld m_ 2 2 = Enc.size z := (low_fld T.lo 2 2 (by decide)).trans (by simp only [Dec.fld]; omega)
  have e1 : m_ % 4 = Enc.scope s := (low_mod T.lo 4 (by decide)).trans (by omega)
  have e2 : Dec.ra m_ = a := Fin.ext T.fa
  have e3 : Dec.rd m_ = d := Fin.ext T.fd
  have e4 : Dec.rb m_ = b := Fin.ext T.fb
  have es : Dec.fld m_ 4 8 = 13 := (low_fld T.lo 4 8 (by decide)).trans (by simp only [Dec.fld]; omega)
  clear hn
  rw [decode_memsync m_ hw hz hc]
  unfold Dec.memsync
  extract_lets zz ss
  rw [es]
  show (Dec.sizeWd zz fun z => (Except.ok : Instr → Except Reject Instr) (.cas z ss (Dec.rd m_) (Dec.ra m_) (Dec.rb m_))) = _
  simp only [zz, ss, e0, e1, e2, e3, e4, scope_enc, sizeWd_enc z hwf]

theorem amergeI (z : MemSize) (s : Scope) (a : Reg) (b : Reg) : Statement (.amergeI z s a b) := by
  refine of_wf fun hwf => ?_
  have h_z := size_lt z
  have h_s := scope_lt s
  have h_a := a.isLt
  have h_b := b.isLt
  refine of_bits (22 * 134217728 + 0 * 4194304 + a.val * 131072 + b.val * 4096 + (224 + Enc.size z * 4 + Enc.scope s)) rfl (tri_lt _ _ _ _ _ (by decide) (by decide) a.isLt b.isLt (by omega)) fun m_ hn hw => ?_
  have T := tri_facts 22 0 a.val b.val (224 + Enc.size z * 4 + Enc.scope s) (by decide) a.isLt b.isLt (by omega) m_ hn
  have hz : m_ ≠ 0 := T.ne_of_cls (by decide)
  have hc := T.cls
  have e0 : Dec.fld m_ 2 2 = Enc.size z := (low_fld T.lo 2 2 (by decide)).trans (by simp only [Dec.fld]; omega)
  have e1 : m_ % 4 = Enc.scope s := (low_mod T.lo 4 (by decide)).trans (by omega)
  have e2 : Dec.fld m_ 22 5 = 0 := T.fd
  have e3 : Dec.ra m_ = a := Fin.ext T.fa
  have e4 : Dec.rb m_ = b := Fin.ext T.fb
  have es : Dec.fld m_ 4 8 = 14 := (low_fld T.lo 4 8 (by decide)).trans (by simp only [Dec.fld]; omega)
  clear hn
  rw [decode_memsync m_ hw hz hc]
  unfold Dec.memsync
  extract_lets zz ss
  rw [es]
  show (Dec.sizeWd zz fun z => Dec.zero (Dec.fld m_ 22 5) ((Except.ok : Instr → Except Reject Instr) (.amergeI z ss (Dec.ra m_) (Dec.rb m_)))) = _
  simp only [zz, ss, e0, e1, e2, e3, e4, scope_enc, zero_nil, sizeWd_enc z hwf]

theorem amergeF (s : Scope) (a : Reg) (b : Reg) : Statement (.amergeF s a b) := by
  have h_s := scope_lt s
  have h_a := a.isLt
  have h_b := b.isLt
  refine of_bits (22 * 134217728 + 0 * 4194304 + a.val * 131072 + b.val * 4096 + (248 + Enc.scope s)) rfl (tri_lt _ _ _ _ _ (by decide) (by decide) a.isLt b.isLt (by omega)) fun m_ hn hw => ?_
  have T := tri_facts 22 0 a.val b.val (248 + Enc.scope s) (by decide) a.isLt b.isLt (by omega) m_ hn
  have hz : m_ ≠ 0 := T.ne_of_cls (by decide)
  have hc := T.cls
  have e0 : Dec.fld m_ 2 2 = 2 := (low_fld T.lo 2 2 (by decide)).trans (by simp only [Dec.fld]; omega)
  have e1 : m_ % 4 = Enc.scope s := (low_mod T.lo 4 (by decide)).trans (by omega)
  have e2 : Dec.fld m_ 22 5 = 0 := T.fd
  have e3 : Dec.ra m_ = a := Fin.ext T.fa
  have e4 : Dec.rb m_ = b := Fin.ext T.fb
  have es : Dec.fld m_ 4 8 = 15 := (low_fld T.lo 4 8 (by decide)).trans (by simp only [Dec.fld]; omega)
  clear hn
  rw [decode_memsync m_ hw hz hc]
  unfold Dec.memsync
  extract_lets zz ss
  rw [es]
  show (Dec.need (zz == 2) .size (Dec.zero (Dec.fld m_ 22 5) ((Except.ok : Instr → Except Reject Instr) (.amergeF ss (Dec.ra m_) (Dec.rb m_))))) = _
  simp only [zz, ss, e0, e1, e2, e3, e4, scope_enc, zero_nil, need_true, beq_self_eq_true]

theorem pref (s : Scope) (a : Reg) : Statement (.pref s a) := by
  have h_s := scope_lt s
  have h_a := a.isLt
  refine of_bits (22 * 134217728 + 0 * 4194304 + a.val * 131072 + 0 * 4096 + (256 + Enc.scope s)) rfl (tri_lt _ _ _ _ _ (by decide) (by decide) a.isLt (by decide) (by omega)) fun m_ hn hw => ?_
  have T := tri_facts 22 0 a.val 0 (256 + Enc.scope s) (by decide) a.isLt (by decide) (by omega) m_ hn
  have hz : m_ ≠ 0 := T.ne_of_cls (by decide)
  have hc := T.cls
  have e0 : Dec.fld m_ 2 2 = 0 := (low_fld T.lo 2 2 (by decide)).trans (by simp only [Dec.fld]; omega)
  have e1 : m_ % 4 = Enc.scope s := (low_mod T.lo 4 (by decide)).trans (by omega)
  have e2 : Dec.fld m_ 22 5 = 0 := T.fd
  have e3 : Dec.fld m_ 12 5 = 0 := T.fb
  have e4 : Dec.ra m_ = a := Fin.ext T.fa
  have es : Dec.fld m_ 4 8 = 16 := (low_fld T.lo 4 8 (by decide)).trans (by simp only [Dec.fld]; omega)
  clear hn
  rw [decode_memsync m_ hw hz hc]
  unfold Dec.memsync
  extract_lets zz ss
  rw [es]
  show (Dec.need (zz == 0) .size (Dec.zero (Dec.fld m_ 22 5 + Dec.fld m_ 12 5) ((Except.ok : Instr → Except Reject Instr) (.pref ss (Dec.ra m_))))) = _
  simp only [zz, ss, e0, e1, e2, e3, e4, scope_enc, zero_nil, need_true, beq_self_eq_true, Nat.add_zero]

theorem cinv (s : Scope) (a : Reg) : Statement (.cinv s a) := by
  have h_s := scope_lt s
  have h_a := a.isLt
  refine of_bits (22 * 134217728 + 0 * 4194304 + a.val * 131072 + 0 * 4096 + (272 + Enc.scope s)) rfl (tri_lt _ _ _ _ _ (by decide) (by decide) a.isLt (by decide) (by omega)) fun m_ hn hw => ?_
  have T := tri_facts 22 0 a.val 0 (272 + Enc.scope s) (by decide) a.isLt (by decide) (by omega) m_ hn
  have hz : m_ ≠ 0 := T.ne_of_cls (by decide)
  have hc := T.cls
  have e0 : Dec.fld m_ 2 2 = 0 := (low_fld T.lo 2 2 (by decide)).trans (by simp only [Dec.fld]; omega)
  have e1 : m_ % 4 = Enc.scope s := (low_mod T.lo 4 (by decide)).trans (by omega)
  have e2 : Dec.fld m_ 22 5 = 0 := T.fd
  have e3 : Dec.fld m_ 12 5 = 0 := T.fb
  have e4 : Dec.ra m_ = a := Fin.ext T.fa
  have es : Dec.fld m_ 4 8 = 17 := (low_fld T.lo 4 8 (by decide)).trans (by simp only [Dec.fld]; omega)
  clear hn
  rw [decode_memsync m_ hw hz hc]
  unfold Dec.memsync
  extract_lets zz ss
  rw [es]
  show (Dec.need (zz == 0) .size (Dec.zero (Dec.fld m_ 22 5 + Dec.fld m_ 12 5) ((Except.ok : Instr → Except Reject Instr) (.cinv ss (Dec.ra m_))))) = _
  simp only [zz, ss, e0, e1, e2, e3, e4, scope_enc, zero_nil, need_true, beq_self_eq_true, Nat.add_zero]

theorem cflush (s : Scope) (a : Reg) : Statement (.cflush s a) := by
  have h_s := scope_lt s
  have h_a := a.isLt
  refine of_bits (22 * 134217728 + 0 * 4194304 + a.val * 131072 + 0 * 4096 + (288 + Enc.scope s)) rfl (tri_lt _ _ _ _ _ (by decide) (by decide) a.isLt (by decide) (by omega)) fun m_ hn hw => ?_
  have T := tri_facts 22 0 a.val 0 (288 + Enc.scope s) (by decide) a.isLt (by decide) (by omega) m_ hn
  have hz : m_ ≠ 0 := T.ne_of_cls (by decide)
  have hc := T.cls
  have e0 : Dec.fld m_ 2 2 = 0 := (low_fld T.lo 2 2 (by decide)).trans (by simp only [Dec.fld]; omega)
  have e1 : m_ % 4 = Enc.scope s := (low_mod T.lo 4 (by decide)).trans (by omega)
  have e2 : Dec.fld m_ 22 5 = 0 := T.fd
  have e3 : Dec.fld m_ 12 5 = 0 := T.fb
  have e4 : Dec.ra m_ = a := Fin.ext T.fa
  have es : Dec.fld m_ 4 8 = 18 := (low_fld T.lo 4 8 (by decide)).trans (by simp only [Dec.fld]; omega)
  clear hn
  rw [decode_memsync m_ hw hz hc]
  unfold Dec.memsync
  extract_lets zz ss
  rw [es]
  show (Dec.need (zz == 0) .size (Dec.zero (Dec.fld m_ 22 5 + Dec.fld m_ 12 5) ((Except.ok : Instr → Except Reject Instr) (.cflush ss (Dec.ra m_))))) = _
  simp only [zz, ss, e0, e1, e2, e3, e4, scope_enc, zero_nil, need_true, beq_self_eq_true, Nat.add_zero]

theorem sbind (s : Fin 4) (a : Reg) : Statement (.sbind s a) := by
  have h_s := s.isLt
  have h_a := a.isLt
  refine of_bits (23 * 134217728 + 0 * 4194304 + a.val * 131072 + 0 * 4096 + (s.val * 64 + 1)) rfl (tri_lt _ _ _ _ _ (by decide) (by decide) a.isLt (by decide) (by omega)) fun m_ hn hw => ?_
  have T := tri_facts 23 0 a.val 0 (s.val * 64 + 1) (by decide) a.isLt (by decide) (by omega) m_ hn
  have hz : m_ ≠ 0 := T.ne_of_cls (by decide)
  have hc := T.cls
  have e0 : Dec.fld m_ 22 5 = 0 := T.fd
  have e1 : Dec.fld m_ 8 9 = 0 := by simp only [Dec.fld]; omega
  have e2 : Dec.ra m_ = a := Fin.ext T.fa
  have e3 : Fin.ofNat 4 (m_ / 64) = s := Fin.ext (by simp only [Fin.ofNat]; omega)
  have es : m_ % 64 = 1 := (low_mod T.lo 64 (by decide)).trans (by omega)
  clear hn
  rw [decode_stream m_ hw hz hc]
  unfold Dec.stream
  rw [es]
  show (Dec.zero (Dec.fld m_ 22 5 + Dec.fld m_ 8 9) ((Except.ok : Instr → Except Reject Instr) (.sbind (Fin.ofNat 4 (m_ / 64)) (Dec.ra m_)))) = _
  simp only [e0, e1, e2, e3, zero_nil, Nat.add_zero]

theorem sclose (s : Fin 4) : Statement (.sclose s) := by
  have h_s := s.isLt
  refine of_bits (23 * 134217728 + 0 * 4194304 + 0 * 131072 + 0 * 4096 + (s.val * 64 + 2)) rfl (tri_lt _ _ _ _ _ (by decide) (by decide) (by decide) (by decide) (by omega)) fun m_ hn hw => ?_
  have T := tri_facts 23 0 0 0 (s.val * 64 + 2) (by decide) (by decide) (by decide) (by omega) m_ hn
  have hz : m_ ≠ 0 := T.ne_of_cls (by decide)
  have hc := T.cls
  have e0 : Dec.fld m_ 8 19 = 0 := by simp only [Dec.fld]; omega
  have e1 : Fin.ofNat 4 (m_ / 64) = s := Fin.ext (by simp only [Fin.ofNat]; omega)
  have es : m_ % 64 = 2 := (low_mod T.lo 64 (by decide)).trans (by omega)
  clear hn
  rw [decode_stream m_ hw hz hc]
  unfold Dec.stream
  rw [es]
  show (Dec.zero (Dec.fld m_ 8 19) ((Except.ok : Instr → Except Reject Instr) (.sclose (Fin.ofNat 4 (m_ / 64))))) = _
  simp only [e0, e1, zero_nil]

theorem sstat (d : Reg) (s : Fin 4) : Statement (.sstat d s) := by
  have h_d := d.isLt
  have h_s := s.isLt
  refine of_bits (23 * 134217728 + d.val * 4194304 + 0 * 131072 + 0 * 4096 + (s.val * 64 + 3)) rfl (tri_lt _ _ _ _ _ (by decide) d.isLt (by decide) (by decide) (by omega)) fun m_ hn hw => ?_
  have T := tri_facts 23 d.val 0 0 (s.val * 64 + 3) d.isLt (by decide) (by decide) (by omega) m_ hn
  have hz : m_ ≠ 0 := T.ne_of_cls (by decide)
  have hc := T.cls
  have e0 : Dec.fld m_ 8 14 = 0 := by simp only [Dec.fld]; omega
  have e1 : Dec.rd m_ = d := Fin.ext T.fd
  have e2 : Fin.ofNat 4 (m_ / 64) = s := Fin.ext (by simp only [Fin.ofNat]; omega)
  have es : m_ % 64 = 3 := (low_mod T.lo 64 (by decide)).trans (by omega)
  clear hn
  rw [decode_stream m_ hw hz hc]
  unfold Dec.stream
  rw [es]
  show (Dec.zero (Dec.fld m_ 8 14) ((Except.ok : Instr → Except Reject Instr) (.sstat (Dec.rd m_) (Fin.ofNat 4 (m_ / 64))))) = _
  simp only [e0, e1, e2, zero_nil]

theorem tcopy (d : Reg) (a : Reg) : Statement (.tcopy d a) := by
  have h_d := d.isLt
  have h_a := a.isLt
  refine of_bits (23 * 134217728 + d.val * 4194304 + a.val * 131072 + 0 * 4096 + 4) rfl (tri_lt _ _ _ _ _ (by decide) d.isLt a.isLt (by decide) (by decide)) fun m_ hn hw => ?_
  have T := tri_facts 23 d.val a.val 0 4 d.isLt a.isLt (by decide) (by decide) m_ hn
  have hz : m_ ≠ 0 := T.ne_of_cls (by decide)
  have hc := T.cls
  have e0 : Dec.fld m_ 12 5 = 0 := T.fb
  have e1 : Dec.fld m_ 6 6 = 0 := (low_fld T.lo 6 6 (by decide)).trans rfl
  have e2 : Dec.ra m_ = a := Fin.ext T.fa
  have e3 : Dec.rd m_ = d := Fin.ext T.fd
  have es : m_ % 64 = 4 := (low_mod T.lo 64 (by decide)).trans rfl
  clear hn
  rw [decode_stream m_ hw hz hc]
  unfold Dec.stream
  rw [es]
  show (Dec.zero (Dec.fld m_ 12 5 + Dec.fld m_ 6 6) ((Except.ok : Instr → Except Reject Instr) (.tcopy (Dec.rd m_) (Dec.ra m_)))) = _
  simp only [e0, e1, e2, e3, zero_nil, Nat.add_zero]

theorem tlwait (s : Scope) (a : Reg) (b : Reg) : Statement (.tlwait s a b) := by
  have h_s := scope_lt s
  have h_a := a.isLt
  have h_b := b.isLt
  refine of_bits (23 * 134217728 + 0 * 4194304 + a.val * 131072 + b.val * 4096 + (Enc.scope s * 64 + 5)) rfl (tri_lt _ _ _ _ _ (by decide) (by decide) a.isLt b.isLt (by omega)) fun m_ hn hw => ?_
  have T := tri_facts 23 0 a.val b.val (Enc.scope s * 64 + 5) (by decide) a.isLt b.isLt (by omega) m_ hn
  have hz : m_ ≠ 0 := T.ne_of_cls (by decide)
  have hc := T.cls
  have e0 : Dec.fld m_ 22 5 = 0 := T.fd
  have e1 : Dec.fld m_ 8 4 = 0 := (low_fld T.lo 8 4 (by decide)).trans (by simp only [Dec.fld]; omega)
  have e2 : Dec.fld m_ 6 2 = Enc.scope s := (low_fld T.lo 6 2 (by decide)).trans (by simp only [Dec.fld]; omega)
  have e3 : Dec.ra m_ = a := Fin.ext T.fa
  have e4 : Dec.rb m_ = b := Fin.ext T.fb
  have es : m_ % 64 = 5 := (low_mod T.lo 64 (by decide)).trans (by omega)
  clear hn
  rw [decode_stream m_ hw hz hc]
  unfold Dec.stream
  rw [es]
  show (Dec.zero (Dec.fld m_ 22 5 + Dec.fld m_ 8 4) ((Except.ok : Instr → Except Reject Instr) (.tlwait (Dec.scope (Dec.fld m_ 6 2)) (Dec.ra m_) (Dec.rb m_)))) = _
  simp only [e0, e1, e2, e3, e4, scope_enc, zero_nil, Nat.add_zero]

theorem tlread (k : TlSel) (d : Reg) (a : Reg) : Statement (.tlread k d a) := by
  have h_k := tlSel_lt k
  have h_d := d.isLt
  have h_a := a.isLt
  refine of_bits (23 * 134217728 + d.val * 4194304 + a.val * 131072 + 0 * 4096 + (Enc.tlSel k * 64 + 6)) rfl (tri_lt _ _ _ _ _ (by decide) d.isLt a.isLt (by decide) (by omega)) fun m_ hn hw => ?_
  have T := tri_facts 23 d.val a.val 0 (Enc.tlSel k * 64 + 6) d.isLt a.isLt (by decide) (by omega) m_ hn
  have hz : m_ ≠ 0 := T.ne_of_cls (by decide)
  have hc := T.cls
  have e0 : Dec.fld m_ 8 9 = 0 := by simp only [Dec.fld]; omega
  have e1 : Dec.fld m_ 6 2 = Enc.tlSel k := (low_fld T.lo 6 2 (by decide)).trans (by simp only [Dec.fld]; omega)
  have e2 : Dec.ra m_ = a := Fin.ext T.fa
  have e3 : Dec.rd m_ = d := Fin.ext T.fd
  have es : m_ % 64 = 6 := (low_mod T.lo 64 (by decide)).trans (by omega)
  clear hn
  rw [decode_stream m_ hw hz hc]
  unfold Dec.stream
  rw [es]
  show (Dec.zero (Dec.fld m_ 8 9) ((Except.ok : Instr → Except Reject Instr) (.tlread (Dec.tlSel (Dec.fld m_ 6 2)) (Dec.rd m_) (Dec.ra m_)))) = _
  simp only [e0, e1, e2, e3, tlSel_enc, zero_nil]

theorem tlarm (a : Reg) (b : Reg) : Statement (.tlarm a b) := by
  have h_a := a.isLt
  have h_b := b.isLt
  refine of_bits (23 * 134217728 + 0 * 4194304 + a.val * 131072 + b.val * 4096 + 7) rfl (tri_lt _ _ _ _ _ (by decide) (by decide) a.isLt b.isLt (by decide)) fun m_ hn hw => ?_
  have T := tri_facts 23 0 a.val b.val 7 (by decide) a.isLt b.isLt (by decide) m_ hn
  have hz : m_ ≠ 0 := T.ne_of_cls (by decide)
  have hc := T.cls
  have e0 : Dec.fld m_ 22 5 = 0 := T.fd
  have e1 : Dec.fld m_ 6 6 = 0 := (low_fld T.lo 6 6 (by decide)).trans rfl
  have e2 : Dec.ra m_ = a := Fin.ext T.fa
  have e3 : Dec.rb m_ = b := Fin.ext T.fb
  have es : m_ % 64 = 7 := (low_mod T.lo 64 (by decide)).trans rfl
  clear hn
  rw [decode_stream m_ hw hz hc]
  unfold Dec.stream
  rw [es]
  show (Dec.zero (Dec.fld m_ 22 5 + Dec.fld m_ 6 6) ((Except.ok : Instr → Except Reject Instr) (.tlarm (Dec.ra m_) (Dec.rb m_)))) = _
  simp only [e0, e1, e2, e3, zero_nil, Nat.add_zero]

theorem galloc (d : Reg) (a : Reg) (b : Reg) : Statement (.galloc d a b) := by
  have h_d := d.isLt
  have h_a := a.isLt
  have h_b := b.isLt
  refine of_bits (24 * 134217728 + d.val * 4194304 + a.val * 131072 + b.val * 4096 + 1) rfl (tri_lt _ _ _ _ _ (by decide) d.isLt a.isLt b.isLt (by decide)) fun m_ hn hw => ?_
  have T := tri_facts 24 d.val a.val b.val 1 d.isLt a.isLt b.isLt (by decide) m_ hn
  have hz : m_ ≠ 0 := T.ne_of_cls (by decide)
  have hc := T.cls
  have e0 : Dec.fld m_ 6 6 = 0 := (low_fld T.lo 6 6 (by decide)).trans rfl
  have e1 : Dec.ra m_ = a := Fin.ext T.fa
  have e2 : Dec.rd m_ = d := Fin.ext T.fd
  have e3 : Dec.rb m_ = b := Fin.ext T.fb
  have es : m_ % 64 = 1 := (low_mod T.lo 64 (by decide)).trans rfl
  clear hn
  rw [decode_gallery m_ hw hz hc]
  unfold Dec.gallery
  rw [es]
  show (Dec.zero (Dec.fld m_ 6 6) ((Except.ok : Instr → Except Reject Instr) (.galloc (Dec.rd m_) (Dec.ra m_) (Dec.rb m_)))) = _
  simp only [e0, e1, e2, e3, zero_nil]

theorem gtry (d : Reg) (a : Reg) (b : Reg) : Statement (.gtry d a b) := by
  have h_d := d.isLt
  have h_a := a.isLt
  have h_b := b.isLt
  refine of_bits (24 * 134217728 + d.val * 4194304 + a.val * 131072 + b.val * 4096 + 2) rfl (tri_lt _ _ _ _ _ (by decide) d.isLt a.isLt b.isLt (by decide)) fun m_ hn hw => ?_
  have T := tri_facts 24 d.val a.val b.val 2 d.isLt a.isLt b.isLt (by decide) m_ hn
  have hz : m_ ≠ 0 := T.ne_of_cls (by decide)
  have hc := T.cls
  have e0 : Dec.fld m_ 6 6 = 0 := (low_fld T.lo 6 6 (by decide)).trans rfl
  have e1 : Dec.ra m_ = a := Fin.ext T.fa
  have e2 : Dec.rd m_ = d := Fin.ext T.fd
  have e3 : Dec.rb m_ = b := Fin.ext T.fb
  have es : m_ % 64 = 2 := (low_mod T.lo 64 (by decide)).trans rfl
  clear hn
  rw [decode_gallery m_ hw hz hc]
  unfold Dec.gallery
  rw [es]
  show (Dec.zero (Dec.fld m_ 6 6) ((Except.ok : Instr → Except Reject Instr) (.gtry (Dec.rd m_) (Dec.ra m_) (Dec.rb m_)))) = _
  simp only [e0, e1, e2, e3, zero_nil]

theorem gseal (a : Reg) : Statement (.gseal a) := by
  have h_a := a.isLt
  refine of_bits (24 * 134217728 + 0 * 4194304 + a.val * 131072 + 0 * 4096 + 3) rfl (tri_lt _ _ _ _ _ (by decide) (by decide) a.isLt (by decide) (by decide)) fun m_ hn hw => ?_
  have T := tri_facts 24 0 a.val 0 3 (by decide) a.isLt (by decide) (by decide) m_ hn
  have hz : m_ ≠ 0 := T.ne_of_cls (by decide)
  have hc := T.cls
  have e0 : Dec.fld m_ 22 5 = 0 := T.fd
  have e1 : Dec.fld m_ 12 5 = 0 := T.fb
  have e2 : Dec.fld m_ 6 6 = 0 := (low_fld T.lo 6 6 (by decide)).trans rfl
  have e3 : Dec.ra m_ = a := Fin.ext T.fa
  have es : m_ % 64 = 3 := (low_mod T.lo 64 (by decide)).trans rfl
  clear hn
  rw [decode_gallery m_ hw hz hc]
  unfold Dec.gallery
  rw [es]
  show (Dec.zero (Dec.fld m_ 22 5 + Dec.fld m_ 12 5 + Dec.fld m_ 6 6) ((Except.ok : Instr → Except Reject Instr) (.gseal (Dec.ra m_)))) = _
  simp only [e0, e1, e2, e3, zero_nil, Nat.add_zero]

theorem gtake (d : Reg) (a : Reg) : Statement (.gtake d a) := by
  have h_d := d.isLt
  have h_a := a.isLt
  refine of_bits (24 * 134217728 + d.val * 4194304 + a.val * 131072 + 0 * 4096 + 4) rfl (tri_lt _ _ _ _ _ (by decide) d.isLt a.isLt (by decide) (by decide)) fun m_ hn hw => ?_
  have T := tri_facts 24 d.val a.val 0 4 d.isLt a.isLt (by decide) (by decide) m_ hn
  have hz : m_ ≠ 0 := T.ne_of_cls (by decide)
  have hc := T.cls
  have e0 : Dec.fld m_ 12 5 = 0 := T.fb
  have e1 : Dec.fld m_ 6 6 = 0 := (low_fld T.lo 6 6 (by decide)).trans rfl
  have e2 : Dec.ra m_ = a := Fin.ext T.fa
  have e3 : Dec.rd m_ = d := Fin.ext T.fd
  have es : m_ % 64 = 4 := (low_mod T.lo 64 (by decide)).trans rfl
  clear hn
  rw [decode_gallery m_ hw hz hc]
  unfold Dec.gallery
  rw [es]
  show (Dec.zero (Dec.fld m_ 12 5 + Dec.fld m_ 6 6) ((Except.ok : Instr → Except Reject Instr) (.gtake (Dec.rd m_) (Dec.ra m_)))) = _
  simp only [e0, e1, e2, e3, zero_nil, Nat.add_zero]

theorem gdone (a : Reg) : Statement (.gdone a) := by
  have h_a := a.isLt
  refine of_bits (24 * 134217728 + 0 * 4194304 + a.val * 131072 + 0 * 4096 + 5) rfl (tri_lt _ _ _ _ _ (by decide) (by decide) a.isLt (by decide) (by decide)) fun m_ hn hw => ?_
  have T := tri_facts 24 0 a.val 0 5 (by decide) a.isLt (by decide) (by decide) m_ hn
  have hz : m_ ≠ 0 := T.ne_of_cls (by decide)
  have hc := T.cls
  have e0 : Dec.fld m_ 22 5 = 0 := T.fd
  have e1 : Dec.fld m_ 12 5 = 0 := T.fb
  have e2 : Dec.fld m_ 6 6 = 0 := (low_fld T.lo 6 6 (by decide)).trans rfl
  have e3 : Dec.ra m_ = a := Fin.ext T.fa
  have es : m_ % 64 = 5 := (low_mod T.lo 64 (by decide)).trans rfl
  clear hn
  rw [decode_gallery m_ hw hz hc]
  unfold Dec.gallery
  rw [es]
  show (Dec.zero (Dec.fld m_ 22 5 + Dec.fld m_ 12 5 + Dec.fld m_ 6 6) ((Except.ok : Instr → Except Reject Instr) (.gdone (Dec.ra m_)))) = _
  simp only [e0, e1, e2, e3, zero_nil, Nat.add_zero]

theorem gdrop (a : Reg) (b : Reg) : Statement (.gdrop a b) := by
  have h_a := a.isLt
  have h_b := b.isLt
  refine of_bits (24 * 134217728 + 0 * 4194304 + a.val * 131072 + b.val * 4096 + 6) rfl (tri_lt _ _ _ _ _ (by decide) (by decide) a.isLt b.isLt (by decide)) fun m_ hn hw => ?_
  have T := tri_facts 24 0 a.val b.val 6 (by decide) a.isLt b.isLt (by decide) m_ hn
  have hz : m_ ≠ 0 := T.ne_of_cls (by decide)
  have hc := T.cls
  have e0 : Dec.fld m_ 22 5 = 0 := T.fd
  have e1 : Dec.fld m_ 6 6 = 0 := (low_fld T.lo 6 6 (by decide)).trans rfl
  have e2 : Dec.ra m_ = a := Fin.ext T.fa
  have e3 : Dec.rb m_ = b := Fin.ext T.fb
  have es : m_ % 64 = 6 := (low_mod T.lo 64 (by decide)).trans rfl
  clear hn
  rw [decode_gallery m_ hw hz hc]
  unfold Dec.gallery
  rw [es]
  show (Dec.zero (Dec.fld m_ 22 5 + Dec.fld m_ 6 6) ((Except.ok : Instr → Except Reject Instr) (.gdrop (Dec.ra m_) (Dec.rb m_)))) = _
  simp only [e0, e1, e2, e3, zero_nil, Nat.add_zero]

theorem gstatBay (d : Reg) (a : Reg) : Statement (.gstatBay d a) := by
  have h_d := d.isLt
  have h_a := a.isLt
  refine of_bits (24 * 134217728 + d.val * 4194304 + a.val * 131072 + 0 * 4096 + 7) rfl (tri_lt _ _ _ _ _ (by decide) d.isLt a.isLt (by decide) (by decide)) fun m_ hn hw => ?_
  have T := tri_facts 24 d.val a.val 0 7 d.isLt a.isLt (by decide) (by decide) m_ hn
  have hz : m_ ≠ 0 := T.ne_of_cls (by decide)
  have hc := T.cls
  have e0 : Dec.fld m_ 12 5 = 0 := T.fb
  have e1 : Dec.fld m_ 7 5 = 0 := (low_fld T.lo 7 5 (by decide)).trans rfl
  have e2 : Dec.fld m_ 6 1 = 0 := (low_fld T.lo 6 1 (by decide)).trans rfl
  have e3 : Dec.ra m_ = a := Fin.ext T.fa
  have e4 : Dec.rd m_ = d := Fin.ext T.fd
  have es : m_ % 64 = 7 := (low_mod T.lo 64 (by decide)).trans rfl
  clear hn
  rw [decode_gallery m_ hw hz hc]
  unfold Dec.gallery
  rw [es]
  show (Dec.zero (Dec.fld m_ 12 5 + Dec.fld m_ 7 5) (if Dec.fld m_ 6 1 = 1 then (Except.ok : Instr → Except Reject Instr) (.gstatTile (Dec.rd m_) (Dec.ra m_)) else (Except.ok : Instr → Except Reject Instr) (.gstatBay (Dec.rd m_) (Dec.ra m_)))) = _
  simp only [e0, e1, e2, e3, e4, zero_nil, Nat.add_zero, if_false, Nat.zero_ne_one]

theorem gstatTile (d : Reg) (a : Reg) : Statement (.gstatTile d a) := by
  have h_d := d.isLt
  have h_a := a.isLt
  refine of_bits (24 * 134217728 + d.val * 4194304 + a.val * 131072 + 0 * 4096 + 71) rfl (tri_lt _ _ _ _ _ (by decide) d.isLt a.isLt (by decide) (by decide)) fun m_ hn hw => ?_
  have T := tri_facts 24 d.val a.val 0 71 d.isLt a.isLt (by decide) (by decide) m_ hn
  have hz : m_ ≠ 0 := T.ne_of_cls (by decide)
  have hc := T.cls
  have e0 : Dec.fld m_ 12 5 = 0 := T.fb
  have e1 : Dec.fld m_ 7 5 = 0 := (low_fld T.lo 7 5 (by decide)).trans rfl
  have e2 : Dec.fld m_ 6 1 = 1 := (low_fld T.lo 6 1 (by decide)).trans rfl
  have e3 : Dec.ra m_ = a := Fin.ext T.fa
  have e4 : Dec.rd m_ = d := Fin.ext T.fd
  have es : m_ % 64 = 7 := (low_mod T.lo 64 (by decide)).trans rfl
  clear hn
  rw [decode_gallery m_ hw hz hc]
  unfold Dec.gallery
  rw [es]
  show (Dec.zero (Dec.fld m_ 12 5 + Dec.fld m_ 7 5) (if Dec.fld m_ 6 1 = 1 then (Except.ok : Instr → Except Reject Instr) (.gstatTile (Dec.rd m_) (Dec.ra m_)) else (Except.ok : Instr → Except Reject Instr) (.gstatBay (Dec.rd m_) (Dec.ra m_)))) = _
  simp only [e0, e1, e2, e3, e4, zero_nil, Nat.add_zero, if_true]

theorem gbay (d : Reg) (a : Reg) (b : Reg) : Statement (.gbay d a b) := by
  have h_d := d.isLt
  have h_a := a.isLt
  have h_b := b.isLt
  refine of_bits (24 * 134217728 + d.val * 4194304 + a.val * 131072 + b.val * 4096 + 8) rfl (tri_lt _ _ _ _ _ (by decide) d.isLt a.isLt b.isLt (by decide)) fun m_ hn hw => ?_
  have T := tri_facts 24 d.val a.val b.val 8 d.isLt a.isLt b.isLt (by decide) m_ hn
  have hz : m_ ≠ 0 := T.ne_of_cls (by decide)
  have hc := T.cls
  have e0 : Dec.fld m_ 6 6 = 0 := (low_fld T.lo 6 6 (by decide)).trans rfl
  have e1 : Dec.ra m_ = a := Fin.ext T.fa
  have e2 : Dec.rd m_ = d := Fin.ext T.fd
  have e3 : Dec.rb m_ = b := Fin.ext T.fb
  have es : m_ % 64 = 8 := (low_mod T.lo 64 (by decide)).trans rfl
  clear hn
  rw [decode_gallery m_ hw hz hc]
  unfold Dec.gallery
  rw [es]
  show (Dec.zero (Dec.fld m_ 6 6) ((Except.ok : Instr → Except Reject Instr) (.gbay (Dec.rd m_) (Dec.ra m_) (Dec.rb m_)))) = _
  simp only [e0, e1, e2, e3, zero_nil]

theorem wcfg (g : Cfg) (a : Reg) : Statement (.wcfg g a) := by
  have h_g := cfg_lt g
  have h_a := a.isLt
  refine of_bits (25 * 134217728 + 1 * 2097152 + a.val * 65536 + 0 * 2048 + (Enc.cfg g)) rfl (by omega) fun m_ hn hw => ?_
  have hz : m_ ≠ 0 := by omega
  have hc : m_ / 134217728 = 25 := by omega
  have e0 : Dec.fld m_ 3 13 = 0 := by simp only [Dec.fld]; omega
  have e1 : Dec.xa m_ = a := Fin.ext (by simp only [Dec.xa, Fin.ofNat]; omega)
  have e2 : Dec.cfg m_ = g := cfg_of (by omega)
  have es : Dec.fld m_ 21 6 = 1 := by simp only [Dec.fld]; omega
  clear hn
  rw [decode_bank m_ hw hz hc]
  unfold Dec.bank
  rw [es]
  show (Dec.zero (Dec.fld m_ 3 13) ((Except.ok : Instr → Except Reject Instr) (.wcfg (Dec.cfg m_) (Dec.xa m_)))) = _
  simp only [e0, e1, e2, zero_nil]

theorem wrcf (a : Reg) (g : Cfg) : Statement (.wrcf a g) := by
  have h_a := a.isLt
  have h_g := cfg_lt g
  refine of_bits (25 * 134217728 + 2 * 2097152 + a.val * 65536 + 0 * 2048 + (Enc.cfg g)) rfl (by omega) fun m_ hn hw => ?_
  have hz : m_ ≠ 0 := by omega
  have hc : m_ / 134217728 = 25 := by omega
  have e0 : Dec.fld m_ 3 13 = 0 := by simp only [Dec.fld]; omega
  have e1 : Dec.xa m_ = a := Fin.ext (by simp only [Dec.xa, Fin.ofNat]; omega)
  have e2 : Dec.cfg m_ = g := cfg_of (by omega)
  have es : Dec.fld m_ 21 6 = 2 := by simp only [Dec.fld]; omega
  clear hn
  rw [decode_bank m_ hw hz hc]
  unfold Dec.bank
  rw [es]
  show (Dec.zero (Dec.fld m_ 3 13) ((Except.ok : Instr → Except Reject Instr) (.wrcf (Dec.xa m_) (Dec.cfg m_)))) = _
  simp only [e0, e1, e2, zero_nil]

theorem wldp (s : Side) (rev : Bool) (i : ZReg) (a : Reg) (b : Reg) : Statement (.wldp s rev i a b) := by
  have h_s := side_lt s
  have h_rev := bit_lt rev
  have h_i := i.isLt
  have h_a := a.isLt
  have h_b := b.isLt
  refine of_bits (25 * 134217728 + 3 * 2097152 + a.val * 65536 + b.val * 2048 + (Enc.bit rev * 32 + Enc.side s * 16 + i.val)) rfl (by omega) fun m_ hn hw => ?_
  have hz : m_ ≠ 0 := by omega
  have hc : m_ / 134217728 = 25 := by omega
  have e0 : Dec.fld m_ 6 5 = 0 := by simp only [Dec.fld]; omega
  have e1 : Dec.fld m_ 4 1 = Enc.side s := by simp only [Dec.fld]; omega
  have e2 : Dec.fld m_ 5 1 = Enc.bit rev := by simp only [Dec.fld]; omega
  have e3 : Dec.xa m_ = a := Fin.ext (by simp only [Dec.xa, Fin.ofNat]; omega)
  have e4 : Dec.z0 m_ = i := Fin.ext (by simp only [Dec.z0, Fin.ofNat]; omega)
  have e5 : Dec.xb m_ = b := Fin.ext (by simp only [Dec.xb, Fin.ofNat]; omega)
  have es : Dec.fld m_ 21 6 = 3 := by simp only [Dec.fld]; omega
  clear hn
  rw [decode_bank m_ hw hz hc]
  unfold Dec.bank
  rw [es]
  show (Dec.zero (Dec.fld m_ 6 5) ((Except.ok : Instr → Except Reject Instr) (.wldp (Dec.side (Dec.fld m_ 4 1)) (Dec.fld m_ 5 1 == 1) (Dec.z0 m_) (Dec.xa m_) (Dec.xb m_)))) = _
  simp only [e0, e1, e2, e3, e4, e5, side_enc, bit_enc, zero_nil]

theorem wldt (s : Side) (rev : Bool) (i : ZReg) (a : Reg) (b : Reg) : Statement (.wldt s rev i a b) := by
  have h_s := side_lt s
  have h_rev := bit_lt rev
  have h_i := i.isLt
  have h_a := a.isLt
  have h_b := b.isLt
  refine of_bits (25 * 134217728 + 4 * 2097152 + a.val * 65536 + b.val * 2048 + (Enc.bit rev * 32 + Enc.side s * 16 + i.val)) rfl (by omega) fun m_ hn hw => ?_
  have hz : m_ ≠ 0 := by omega
  have hc : m_ / 134217728 = 25 := by omega
  have e0 : Dec.fld m_ 6 5 = 0 := by simp only [Dec.fld]; omega
  have e1 : Dec.fld m_ 4 1 = Enc.side s := by simp only [Dec.fld]; omega
  have e2 : Dec.fld m_ 5 1 = Enc.bit rev := by simp only [Dec.fld]; omega
  have e3 : Dec.xa m_ = a := Fin.ext (by simp only [Dec.xa, Fin.ofNat]; omega)
  have e4 : Dec.z0 m_ = i := Fin.ext (by simp only [Dec.z0, Fin.ofNat]; omega)
  have e5 : Dec.xb m_ = b := Fin.ext (by simp only [Dec.xb, Fin.ofNat]; omega)
  have es : Dec.fld m_ 21 6 = 4 := by simp only [Dec.fld]; omega
  clear hn
  rw [decode_bank m_ hw hz hc]
  unfold Dec.bank
  rw [es]
  show (Dec.zero (Dec.fld m_ 6 5) ((Except.ok : Instr → Except Reject Instr) (.wldt (Dec.side (Dec.fld m_ 4 1)) (Dec.fld m_ 5 1 == 1) (Dec.z0 m_) (Dec.xa m_) (Dec.xb m_)))) = _
  simp only [e0, e1, e2, e3, e4, e5, side_enc, bit_enc, zero_nil]

theorem wmul (p : Fin 8) (m : ZReg) (n : ZReg) (a : Reg) : Statement (.wmul p m n a) := by
  have h_p := p.isLt
  have h_m := m.isLt
  have h_n := n.isLt
  have h_a := a.isLt
  refine of_bits (25 * 134217728 + 5 * 2097152 + a.val * 65536 + 0 * 2048 + (p.val * 256 + m.val * 16 + n.val)) rfl (by omega) fun m_ hn hw => ?_
  have hz : m_ ≠ 0 := by omega
  have hc : m_ / 134217728 = 25 := by omega
  have e0 : Dec.fld m_ 11 5 = 0 := by simp only [Dec.fld]; omega
  have e1 : Dec.xa m_ = a := Fin.ext (by simp only [Dec.xa, Fin.ofNat]; omega)
  have e2 : Dec.z0 m_ = n := Fin.ext (by simp only [Dec.z0, Fin.ofNat]; omega)
  have e3 : Dec.z1 m_ = m := Fin.ext (by simp only [Dec.z1, Fin.ofNat]; omega)
  have e4 : Fin.ofNat 8 (m_ / 256) = p := Fin.ext (by simp only [Fin.ofNat]; omega)
  have es : Dec.fld m_ 21 6 = 5 := by simp only [Dec.fld]; omega
  clear hn
  rw [decode_bank m_ hw hz hc]
  unfold Dec.bank
  rw [es]
  show (Dec.zero (Dec.fld m_ 11 5) ((Except.ok : Instr → Except Reject Instr) (.wmul (Fin.ofNat 8 (m_ / 256)) (Dec.z1 m_) (Dec.z0 m_) (Dec.xa m_)))) = _
  simp only [e0, e1, e2, e3, e4, zero_nil]

theorem wmac (m : ZReg) (n : ZReg) (a : Reg) (b : Reg) : Statement (.wmac m n a b) := by
  have h_m := m.isLt
  have h_n := n.isLt
  have h_a := a.isLt
  have h_b := b.isLt
  refine of_bits (25 * 134217728 + 6 * 2097152 + a.val * 65536 + b.val * 2048 + (m.val * 16 + n.val)) rfl (by omega) fun m_ hn hw => ?_
  have hz : m_ ≠ 0 := by omega
  have hc : m_ / 134217728 = 25 := by omega
  have e0 : Dec.fld m_ 8 3 = 0 := by simp only [Dec.fld]; omega
  have e1 : Dec.xa m_ = a := Fin.ext (by simp only [Dec.xa, Fin.ofNat]; omega)
  have e2 : Dec.z0 m_ = n := Fin.ext (by simp only [Dec.z0, Fin.ofNat]; omega)
  have e3 : Dec.z1 m_ = m := Fin.ext (by simp only [Dec.z1, Fin.ofNat]; omega)
  have e4 : Dec.xb m_ = b := Fin.ext (by simp only [Dec.xb, Fin.ofNat]; omega)
  have es : Dec.fld m_ 21 6 = 6 := by simp only [Dec.fld]; omega
  clear hn
  rw [decode_bank m_ hw hz hc]
  unfold Dec.bank
  rw [es]
  show (Dec.zero (Dec.fld m_ 8 3) ((Except.ok : Instr → Except Reject Instr) (.wmac (Dec.z1 m_) (Dec.z0 m_) (Dec.xa m_) (Dec.xb m_)))) = _
  simp only [e0, e1, e2, e3, e4, zero_nil]

theorem wext (p : Fin 8) (a : Reg) (b : Reg) : Statement (.wext p a b) := by
  have h_p := p.isLt
  have h_a := a.isLt
  have h_b := b.isLt
  refine of_bits (25 * 134217728 + 7 * 2097152 + a.val * 65536 + b.val * 2048 + p.val) rfl (by omega) fun m_ hn hw => ?_
  have hz : m_ ≠ 0 := by omega
  have hc : m_ / 134217728 = 25 := by omega
  have e0 : Dec.fld m_ 3 8 = 0 := by simp only [Dec.fld]; omega
  have e1 : Dec.xa m_ = a := Fin.ext (by simp only [Dec.xa, Fin.ofNat]; omega)
  have e2 : Dec.xb m_ = b := Fin.ext (by simp only [Dec.xb, Fin.ofNat]; omega)
  have e3 : Fin.ofNat 8 m_ = p := Fin.ext (by simp only [Fin.ofNat]; omega)
  have es : Dec.fld m_ 21 6 = 7 := by simp only [Dec.fld]; omega
  clear hn
  rw [decode_bank m_ hw hz hc]
  unfold Dec.bank
  rw [es]
  show (Dec.zero (Dec.fld m_ 3 8) ((Except.ok : Instr → Except Reject Instr) (.wext (Fin.ofNat 8 m_) (Dec.xa m_) (Dec.xb m_)))) = _
  simp only [e0, e1, e2, e3, zero_nil]

theorem wrot (t : Dir) (m : ZReg) (n : ZReg) : Statement (.wrot t m n) := by
  refine of_wf fun hwf => ?_
  have h_t := dir_lt t
  have h_m := m.isLt
  have h_n := n.isLt
  refine of_bits (25 * 134217728 + 8 * 2097152 + 0 * 65536 + 0 * 2048 + (Enc.dir t * 256 + m.val * 16 + n.val)) rfl (by omega) fun m_ hn hw => ?_
  have hz : m_ ≠ 0 := by omega
  have hc : m_ / 134217728 = 25 := by omega
  have e0 : Dec.fld m_ 11 10 = 0 := by simp only [Dec.fld]; omega
  have e1 : Dec.fld m_ 10 1 = 0 := by simp only [Dec.fld]; omega
  have e2 : Dec.fld m_ 8 2 = Enc.dir t := by simp only [Dec.fld]; omega
  have e3 : Dec.fld m_ 4 4 = m.val := by simp only [Dec.fld]; omega
  have e4 : m_ % 16 = n.val := by omega
  have e5 : Dec.z0 m_ = n := Fin.ext (by simp only [Dec.z0, Fin.ofNat]; omega)
  have e6 : Dec.z1 m_ = m := Fin.ext (by simp only [Dec.z1, Fin.ofNat]; omega)
  have es : Dec.fld m_ 21 6 = 8 := by simp only [Dec.fld]; omega
  clear hn
  rw [decode_bank m_ hw hz hc]
  unfold Dec.bank
  rw [es]
  show (Dec.zero (Dec.fld m_ 11 10 + Dec.fld m_ 10 1) (Dec.dir (Dec.fld m_ 8 2) (Dec.fld m_ 4 4) (m_ % 16) fun t => (Except.ok : Instr → Except Reject Instr) (.wrot t (Dec.z1 m_) (Dec.z0 m_)))) = _
  simp only [e0, e1, e2, e3, e4, e5, e6, zero_nil, Nat.add_zero, dir_enc t m n hwf]

theorem wmacr (t : Dir) (m : ZReg) (n : ZReg) (a : Reg) (b : Reg) : Statement (.wmacr t m n a b) := by
  refine of_wf fun hwf => ?_
  have h_t := dir_lt t
  have h_m := m.isLt
  have h_n := n.isLt
  have h_a := a.isLt
  have h_b := b.isLt
  refine of_bits (25 * 134217728 + 9 * 2097152 + a.val * 65536 + b.val * 2048 + (Enc.dir t * 256 + m.val * 16 + n.val)) rfl (by omega) fun m_ hn hw => ?_
  have hz : m_ ≠ 0 := by omega
  have hc : m_ / 134217728 = 25 := by omega
  have e0 : Dec.fld m_ 10 1 = 0 := by simp only [Dec.fld]; omega
  have e1 : Dec.fld m_ 8 2 = Enc.dir t := by simp only [Dec.fld]; omega
  have e2 : Dec.fld m_ 4 4 = m.val := by simp only [Dec.fld]; omega
  have e3 : m_ % 16 = n.val := by omega
  have e4 : Dec.xa m_ = a := Fin.ext (by simp only [Dec.xa, Fin.ofNat]; omega)
  have e5 : Dec.z0 m_ = n := Fin.ext (by simp only [Dec.z0, Fin.ofNat]; omega)
  have e6 : Dec.z1 m_ = m := Fin.ext (by simp only [Dec.z1, Fin.ofNat]; omega)
  have e7 : Dec.xb m_ = b := Fin.ext (by simp only [Dec.xb, Fin.ofNat]; omega)
  have es : Dec.fld m_ 21 6 = 9 := by simp only [Dec.fld]; omega
  clear hn
  rw [decode_bank m_ hw hz hc]
  unfold Dec.bank
  rw [es]
  show (Dec.zero (Dec.fld m_ 10 1) (Dec.dir (Dec.fld m_ 8 2) (Dec.fld m_ 4 4) (m_ % 16) fun t => (Except.ok : Instr → Except Reject Instr) (.wmacr t (Dec.z1 m_) (Dec.z0 m_) (Dec.xa m_) (Dec.xb m_)))) = _
  simp only [e0, e1, e2, e3, e4, e5, e6, e7, zero_nil, dir_enc t m n hwf]

theorem wsta (a : Reg) (b : Reg) : Statement (.wsta a b) := by
  have h_a := a.isLt
  have h_b := b.isLt
  refine of_bits (25 * 134217728 + 10 * 2097152 + a.val * 65536 + b.val * 2048 + 0) rfl (by omega) fun m_ hn hw => ?_
  have hz : m_ ≠ 0 := by omega
  have hc : m_ / 134217728 = 25 := by omega
  have e0 : Dec.fld m_ 0 11 = 0 := by simp only [Dec.fld]; omega
  have e1 : Dec.xa m_ = a := Fin.ext (by simp only [Dec.xa, Fin.ofNat]; omega)
  have e2 : Dec.xb m_ = b := Fin.ext (by simp only [Dec.xb, Fin.ofNat]; omega)
  have es : Dec.fld m_ 21 6 = 10 := by simp only [Dec.fld]; omega
  clear hn
  rw [decode_bank m_ hw hz hc]
  unfold Dec.bank
  rw [es]
  show (Dec.zero (Dec.fld m_ 0 11) ((Except.ok : Instr → Except Reject Instr) (.wsta (Dec.xa m_) (Dec.xb m_)))) = _
  simp only [e0, e1, e2, zero_nil]

theorem wzero (a : Reg) (b : Reg) : Statement (.wzero a b) := by
  have h_a := a.isLt
  have h_b := b.isLt
  refine of_bits (25 * 134217728 + 11 * 2097152 + a.val * 65536 + b.val * 2048 + 0) rfl (by omega) fun m_ hn hw => ?_
  have hz : m_ ≠ 0 := by omega
  have hc : m_ / 134217728 = 25 := by omega
  have e0 : Dec.fld m_ 5 6 = 0 := by simp only [Dec.fld]; omega
  have e1 : Dec.fld m_ 0 11 = 0 := by simp only [Dec.fld]; omega
  have e2 : Dec.fld m_ 4 1 = 0 := by simp only [Dec.fld]; omega
  have e3 : Dec.xa m_ = a := Fin.ext (by simp only [Dec.xa, Fin.ofNat]; omega)
  have e4 : Dec.xb m_ = b := Fin.ext (by simp only [Dec.xb, Fin.ofNat]; omega)
  have es : Dec.fld m_ 21 6 = 11 := by simp only [Dec.fld]; omega
  clear hn
  rw [decode_bank m_ hw hz hc]
  unfold Dec.bank
  rw [es]
  show (if Dec.fld m_ 4 1 = 1 then Dec.zero (Dec.fld m_ 11 10 + Dec.fld m_ 5 6) ((Except.ok : Instr → Except Reject Instr) (.wzeroZ (Dec.z0 m_))) else Dec.zero (Dec.fld m_ 0 11) ((Except.ok : Instr → Except Reject Instr) (.wzero (Dec.xa m_) (Dec.xb m_)))) = _
  simp only [e0, e1, e2, e3, e4, zero_nil, Nat.add_zero, if_false, Nat.zero_ne_one]

theorem wzeroZ (i : ZReg) : Statement (.wzeroZ i) := by
  have h_i := i.isLt
  refine of_bits (25 * 134217728 + 11 * 2097152 + 0 * 65536 + 0 * 2048 + (16 + i.val)) rfl (by omega) fun m_ hn hw => ?_
  have hz : m_ ≠ 0 := by omega
  have hc : m_ / 134217728 = 25 := by omega
  have e0 : Dec.fld m_ 11 10 = 0 := by simp only [Dec.fld]; omega
  have e1 : Dec.fld m_ 5 6 = 0 := by simp only [Dec.fld]; omega
  have e2 : Dec.fld m_ 4 1 = 1 := by simp only [Dec.fld]; omega
  have e3 : Dec.z0 m_ = i := Fin.ext (by simp only [Dec.z0, Fin.ofNat]; omega)
  have es : Dec.fld m_ 21 6 = 11 := by simp only [Dec.fld]; omega
  clear hn
  rw [decode_bank m_ hw hz hc]
  unfold Dec.bank
  rw [es]
  show (if Dec.fld m_ 4 1 = 1 then Dec.zero (Dec.fld m_ 11 10 + Dec.fld m_ 5 6) ((Except.ok : Instr → Except Reject Instr) (.wzeroZ (Dec.z0 m_))) else Dec.zero (Dec.fld m_ 0 11) ((Except.ok : Instr → Except Reject Instr) (.wzero (Dec.xa m_) (Dec.xb m_)))) = _
  simp only [e0, e1, e2, e3, zero_nil, Nat.add_zero, if_true]

theorem wwait (a : Reg) : Statement (.wwait a) := by
  have h_a := a.isLt
  refine of_bits (25 * 134217728 + 12 * 2097152 + a.val * 65536 + 0 * 2048 + 0) rfl (by omega) fun m_ hn hw => ?_
  have hz : m_ ≠ 0 := by omega
  have hc : m_ / 134217728 = 25 := by omega
  have e0 : Dec.fld m_ 0 16 = 0 := by simp only [Dec.fld]; omega
  have e1 : Dec.xa m_ = a := Fin.ext (by simp only [Dec.xa, Fin.ofNat]; omega)
  have es : Dec.fld m_ 21 6 = 12 := by simp only [Dec.fld]; omega
  clear hn
  rw [decode_bank m_ hw hz hc]
  unfold Dec.bank
  rw [es]
  show (Dec.zero (Dec.fld m_ 0 16) ((Except.ok : Instr → Except Reject Instr) (.wwait (Dec.xa m_)))) = _
  simp only [e0, e1, zero_nil]

theorem wstat (clr : Bool) (a : Reg) (sel : Fin 7) : Statement (.wstat clr a sel) := by
  refine of_wf fun hwf => ?_
  have h_clr := bit_lt clr
  have h_a := a.isLt
  have h_sel := sel.isLt
  refine of_bits (25 * 134217728 + 13 * 2097152 + a.val * 65536 + 0 * 2048 + (Enc.bit clr * 8 + sel.val)) rfl (by omega) fun m_ hn hw => ?_
  have hz : m_ ≠ 0 := by omega
  have hc : m_ / 134217728 = 25 := by omega
  have e0 : Dec.fld m_ 4 12 = 0 := by simp only [Dec.fld]; omega
  have e1 : Dec.fld m_ 0 3 = sel.val := by simp only [Dec.fld]; omega
  have e2 : Dec.fld m_ 3 1 = Enc.bit clr := by simp only [Dec.fld]; omega
  have e3 : Dec.xa m_ = a := Fin.ext (by simp only [Dec.xa, Fin.ofNat]; omega)
  have es : Dec.fld m_ 21 6 = 13 := by simp only [Dec.fld]; omega
  clear hn
  rw [decode_bank m_ hw hz hc]
  unfold Dec.bank
  rw [es]
  show (Dec.zero (Dec.fld m_ 4 12) (Dec.seven (Dec.fld m_ 0 3) fun sel => Dec.need (Dec.fld m_ 3 1 == 0 || sel == 0 || sel == 3) .unlistedCode ((Except.ok : Instr → Except Reject Instr) (.wstat (Dec.fld m_ 3 1 == 1) (Dec.xa m_) sel)))) = _
  simp only [e0, e1, e2, e3, seven_enc, bit_enc, zero_nil, need_true, bit_zero, show (!clr || sel == 0 || sel == 3) = true from hwf]

theorem wmov (d : ZReg) (a : ZReg) : Statement (.wmov d a) := by
  have h_d := d.isLt
  have h_a := a.isLt
  refine of_bits (25 * 134217728 + 14 * 2097152 + 0 * 65536 + 0 * 2048 + (d.val * 16 + a.val)) rfl (by omega) fun m_ hn hw => ?_
  have hz : m_ ≠ 0 := by omega
  have hc : m_ / 134217728 = 25 := by omega
  have e0 : Dec.fld m_ 8 13 = 0 := by simp only [Dec.fld]; omega
  have e1 : Dec.z0 m_ = a := Fin.ext (by simp only [Dec.z0, Fin.ofNat]; omega)
  have e2 : Dec.z1 m_ = d := Fin.ext (by simp only [Dec.z1, Fin.ofNat]; omega)
  have es : Dec.fld m_ 21 6 = 14 := by simp only [Dec.fld]; omega
  clear hn
  rw [decode_bank m_ hw hz hc]
  unfold Dec.bank
  rw [es]
  show (Dec.zero (Dec.fld m_ 8 13) ((Except.ok : Instr → Except Reject Instr) (.wmov (Dec.z1 m_) (Dec.z0 m_)))) = _
  simp only [e0, e1, e2, zero_nil]

theorem wunpk (s : Side) (a : Reg) (i : ZReg) : Statement (.wunpk s a i) := by
  have h_s := side_lt s
  have h_a := a.isLt
  have h_i := i.isLt
  refine of_bits (25 * 134217728 + 15 * 2097152 + a.val * 65536 + 0 * 2048 + (Enc.side s * 16 + i.val)) rfl (by omega) fun m_ hn hw => ?_
  have hz : m_ ≠ 0 := by omega
  have hc : m_ / 134217728 = 25 := by omega
  have e0 : Dec.fld m_ 5 11 = 0 := by simp only [Dec.fld]; omega
  have e1 : Dec.fld m_ 4 1 = Enc.side s := by simp only [Dec.fld]; omega
  have e2 : Dec.xa m_ = a := Fin.ext (by simp only [Dec.xa, Fin.ofNat]; omega)
  have e3 : Dec.z0 m_ = i := Fin.ext (by simp only [Dec.z0, Fin.ofNat]; omega)
  have es : Dec.fld m_ 21 6 = 15 := by simp only [Dec.fld]; omega
  clear hn
  rw [decode_bank m_ hw hz hc]
  unfold Dec.bank
  rw [es]
  show (Dec.zero (Dec.fld m_ 5 11) ((Except.ok : Instr → Except Reject Instr) (.wunpk (Dec.side (Dec.fld m_ 4 1)) (Dec.xa m_) (Dec.z0 m_)))) = _
  simp only [e0, e1, e2, e3, side_enc, zero_nil]

theorem wshft (s : Side) (d : ZReg) (a : ZReg) (b : Reg) : Statement (.wshft s d a b) := by
  have h_s := side_lt s
  have h_d := d.isLt
  have h_a := a.isLt
  have h_b := b.isLt
  refine of_bits (25 * 134217728 + 16 * 2097152 + 0 * 65536 + b.val * 2048 + (Enc.side s * 256 + d.val * 16 + a.val)) rfl (by omega) fun m_ hn hw => ?_
  have hz : m_ ≠ 0 := by omega
  have hc : m_ / 134217728 = 25 := by omega
  have e0 : Dec.fld m_ 16 5 = 0 := by simp only [Dec.fld]; omega
  have e1 : Dec.fld m_ 9 2 = 0 := by simp only [Dec.fld]; omega
  have e2 : Dec.fld m_ 8 1 = Enc.side s := by simp only [Dec.fld]; omega
  have e3 : Dec.z0 m_ = a := Fin.ext (by simp only [Dec.z0, Fin.ofNat]; omega)
  have e4 : Dec.z1 m_ = d := Fin.ext (by simp only [Dec.z1, Fin.ofNat]; omega)
  have e5 : Dec.xb m_ = b := Fin.ext (by simp only [Dec.xb, Fin.ofNat]; omega)
  have es : Dec.fld m_ 21 6 = 16 := by simp only [Dec.fld]; omega
  clear hn
  rw [decode_bank m_ hw hz hc]
  unfold Dec.bank
  rw [es]
  show (Dec.zero (Dec.fld m_ 16 5 + Dec.fld m_ 9 2) ((Except.ok : Instr → Except Reject Instr) (.wshft (Dec.side (Dec.fld m_ 8 1)) (Dec.z1 m_) (Dec.z0 m_) (Dec.xb m_)))) = _
  simp only [e0, e1, e2, e3, e4, e5, side_enc, zero_nil, Nat.add_zero]

theorem msend (a : Reg) (b : Reg) : Statement (.msend a b) := by
  have h_a := a.isLt
  have h_b := b.isLt
  refine of_bits (26 * 134217728 + 0 * 4194304 + a.val * 131072 + b.val * 4096 + 1) rfl (tri_lt _ _ _ _ _ (by decide) (by decide) a.isLt b.isLt (by decide)) fun m_ hn hw => ?_
  have T := tri_facts 26 0 a.val b.val 1 (by decide) a.isLt b.isLt (by decide) m_ hn
  have hz : m_ ≠ 0 := T.ne_of_cls (by decide)
  have hc := T.cls
  have e0 : Dec.fld m_ 22 5 = 0 := T.fd
  have e1 : Dec.fld m_ 6 6 = 0 := (low_fld T.lo 6 6 (by decide)).trans rfl
  have e2 : Dec.ra m_ = a := Fin.ext T.fa
  have e3 : Dec.rb m_ = b := Fin.ext T.fb
  have es : m_ % 64 = 1 := (low_mod T.lo 64 (by decide)).trans rfl
  clear hn
  rw [decode_message m_ hw hz hc]
  unfold Dec.message
  rw [es]
  show (Dec.zero (Dec.fld m_ 22 5 + Dec.fld m_ 6 6) ((Except.ok : Instr → Except Reject Instr) (.msend (Dec.ra m_) (Dec.rb m_)))) = _
  simp only [e0, e1, e2, e3, zero_nil, Nat.add_zero]

theorem mreq (a : Reg) (b : Reg) : Statement (.mreq a b) := by
  have h_a := a.isLt
  have h_b := b.isLt
  refine of_bits (26 * 134217728 + 0 * 4194304 + a.val * 131072 + b.val * 4096 + 2) rfl (tri_lt _ _ _ _ _ (by decide) (by decide) a.isLt b.isLt (by decide)) fun m_ hn hw => ?_
  have T := tri_facts 26 0 a.val b.val 2 (by decide) a.isLt b.isLt (by decide) m_ hn
  have hz : m_ ≠ 0 := T.ne_of_cls (by decide)
  have hc := T.cls
  have e0 : Dec.fld m_ 22 5 = 0 := T.fd
  have e1 : Dec.fld m_ 6 6 = 0 := (low_fld T.lo 6 6 (by decide)).trans rfl
  have e2 : Dec.ra m_ = a := Fin.ext T.fa
  have e3 : Dec.rb m_ = b := Fin.ext T.fb
  have es : m_ % 64 = 2 := (low_mod T.lo 64 (by decide)).trans rfl
  clear hn
  rw [decode_message m_ hw hz hc]
  unfold Dec.message
  rw [es]
  show (Dec.zero (Dec.fld m_ 22 5 + Dec.fld m_ 6 6) ((Except.ok : Instr → Except Reject Instr) (.mreq (Dec.ra m_) (Dec.rb m_)))) = _
  simp only [e0, e1, e2, e3, zero_nil, Nat.add_zero]

theorem mret : Statement (.mret) := by
  refine of_bits (26 * 134217728 + 0 * 4194304 + 0 * 131072 + 0 * 4096 + 3) rfl (tri_lt _ _ _ _ _ (by decide) (by decide) (by decide) (by decide) (by decide)) fun m_ hn hw => ?_
  have T := tri_facts 26 0 0 0 3 (by decide) (by decide) (by decide) (by decide) m_ hn
  have hz : m_ ≠ 0 := T.ne_of_cls (by decide)
  have hc := T.cls
  have e0 : Dec.fld m_ 22 5 = 0 := T.fd
  have e1 : Dec.fld m_ 17 5 = 0 := T.fa
  have e2 : Dec.fld m_ 12 5 = 0 := T.fb
  have e3 : Dec.fld m_ 6 6 = 0 := (low_fld T.lo 6 6 (by decide)).trans rfl
  have es : m_ % 64 = 3 := (low_mod T.lo 64 (by decide)).trans rfl
  clear hn
  rw [decode_message m_ hw hz hc]
  unfold Dec.message
  rw [es]
  show (Dec.zero (Dec.fld m_ 22 5 + Dec.fld m_ 17 5 + Dec.fld m_ 12 5 + Dec.fld m_ 6 6) ((Except.ok : Instr → Except Reject Instr) (.mret))) = _
  simp only [e0, e1, e2, e3, zero_nil, Nat.add_zero]

theorem hset (a : Reg) (b : Reg) : Statement (.hset a b) := by
  have h_a := a.isLt
  have h_b := b.isLt
  refine of_bits (26 * 134217728 + 0 * 4194304 + a.val * 131072 + b.val * 4096 + 4) rfl (tri_lt _ _ _ _ _ (by decide) (by decide) a.isLt b.isLt (by decide)) fun m_ hn hw => ?_
  have T := tri_facts 26 0 a.val b.val 4 (by decide) a.isLt b.isLt (by decide) m_ hn
  have hz : m_ ≠ 0 := T.ne_of_cls (by decide)
  have hc := T.cls
  have e0 : Dec.fld m_ 22 5 = 0 := T.fd
  have e1 : Dec.fld m_ 6 6 = 0 := (low_fld T.lo 6 6 (by decide)).trans rfl
  have e2 : Dec.ra m_ = a := Fin.ext T.fa
  have e3 : Dec.rb m_ = b := Fin.ext T.fb
  have es : m_ % 64 = 4 := (low_mod T.lo 64 (by decide)).trans rfl
  clear hn
  rw [decode_message m_ hw hz hc]
  unfold Dec.message
  rw [es]
  show (Dec.zero (Dec.fld m_ 22 5 + Dec.fld m_ 6 6) ((Except.ok : Instr → Except Reject Instr) (.hset (Dec.ra m_) (Dec.rb m_)))) = _
  simp only [e0, e1, e2, e3, zero_nil, Nat.add_zero]

theorem hmask (d : Reg) (a : Reg) (b : Reg) : Statement (.hmask d a b) := by
  have h_d := d.isLt
  have h_a := a.isLt
  have h_b := b.isLt
  refine of_bits (26 * 134217728 + d.val * 4194304 + a.val * 131072 + b.val * 4096 + 5) rfl (tri_lt _ _ _ _ _ (by decide) d.isLt a.isLt b.isLt (by decide)) fun m_ hn hw => ?_
  have T := tri_facts 26 d.val a.val b.val 5 d.isLt a.isLt b.isLt (by decide) m_ hn
  have hz : m_ ≠ 0 := T.ne_of_cls (by decide)
  have hc := T.cls
  have e0 : Dec.fld m_ 6 6 = 0 := (low_fld T.lo 6 6 (by decide)).trans rfl
  have e1 : Dec.ra m_ = a := Fin.ext T.fa
  have e2 : Dec.rd m_ = d := Fin.ext T.fd
  have e3 : Dec.rb m_ = b := Fin.ext T.fb
  have es : m_ % 64 = 5 := (low_mod T.lo 64 (by decide)).trans rfl
  clear hn
  rw [decode_message m_ hw hz hc]
  unfold Dec.message
  rw [es]
  show (Dec.zero (Dec.fld m_ 6 6) ((Except.ok : Instr → Except Reject Instr) (.hmask (Dec.rd m_) (Dec.ra m_) (Dec.rb m_)))) = _
  simp only [e0, e1, e2, e3, zero_nil]

theorem rput (a : Reg) (b : Reg) : Statement (.rput a b) := by
  have h_a := a.isLt
  have h_b := b.isLt
  refine of_bits (26 * 134217728 + 0 * 4194304 + a.val * 131072 + b.val * 4096 + 6) rfl (tri_lt _ _ _ _ _ (by decide) (by decide) a.isLt b.isLt (by decide)) fun m_ hn hw => ?_
  have T := tri_facts 26 0 a.val b.val 6 (by decide) a.isLt b.isLt (by decide) m_ hn
  have hz : m_ ≠ 0 := T.ne_of_cls (by decide)
  have hc := T.cls
  have e0 : Dec.fld m_ 22 5 = 0 := T.fd
  have e1 : Dec.fld m_ 6 6 = 0 := (low_fld T.lo 6 6 (by decide)).trans rfl
  have e2 : Dec.ra m_ = a := Fin.ext T.fa
  have e3 : Dec.rb m_ = b := Fin.ext T.fb
  have es : m_ % 64 = 6 := (low_mod T.lo 64 (by decide)).trans rfl
  clear hn
  rw [decode_message m_ hw hz hc]
  unfold Dec.message
  rw [es]
  show (Dec.zero (Dec.fld m_ 22 5 + Dec.fld m_ 6 6) ((Except.ok : Instr → Except Reject Instr) (.rput (Dec.ra m_) (Dec.rb m_)))) = _
  simp only [e0, e1, e2, e3, zero_nil, Nat.add_zero]

theorem qget (d : Reg) (a : Reg) : Statement (.qget d a) := by
  have h_d := d.isLt
  have h_a := a.isLt
  refine of_bits (26 * 134217728 + d.val * 4194304 + a.val * 131072 + 0 * 4096 + 7) rfl (tri_lt _ _ _ _ _ (by decide) d.isLt a.isLt (by decide) (by decide)) fun m_ hn hw => ?_
  have T := tri_facts 26 d.val a.val 0 7 d.isLt a.isLt (by decide) (by decide) m_ hn
  have hz : m_ ≠ 0 := T.ne_of_cls (by decide)
  have hc := T.cls
  have e0 : Dec.fld m_ 12 5 = 0 := T.fb
  have e1 : Dec.fld m_ 6 6 = 0 := (low_fld T.lo 6 6 (by decide)).trans rfl
  have e2 : Dec.ra m_ = a := Fin.ext T.fa
  have e3 : Dec.rd m_ = d := Fin.ext T.fd
  have es : m_ % 64 = 7 := (low_mod T.lo 64 (by decide)).trans rfl
  clear hn
  rw [decode_message m_ hw hz hc]
  unfold Dec.message
  rw [es]
  show (Dec.zero (Dec.fld m_ 12 5 + Dec.fld m_ 6 6) ((Except.ok : Instr → Except Reject Instr) (.qget (Dec.rd m_) (Dec.ra m_)))) = _
  simp only [e0, e1, e2, e3, zero_nil, Nat.add_zero]

theorem qpeek (d : Reg) (a : Reg) : Statement (.qpeek d a) := by
  have h_d := d.isLt
  have h_a := a.isLt
  refine of_bits (26 * 134217728 + d.val * 4194304 + a.val * 131072 + 0 * 4096 + 8) rfl (tri_lt _ _ _ _ _ (by decide) d.isLt a.isLt (by decide) (by decide)) fun m_ hn hw => ?_
  have T := tri_facts 26 d.val a.val 0 8 d.isLt a.isLt (by decide) (by decide) m_ hn
  have hz : m_ ≠ 0 := T.ne_of_cls (by decide)
  have hc := T.cls
  have e0 : Dec.fld m_ 12 5 = 0 := T.fb
  have e1 : Dec.fld m_ 6 6 = 0 := (low_fld T.lo 6 6 (by decide)).trans rfl
  have e2 : Dec.ra m_ = a := Fin.ext T.fa
  have e3 : Dec.rd m_ = d := Fin.ext T.fd
  have es : m_ % 64 = 8 := (low_mod T.lo 64 (by decide)).trans rfl
  clear hn
  rw [decode_message m_ hw hz hc]
  unfold Dec.message
  rw [es]
  show (Dec.zero (Dec.fld m_ 12 5 + Dec.fld m_ 6 6) ((Except.ok : Instr → Except Reject Instr) (.qpeek (Dec.rd m_) (Dec.ra m_)))) = _
  simp only [e0, e1, e2, e3, zero_nil, Nat.add_zero]

theorem dqpush (s : Scope) (d : Reg) (a : Reg) (b : Reg) : Statement (.dqpush s d a b) := by
  have h_s := scope_lt s
  have h_d := d.isLt
  have h_a := a.isLt
  have h_b := b.isLt
  refine of_bits (26 * 134217728 + d.val * 4194304 + a.val * 131072 + b.val * 4096 + (Enc.scope s * 64 + 9)) rfl (tri_lt _ _ _ _ _ (by decide) d.isLt a.isLt b.isLt (by omega)) fun m_ hn hw => ?_
  have T := tri_facts 26 d.val a.val b.val (Enc.scope s * 64 + 9) d.isLt a.isLt b.isLt (by omega) m_ hn
  have hz : m_ ≠ 0 := T.ne_of_cls (by decide)
  have hc := T.cls
  have e0 : Dec.fld m_ 8 4 = 0 := (low_fld T.lo 8 4 (by decide)).trans (by simp only [Dec.fld]; omega)
  have e1 : Dec.fld m_ 6 2 = Enc.scope s := (low_fld T.lo 6 2 (by decide)).trans (by simp only [Dec.fld]; omega)
  have e2 : Dec.ra m_ = a := Fin.ext T.fa
  have e3 : Dec.rd m_ = d := Fin.ext T.fd
  have e4 : Dec.rb m_ = b := Fin.ext T.fb
  have es : m_ % 64 = 9 := (low_mod T.lo 64 (by decide)).trans (by omega)
  clear hn
  rw [decode_message m_ hw hz hc]
  unfold Dec.message
  rw [es]
  show (Dec.zero (Dec.fld m_ 8 4) ((Except.ok : Instr → Except Reject Instr) (.dqpush (Dec.scope (Dec.fld m_ 6 2)) (Dec.rd m_) (Dec.ra m_) (Dec.rb m_)))) = _
  simp only [e0, e1, e2, e3, e4, scope_enc, zero_nil]

theorem dqpop (d : Reg) : Statement (.dqpop d) := by
  have h_d := d.isLt
  refine of_bits (26 * 134217728 + d.val * 4194304 + 0 * 131072 + 0 * 4096 + 10) rfl (tri_lt _ _ _ _ _ (by decide) d.isLt (by decide) (by decide) (by decide)) fun m_ hn hw => ?_
  have T := tri_facts 26 d.val 0 0 10 d.isLt (by decide) (by decide) (by decide) m_ hn
  have hz : m_ ≠ 0 := T.ne_of_cls (by decide)
  have hc := T.cls
  have e0 : Dec.fld m_ 17 5 = 0 := T.fa
  have e1 : Dec.fld m_ 12 5 = 0 := T.fb
  have e2 : Dec.fld m_ 6 6 = 0 := (low_fld T.lo 6 6 (by decide)).trans rfl
  have e3 : Dec.rd m_ = d := Fin.ext T.fd
  have es : m_ % 64 = 10 := (low_mod T.lo 64 (by decide)).trans rfl
  clear hn
  rw [decode_message m_ hw hz hc]
  unfold Dec.message
  rw [es]
  show (Dec.zero (Dec.fld m_ 17 5 + Dec.fld m_ 12 5 + Dec.fld m_ 6 6) ((Except.ok : Instr → Except Reject Instr) (.dqpop (Dec.rd m_)))) = _
  simp only [e0, e1, e2, e3, zero_nil, Nat.add_zero]

theorem dqsteal (d : Reg) (a : Reg) : Statement (.dqsteal d a) := by
  have h_d := d.isLt
  have h_a := a.isLt
  refine of_bits (26 * 134217728 + d.val * 4194304 + a.val * 131072 + 0 * 4096 + 11) rfl (tri_lt _ _ _ _ _ (by decide) d.isLt a.isLt (by decide) (by decide)) fun m_ hn hw => ?_
  have T := tri_facts 26 d.val a.val 0 11 d.isLt a.isLt (by decide) (by decide) m_ hn
  have hz : m_ ≠ 0 := T.ne_of_cls (by decide)
  have hc := T.cls
  have e0 : Dec.fld m_ 12 5 = 0 := T.fb
  have e1 : Dec.fld m_ 6 6 = 0 := (low_fld T.lo 6 6 (by decide)).trans rfl
  have e2 : Dec.ra m_ = a := Fin.ext T.fa
  have e3 : Dec.rd m_ = d := Fin.ext T.fd
  have es : m_ % 64 = 11 := (low_mod T.lo 64 (by decide)).trans rfl
  clear hn
  rw [decode_message m_ hw hz hc]
  unfold Dec.message
  rw [es]
  show (Dec.zero (Dec.fld m_ 12 5 + Dec.fld m_ 6 6) ((Except.ok : Instr → Except Reject Instr) (.dqsteal (Dec.rd m_) (Dec.ra m_)))) = _
  simp only [e0, e1, e2, e3, zero_nil, Nat.add_zero]

theorem bar (s : Scope) (d : Reg) (a : Reg) : Statement (.bar s d a) := by
  have h_s := scope_lt s
  have h_d := d.isLt
  have h_a := a.isLt
  refine of_bits (26 * 134217728 + d.val * 4194304 + a.val * 131072 + 0 * 4096 + (Enc.scope s * 64 + 12)) rfl (tri_lt _ _ _ _ _ (by decide) d.isLt a.isLt (by decide) (by omega)) fun m_ hn hw => ?_
  have T := tri_facts 26 d.val a.val 0 (Enc.scope s * 64 + 12) d.isLt a.isLt (by decide) (by omega) m_ hn
  have hz : m_ ≠ 0 := T.ne_of_cls (by decide)
  have hc := T.cls
  have e0 : Dec.fld m_ 8 9 = 0 := by simp only [Dec.fld]; omega
  have e1 : Dec.fld m_ 6 2 = Enc.scope s := (low_fld T.lo 6 2 (by decide)).trans (by simp only [Dec.fld]; omega)
  have e2 : Dec.ra m_ = a := Fin.ext T.fa
  have e3 : Dec.rd m_ = d := Fin.ext T.fd
  have es : m_ % 64 = 12 := (low_mod T.lo 64 (by decide)).trans (by omega)
  clear hn
  rw [decode_message m_ hw hz hc]
  unfold Dec.message
  rw [es]
  show (Dec.zero (Dec.fld m_ 8 9) ((Except.ok : Instr → Except Reject Instr) (.bar (Dec.scope (Dec.fld m_ 6 2)) (Dec.rd m_) (Dec.ra m_)))) = _
  simp only [e0, e1, e2, e3, scope_enc, zero_nil]

theorem bara (s : Scope) (d : Reg) (a : Reg) : Statement (.bara s d a) := by
  have h_s := scope_lt s
  have h_d := d.isLt
  have h_a := a.isLt
  refine of_bits (26 * 134217728 + d.val * 4194304 + a.val * 131072 + 0 * 4096 + (Enc.scope s * 64 + 13)) rfl (tri_lt _ _ _ _ _ (by decide) d.isLt a.isLt (by decide) (by omega)) fun m_ hn hw => ?_
  have T := tri_facts 26 d.val a.val 0 (Enc.scope s * 64 + 13) d.isLt a.isLt (by decide) (by omega) m_ hn
  have hz : m_ ≠ 0 := T.ne_of_cls (by decide)
  have hc := T.cls
  have e0 : Dec.fld m_ 8 9 = 0 := by simp only [Dec.fld]; omega
  have e1 : Dec.fld m_ 6 2 = Enc.scope s := (low_fld T.lo 6 2 (by decide)).trans (by simp only [Dec.fld]; omega)
  have e2 : Dec.ra m_ = a := Fin.ext T.fa
  have e3 : Dec.rd m_ = d := Fin.ext T.fd
  have es : m_ % 64 = 13 := (low_mod T.lo 64 (by decide)).trans (by omega)
  clear hn
  rw [decode_message m_ hw hz hc]
  unfold Dec.message
  rw [es]
  show (Dec.zero (Dec.fld m_ 8 9) ((Except.ok : Instr → Except Reject Instr) (.bara (Dec.scope (Dec.fld m_ 6 2)) (Dec.rd m_) (Dec.ra m_)))) = _
  simp only [e0, e1, e2, e3, scope_enc, zero_nil]

theorem barw (s : Scope) (a : Reg) (b : Reg) : Statement (.barw s a b) := by
  have h_s := scope_lt s
  have h_a := a.isLt
  have h_b := b.isLt
  refine of_bits (26 * 134217728 + 0 * 4194304 + a.val * 131072 + b.val * 4096 + (Enc.scope s * 64 + 14)) rfl (tri_lt _ _ _ _ _ (by decide) (by decide) a.isLt b.isLt (by omega)) fun m_ hn hw => ?_
  have T := tri_facts 26 0 a.val b.val (Enc.scope s * 64 + 14) (by decide) a.isLt b.isLt (by omega) m_ hn
  have hz : m_ ≠ 0 := T.ne_of_cls (by decide)
  have hc := T.cls
  have e0 : Dec.fld m_ 22 5 = 0 := T.fd
  have e1 : Dec.fld m_ 8 4 = 0 := (low_fld T.lo 8 4 (by decide)).trans (by simp only [Dec.fld]; omega)
  have e2 : Dec.fld m_ 6 2 = Enc.scope s := (low_fld T.lo 6 2 (by decide)).trans (by simp only [Dec.fld]; omega)
  have e3 : Dec.ra m_ = a := Fin.ext T.fa
  have e4 : Dec.rb m_ = b := Fin.ext T.fb
  have es : m_ % 64 = 14 := (low_mod T.lo 64 (by decide)).trans (by omega)
  clear hn
  rw [decode_message m_ hw hz hc]
  unfold Dec.message
  rw [es]
  show (Dec.zero (Dec.fld m_ 22 5 + Dec.fld m_ 8 4) ((Except.ok : Instr → Except Reject Instr) (.barw (Dec.scope (Dec.fld m_ 6 2)) (Dec.ra m_) (Dec.rb m_)))) = _
  simp only [e0, e1, e2, e3, e4, scope_enc, zero_nil, Nat.add_zero]

theorem pace (s0 : Fin 8) (s1 : Fin 8) (s2 : Fin 8) (s3 : Fin 8) (s4 : Fin 8) (s5 : Fin 8) (s6 : Fin 8) (s7 : Fin 8) : Statement (.pace s0 s1 s2 s3 s4 s5 s6 s7) := by
  have h_s0 := s0.isLt
  have h_s1 := s1.isLt
  have h_s2 := s2.isLt
  have h_s3 := s3.isLt
  have h_s4 := s4.isLt
  have h_s5 := s5.isLt
  have h_s6 := s6.isLt
  have h_s7 := s7.isLt
  refine of_bits (27 * 134217728 + s7.val * 2097152 + s6.val * 262144 + s5.val * 32768 + s4.val * 4096 + s3.val * 512 + s2.val * 64 + s1.val * 8 + s0.val) rfl (by omega) fun m_ hn hw => ?_
  have hz : m_ ≠ 0 := by omega
  have hc : m_ / 134217728 = 27 := by omega
  have e0 : Dec.fld m_ 24 2 = 0 := by simp only [Dec.fld]; omega
  have e1 : Dec.fld m_ 26 1 = 0 := by simp only [Dec.fld]; omega
  have e2 : Fin.ofNat 8 (m_ / 8) = s1 := Fin.ext (by simp only [Fin.ofNat]; omega)
  have e3 : Fin.ofNat 8 (m_ / 262144) = s6 := Fin.ext (by simp only [Fin.ofNat]; omega)
  have e4 : Fin.ofNat 8 (m_ / 2097152) = s7 := Fin.ext (by simp only [Fin.ofNat]; omega)
  have e5 : Fin.ofNat 8 (m_ / 64) = s2 := Fin.ext (by simp only [Fin.ofNat]; omega)
  have e6 : Fin.ofNat 8 m_ = s0 := Fin.ext (by simp only [Fin.ofNat]; omega)
  have e7 : Fin.ofNat 8 (m_ / 4096) = s4 := Fin.ext (by simp only [Fin.ofNat]; omega)
  have e8 : Fin.ofNat 8 (m_ / 32768) = s5 := Fin.ext (by simp only [Fin.ofNat]; omega)
  have e9 : Fin.ofNat 8 (m_ / 512) = s3 := Fin.ext (by simp only [Fin.ofNat]; omega)
  clear hn
  rw [decode_control m_ hw hz hc]
  simp only [Dec.control, e0, e1, e2, e3, e4, e5, e6, e7, e8, e9, zero_nil, if_true, if_true]

theorem guard (p : Pred) (neg : Bool) (n : Fin 8) : Statement (.guard p neg n) := by
  have h_p := p.isLt
  have h_neg := bit_lt neg
  have h_n := n.isLt
  refine of_bits (27 * 134217728 + 67108864 + p.val * 524288 + Enc.bit neg * 262144 + n.val * 32768) rfl (by omega) fun m_ hn hw => ?_
  have hz : m_ ≠ 0 := by omega
  have hc : m_ / 134217728 = 27 := by omega
  have e0 : Dec.fld m_ 0 15 = 0 := by simp only [Dec.fld]; omega
  have e1 : Dec.fld m_ 19 7 = p.val := by simp only [Dec.fld]; omega
  have e2 : Dec.fld m_ 26 1 = 1 := by simp only [Dec.fld]; omega
  have e3 : Dec.fld m_ 18 1 = Enc.bit neg := by simp only [Dec.fld]; omega
  have e4 : Fin.ofNat 8 (m_ / 32768) = n := Fin.ext (by simp only [Fin.ofNat]; omega)
  clear hn
  rw [decode_control m_ hw hz hc]
  simp only [Dec.control, e0, e1, e2, e3, e4, pred_enc, bit_enc, zero_nil, if_false, Nat.one_ne_zero]

theorem vshfl (m : Shfl) (keep : Bool) (fp : Bool) (k : Fin 4) (d : Reg) (a : Reg) (b : Reg) : Statement (.vshfl m keep fp k d a b) := by
  have h_m := shfl_lt m
  have h_keep := bit_lt keep
  have h_fp := bit_lt fp
  have h_k := k.isLt
  have h_d := d.isLt
  have h_a := a.isLt
  have h_b := b.isLt
  refine of_bits (28 * 134217728 + d.val * 4194304 + a.val * 131072 + b.val * 4096 + (k.val * 1024 + Enc.bit fp * 512 + Enc.bit keep * 256 + Enc.shfl m * 64 + 1)) rfl (tri_lt _ _ _ _ _ (by decide) d.isLt a.isLt b.isLt (by omega)) fun m_ hn hw => ?_
  have T := tri_facts 28 d.val a.val b.val (k.val * 1024 + Enc.bit fp * 512 + Enc.bit keep * 256 + Enc.shfl m * 64 + 1) d.isLt a.isLt b.isLt (by omega) m_ hn
  have hz : m_ ≠ 0 := T.ne_of_cls (by decide)
  have hc := T.cls
  have e0 : Dec.fld m_ 6 2 = Enc.shfl m := (low_fld T.lo 6 2 (by decide)).trans (by simp only [Dec.fld]; omega)
  have e1 : Dec.fld m_ 8 1 = Enc.bit keep := (low_fld T.lo 8 1 (by decide)).trans (by simp only [Dec.fld]; omega)
  have e2 : Dec.fld m_ 9 1 = Enc.bit fp := (low_fld T.lo 9 1 (by decide)).trans (by simp only [Dec.fld]; omega)
  have e3 : Dec.ra m_ = a := Fin.ext T.fa
  have e4 : Dec.rd m_ = d := Fin.ext T.fd
  have e5 : Dec.rb m_ = b := Fin.ext T.fb
  have e6 : Fin.ofNat 4 (m_ / 1024) = k := Fin.ext (by simp only [Fin.ofNat]; omega)
  have es : m_ % 64 = 1 := (low_mod T.lo 64 (by decide)).trans (by omega)
  clear hn
  rw [decode_waveCls m_ hw hz hc]
  unfold Dec.waveCls
  rw [es]
  show ((Except.ok : Instr → Except Reject Instr) (.vshfl (Dec.shfl (Dec.fld m_ 6 2)) (Dec.fld m_ 8 1 == 1) (Dec.fld m_ 9 1 == 1) (Fin.ofNat 4 (m_ / 1024)) (Dec.rd m_) (Dec.ra m_) (Dec.rb m_))) = _
  simp only [e0, e1, e2, e3, e4, e5, e6, shfl_enc, bit_enc]

theorem vred (op : RedOp) (d : Reg) (a : Reg) : Statement (.vred op d a) := by
  have h_op := redOp_lt op
  have h_d := d.isLt
  have h_a := a.isLt
  refine of_bits (28 * 134217728 + d.val * 4194304 + a.val * 131072 + 0 * 4096 + (Enc.redOp op * 64 + 2)) rfl (tri_lt _ _ _ _ _ (by decide) d.isLt a.isLt (by decide) (by omega)) fun m_ hn hw => ?_
  have T := tri_facts 28 d.val a.val 0 (Enc.redOp op * 64 + 2) d.isLt a.isLt (by decide) (by omega) m_ hn
  have hz : m_ ≠ 0 := T.ne_of_cls (by decide)
  have hc := T.cls
  have e0 : Dec.fld m_ 11 6 = 0 := by simp only [Dec.fld]; omega
  have e1 : Dec.fld m_ 6 5 = Enc.redOp op := (low_fld T.lo 6 5 (by decide)).trans (by simp only [Dec.fld]; omega)
  have e2 : Dec.ra m_ = a := Fin.ext T.fa
  have e3 : Dec.rd m_ = d := Fin.ext T.fd
  have es : m_ % 64 = 2 := (low_mod T.lo 64 (by decide)).trans (by omega)
  clear hn
  rw [decode_waveCls m_ hw hz hc]
  unfold Dec.waveCls
  rw [es]
  show (Dec.zero (Dec.fld m_ 11 6) (Dec.redOp (Dec.fld m_ 6 5) fun op => (Except.ok : Instr → Except Reject Instr) (.vred op (Dec.rd m_) (Dec.ra m_)))) = _
  simp only [e0, e1, e2, e3, redOp_enc, zero_nil]

theorem vscan (op : RedOp) (ex : Bool) (d : Reg) (a : Reg) : Statement (.vscan op ex d a) := by
  have h_op := redOp_lt op
  have h_ex := bit_lt ex
  have h_d := d.isLt
  have h_a := a.isLt
  refine of_bits (28 * 134217728 + d.val * 4194304 + a.val * 131072 + 0 * 4096 + (Enc.bit ex * 2048 + Enc.redOp op * 64 + 3)) rfl (tri_lt _ _ _ _ _ (by decide) d.isLt a.isLt (by decide) (by omega)) fun m_ hn hw => ?_
  have T := tri_facts 28 d.val a.val 0 (Enc.bit ex * 2048 + Enc.redOp op * 64 + 3) d.isLt a.isLt (by decide) (by omega) m_ hn
  have hz : m_ ≠ 0 := T.ne_of_cls (by decide)
  have hc := T.cls
  have e0 : Dec.fld m_ 12 5 = 0 := T.fb
  have e1 : Dec.fld m_ 6 5 = Enc.redOp op := (low_fld T.lo 6 5 (by decide)).trans (by simp only [Dec.fld]; omega)
  have e2 : Dec.fld m_ 11 1 = Enc.bit ex := (low_fld T.lo 11 1 (by decide)).trans (by simp only [Dec.fld]; omega)
  have e3 : Dec.ra m_ = a := Fin.ext T.fa
  have e4 : Dec.rd m_ = d := Fin.ext T.fd
  have es : m_ % 64 = 3 := (low_mod T.lo 64 (by decide)).trans (by omega)
  clear hn
  rw [decode_waveCls m_ hw hz hc]
  unfold Dec.waveCls
  rw [es]
  show (Dec.zero (Dec.fld m_ 12 5) (Dec.redOp (Dec.fld m_ 6 5) fun op => (Except.ok : Instr → Except Reject Instr) (.vscan op (Dec.fld m_ 11 1 == 1) (Dec.rd m_) (Dec.ra m_)))) = _
  simp only [e0, e1, e2, e3, e4, redOp_enc, bit_enc, zero_nil]

theorem vball (d : Reg) (p : Pred) : Statement (.vball d p) := by
  have h_p := p.isLt
  refine of_bits (28 * 134217728 + d.val * 4194304 + (p.val % 32) * 131072 + (p.val / 32) * 4096 + 4) rfl
    (tri_lt _ _ _ _ _ (by decide) d.isLt (by omega) (by omega) (by decide)) fun m_ hn hw => ?_
  have T := imm_facts 28 d.val (p.val % 32) (p.val / 32 * 4096 + 4) d.isLt (by omega) (by omega) m_ (by omega)
  have e0 : Dec.fld m_ 14 3 = 0 := (low_fld17 T.lo 14 3 (by decide)).trans
    (by have h : p.val / 32 * 4096 + 4 < 2 ^ 14 := by omega
        simp only [Dec.fld, Nat.div_eq_of_lt h, Nat.zero_mod])
  have e1 : Dec.fld m_ 6 6 = 0 := (low_fld17 T.lo 6 6 (by decide)).trans (by simp only [Dec.fld, Nat.reducePow]; omega)
  have e2 : Dec.fld m_ 17 5 + 32 * Dec.fld m_ 12 2 = p.val := by
    rw [T.fa, low_fld17 T.lo 12 2 (by decide)]
    simp only [Dec.fld, Nat.reducePow]
    omega
  have e3 : Dec.rd m_ = d := Fin.ext T.fd
  have es : m_ % 64 = 4 := (low_mod17 T.lo 64 (by decide)).trans (by omega)
  rw [decode_waveCls m_ hw (T.ne_of_cls (by decide)) T.cls]
  unfold Dec.waveCls
  rw [es]
  show (Dec.zero (Dec.fld m_ 14 3 + Dec.fld m_ 6 6) (Dec.pred (Dec.fld m_ 17 5 + 32 * Dec.fld m_ 12 2) fun p =>
    (Except.ok : Instr → Except Reject Instr) (.vball (Dec.rd m_) p))) = _
  simp only [e0, e1, e2, e3, pred_enc, zero_nil, Nat.add_zero]

theorem velect (d : Reg) (p : Pred) : Statement (.velect d p) := by
  have h_p := p.isLt
  refine of_bits (28 * 134217728 + d.val * 4194304 + (p.val % 32) * 131072 + (p.val / 32) * 4096 + 5) rfl
    (tri_lt _ _ _ _ _ (by decide) d.isLt (by omega) (by omega) (by decide)) fun m_ hn hw => ?_
  have T := imm_facts 28 d.val (p.val % 32) (p.val / 32 * 4096 + 5) d.isLt (by omega) (by omega) m_ (by omega)
  have e0 : Dec.fld m_ 14 3 = 0 := (low_fld17 T.lo 14 3 (by decide)).trans
    (by have h : p.val / 32 * 4096 + 5 < 2 ^ 14 := by omega
        simp only [Dec.fld, Nat.div_eq_of_lt h, Nat.zero_mod])
  have e1 : Dec.fld m_ 6 6 = 0 := (low_fld17 T.lo 6 6 (by decide)).trans (by simp only [Dec.fld, Nat.reducePow]; omega)
  have e2 : Dec.fld m_ 17 5 + 32 * Dec.fld m_ 12 2 = p.val := by
    rw [T.fa, low_fld17 T.lo 12 2 (by decide)]
    simp only [Dec.fld, Nat.reducePow]
    omega
  have e3 : Dec.rd m_ = d := Fin.ext T.fd
  have es : m_ % 64 = 5 := (low_mod17 T.lo 64 (by decide)).trans (by omega)
  rw [decode_waveCls m_ hw (T.ne_of_cls (by decide)) T.cls]
  unfold Dec.waveCls
  rw [es]
  show (Dec.zero (Dec.fld m_ 14 3 + Dec.fld m_ 6 6) (Dec.pred (Dec.fld m_ 17 5 + 32 * Dec.fld m_ 12 2) fun p =>
    (Except.ok : Instr → Except Reject Instr) (.velect (Dec.rd m_) p))) = _
  simp only [e0, e1, e2, e3, pred_enc, zero_nil, Nat.add_zero]

theorem vquant (d : Reg) (a : Reg) (b : Reg) (k : Fin 6) : Statement (.vquant d a b k) := by
  have h_d := d.isLt
  have h_a := a.isLt
  have h_b := b.isLt
  have h_k := k.isLt
  refine of_bits (28 * 134217728 + d.val * 4194304 + a.val * 131072 + b.val * 4096 + (k.val * 64 + 6)) rfl (tri_lt _ _ _ _ _ (by decide) d.isLt a.isLt b.isLt (by omega)) fun m_ hn hw => ?_
  have T := tri_facts 28 d.val a.val b.val (k.val * 64 + 6) d.isLt a.isLt b.isLt (by omega) m_ hn
  have hz : m_ ≠ 0 := T.ne_of_cls (by decide)
  have hc := T.cls
  have e0 : Dec.fld m_ 9 3 = 0 := (low_fld T.lo 9 3 (by decide)).trans (by simp only [Dec.fld]; omega)
  have e1 : Dec.fld m_ 6 3 = k.val := (low_fld T.lo 6 3 (by decide)).trans (by simp only [Dec.fld]; omega)
  have e2 : Dec.ra m_ = a := Fin.ext T.fa
  have e3 : Dec.rd m_ = d := Fin.ext T.fd
  have e4 : Dec.rb m_ = b := Fin.ext T.fb
  have es : m_ % 64 = 6 := (low_mod T.lo 64 (by decide)).trans (by omega)
  clear hn
  rw [decode_waveCls m_ hw hz hc]
  unfold Dec.waveCls
  rw [es]
  show (Dec.zero (Dec.fld m_ 9 3) (Dec.six (Dec.fld m_ 6 3) fun k => (Except.ok : Instr → Except Reject Instr) (.vquant (Dec.rd m_) (Dec.ra m_) (Dec.rb m_) k))) = _
  simp only [e0, e1, e2, e3, e4, six_enc, zero_nil]

theorem vdeq (d : Reg) (a : Reg) (b : Reg) : Statement (.vdeq d a b) := by
  have h_d := d.isLt
  have h_a := a.isLt
  have h_b := b.isLt
  refine of_bits (28 * 134217728 + d.val * 4194304 + a.val * 131072 + b.val * 4096 + 7) rfl (tri_lt _ _ _ _ _ (by decide) d.isLt a.isLt b.isLt (by decide)) fun m_ hn hw => ?_
  have T := tri_facts 28 d.val a.val b.val 7 d.isLt a.isLt b.isLt (by decide) m_ hn
  have hz : m_ ≠ 0 := T.ne_of_cls (by decide)
  have hc := T.cls
  have e0 : Dec.fld m_ 6 6 = 0 := (low_fld T.lo 6 6 (by decide)).trans rfl
  have e1 : Dec.ra m_ = a := Fin.ext T.fa
  have e2 : Dec.rd m_ = d := Fin.ext T.fd
  have e3 : Dec.rb m_ = b := Fin.ext T.fb
  have es : m_ % 64 = 7 := (low_mod T.lo 64 (by decide)).trans rfl
  clear hn
  rw [decode_waveCls m_ hw hz hc]
  unfold Dec.waveCls
  rw [es]
  show (Dec.zero (Dec.fld m_ 6 6) ((Except.ok : Instr → Except Reject Instr) (.vdeq (Dec.rd m_) (Dec.ra m_) (Dec.rb m_)))) = _
  simp only [e0, e1, e2, e3, zero_nil]

theorem venc (d : Reg) (a : Reg) (w : Fin 16) : Statement (.venc d a w) := by
  have h_d := d.isLt
  have h_a := a.isLt
  have h_w := w.isLt
  refine of_bits (28 * 134217728 + d.val * 4194304 + a.val * 131072 + 0 * 4096 + (w.val * 64 + 8)) rfl (tri_lt _ _ _ _ _ (by decide) d.isLt a.isLt (by decide) (by omega)) fun m_ hn hw => ?_
  have T := tri_facts 28 d.val a.val 0 (w.val * 64 + 8) d.isLt a.isLt (by decide) (by omega) m_ hn
  have hz : m_ ≠ 0 := T.ne_of_cls (by decide)
  have hc := T.cls
  have e0 : Dec.fld m_ 10 7 = 0 := by simp only [Dec.fld]; omega
  have e1 : Dec.ra m_ = a := Fin.ext T.fa
  have e2 : Dec.rd m_ = d := Fin.ext T.fd
  have e3 : Fin.ofNat 16 (m_ / 64) = w := Fin.ext (by simp only [Fin.ofNat]; omega)
  have es : m_ % 64 = 8 := (low_mod T.lo 64 (by decide)).trans (by omega)
  clear hn
  rw [decode_waveCls m_ hw hz hc]
  unfold Dec.waveCls
  rw [es]
  show (Dec.zero (Dec.fld m_ 10 7) ((Except.ok : Instr → Except Reject Instr) (.venc (Dec.rd m_) (Dec.ra m_) (Fin.ofNat 16 (m_ / 64))))) = _
  simp only [e0, e1, e2, e3, zero_nil]

theorem mbpost (d : Reg) (a : Reg) (b : Reg) : Statement (.mbpost d a b) := by
  have h_d := d.isLt
  have h_a := a.isLt
  have h_b := b.isLt
  refine of_bits (29 * 134217728 + d.val * 4194304 + a.val * 131072 + b.val * 4096 + 1) rfl (tri_lt _ _ _ _ _ (by decide) d.isLt a.isLt b.isLt (by decide)) fun m_ hn hw => ?_
  have T := tri_facts 29 d.val a.val b.val 1 d.isLt a.isLt b.isLt (by decide) m_ hn
  have hz : m_ ≠ 0 := T.ne_of_cls (by decide)
  have hc := T.cls
  have e0 : Dec.fld m_ 6 6 = 0 := (low_fld T.lo 6 6 (by decide)).trans rfl
  have e1 : Dec.ra m_ = a := Fin.ext T.fa
  have e2 : Dec.rd m_ = d := Fin.ext T.fd
  have e3 : Dec.rb m_ = b := Fin.ext T.fb
  have es : m_ % 64 = 1 := (low_mod T.lo 64 (by decide)).trans rfl
  clear hn
  rw [decode_gather m_ hw hz hc]
  unfold Dec.gather
  rw [es]
  show (Dec.zero (Dec.fld m_ 6 6) ((Except.ok : Instr → Except Reject Instr) (.mbpost (Dec.rd m_) (Dec.ra m_) (Dec.rb m_)))) = _
  simp only [e0, e1, e2, e3, zero_nil]

theorem mbwait (d : Reg) (a : Reg) : Statement (.mbwait d a) := by
  have h_d := d.isLt
  have h_a := a.isLt
  refine of_bits (29 * 134217728 + d.val * 4194304 + a.val * 131072 + 0 * 4096 + 2) rfl (tri_lt _ _ _ _ _ (by decide) d.isLt a.isLt (by decide) (by decide)) fun m_ hn hw => ?_
  have T := tri_facts 29 d.val a.val 0 2 d.isLt a.isLt (by decide) (by decide) m_ hn
  have hz : m_ ≠ 0 := T.ne_of_cls (by decide)
  have hc := T.cls
  have e0 : Dec.fld m_ 12 5 = 0 := T.fb
  have e1 : Dec.fld m_ 6 6 = 0 := (low_fld T.lo 6 6 (by decide)).trans rfl
  have e2 : Dec.ra m_ = a := Fin.ext T.fa
  have e3 : Dec.rd m_ = d := Fin.ext T.fd
  have es : m_ % 64 = 2 := (low_mod T.lo 64 (by decide)).trans rfl
  clear hn
  rw [decode_gather m_ hw hz hc]
  unfold Dec.gather
  rw [es]
  show (Dec.zero (Dec.fld m_ 12 5 + Dec.fld m_ 6 6) ((Except.ok : Instr → Except Reject Instr) (.mbwait (Dec.rd m_) (Dec.ra m_)))) = _
  simp only [e0, e1, e2, e3, zero_nil, Nat.add_zero]

theorem gflush (a : Reg) : Statement (.gflush a) := by
  have h_a := a.isLt
  refine of_bits (29 * 134217728 + 0 * 4194304 + a.val * 131072 + 0 * 4096 + 3) rfl (tri_lt _ _ _ _ _ (by decide) (by decide) a.isLt (by decide) (by decide)) fun m_ hn hw => ?_
  have T := tri_facts 29 0 a.val 0 3 (by decide) a.isLt (by decide) (by decide) m_ hn
  have hz : m_ ≠ 0 := T.ne_of_cls (by decide)
  have hc := T.cls
  have e0 : Dec.fld m_ 22 5 = 0 := T.fd
  have e1 : Dec.fld m_ 12 5 = 0 := T.fb
  have e2 : Dec.fld m_ 6 6 = 0 := (low_fld T.lo 6 6 (by decide)).trans rfl
  have e3 : Dec.ra m_ = a := Fin.ext T.fa
  have es : m_ % 64 = 3 := (low_mod T.lo 64 (by decide)).trans rfl
  clear hn
  rw [decode_gather m_ hw hz hc]
  unfold Dec.gather
  rw [es]
  show (Dec.zero (Dec.fld m_ 22 5 + Dec.fld m_ 12 5 + Dec.fld m_ 6 6) ((Except.ok : Instr → Except Reject Instr) (.gflush (Dec.ra m_)))) = _
  simp only [e0, e1, e2, e3, zero_nil, Nat.add_zero]

theorem migr (a : Reg) : Statement (.migr a) := by
  have h_a := a.isLt
  refine of_bits (29 * 134217728 + 0 * 4194304 + a.val * 131072 + 0 * 4096 + 4) rfl (tri_lt _ _ _ _ _ (by decide) (by decide) a.isLt (by decide) (by decide)) fun m_ hn hw => ?_
  have T := tri_facts 29 0 a.val 0 4 (by decide) a.isLt (by decide) (by decide) m_ hn
  have hz : m_ ≠ 0 := T.ne_of_cls (by decide)
  have hc := T.cls
  have e0 : Dec.fld m_ 22 5 = 0 := T.fd
  have e1 : Dec.fld m_ 12 5 = 0 := T.fb
  have e2 : Dec.fld m_ 6 6 = 0 := (low_fld T.lo 6 6 (by decide)).trans rfl
  have e3 : Dec.ra m_ = a := Fin.ext T.fa
  have es : m_ % 64 = 4 := (low_mod T.lo 64 (by decide)).trans rfl
  clear hn
  rw [decode_gather m_ hw hz hc]
  unfold Dec.gather
  rw [es]
  show (Dec.zero (Dec.fld m_ 22 5 + Dec.fld m_ 12 5 + Dec.fld m_ 6 6) ((Except.ok : Instr → Except Reject Instr) (.migr (Dec.ra m_)))) = _
  simp only [e0, e1, e2, e3, zero_nil, Nat.add_zero]

theorem mgpt : Statement (.mgpt) := by
  refine of_bits (29 * 134217728 + 0 * 4194304 + 0 * 131072 + 0 * 4096 + 5) rfl (tri_lt _ _ _ _ _ (by decide) (by decide) (by decide) (by decide) (by decide)) fun m_ hn hw => ?_
  have T := tri_facts 29 0 0 0 5 (by decide) (by decide) (by decide) (by decide) m_ hn
  have hz : m_ ≠ 0 := T.ne_of_cls (by decide)
  have hc := T.cls
  have e0 : Dec.fld m_ 22 5 = 0 := T.fd
  have e1 : Dec.fld m_ 17 5 = 0 := T.fa
  have e2 : Dec.fld m_ 12 5 = 0 := T.fb
  have e3 : Dec.fld m_ 6 6 = 0 := (low_fld T.lo 6 6 (by decide)).trans rfl
  have es : m_ % 64 = 5 := (low_mod T.lo 64 (by decide)).trans rfl
  clear hn
  rw [decode_gather m_ hw hz hc]
  unfold Dec.gather
  rw [es]
  show (Dec.zero (Dec.fld m_ 22 5 + Dec.fld m_ 17 5 + Dec.fld m_ 12 5 + Dec.fld m_ 6 6) ((Except.ok : Instr → Except Reject Instr) (.mgpt))) = _
  simp only [e0, e1, e2, e3, zero_nil, Nat.add_zero]

theorem trap (i : BitVec 12) : Statement (.trap i) := by
  have h_i := i.isLt
  refine of_bits (30 * 134217728 + 0 * 4194304 + 0 * 131072 + 1 * 4096 + i.toNat) rfl (tri_lt _ _ _ _ _ (by decide) (by decide) (by decide) (by decide) (by omega)) fun m_ hn hw => ?_
  have T := tri_facts 30 0 0 1 i.toNat (by decide) (by decide) (by decide) (by omega) m_ hn
  have hz : m_ ≠ 0 := T.ne_of_cls (by decide)
  have hc := T.cls
  have e0 : Dec.fld m_ 17 10 = 0 := by simp only [Dec.fld]; omega
  have e1 : BitVec.ofNat 12 m_ = i := BitVec.eq_of_toNat_eq (by rw [BitVec.toNat_ofNat]; omega)
  have es : Dec.fld m_ 12 5 = 1 := T.fb
  clear hn
  rw [decode_system m_ hw hz hc]
  unfold Dec.system
  rw [es]
  show (Dec.zero (Dec.fld m_ 17 10) ((Except.ok : Instr → Except Reject Instr) (.trap (BitVec.ofNat 12 m_)))) = _
  simp only [e0, e1, zero_nil]

theorem eret : Statement (.eret) := by
  refine of_bits (30 * 134217728 + 0 * 4194304 + 0 * 131072 + 2 * 4096 + 0) rfl (tri_lt _ _ _ _ _ (by decide) (by decide) (by decide) (by decide) (by decide)) fun m_ hn hw => ?_
  have T := tri_facts 30 0 0 2 0 (by decide) (by decide) (by decide) (by decide) m_ hn
  have hz : m_ ≠ 0 := T.ne_of_cls (by decide)
  have hc := T.cls
  have e0 : Dec.fld m_ 17 10 = 0 := by simp only [Dec.fld]; omega
  have e1 : Dec.fld m_ 0 12 = 0 := (low_fld T.lo 0 12 (by decide)).trans rfl
  have es : Dec.fld m_ 12 5 = 2 := T.fb
  clear hn
  rw [decode_system m_ hw hz hc]
  unfold Dec.system
  rw [es]
  show (Dec.zero (Dec.fld m_ 17 10 + Dec.fld m_ 0 12) ((Except.ok : Instr → Except Reject Instr) .eret)) = _
  simp only [e0, e1, zero_nil, Nat.add_zero]

theorem sysr (d : Reg) (r : SysReg) : Statement (.sysr d r) := by
  have h_d := d.isLt
  have h_r := sysReg_lt r
  refine of_bits (30 * 134217728 + d.val * 4194304 + 0 * 131072 + 3 * 4096 + (Enc.sysReg r)) rfl (tri_lt _ _ _ _ _ (by decide) d.isLt (by decide) (by decide) (by omega)) fun m_ hn hw => ?_
  have T := tri_facts 30 d.val 0 3 (Enc.sysReg r) d.isLt (by decide) (by decide) (by omega) m_ hn
  have hz : m_ ≠ 0 := T.ne_of_cls (by decide)
  have hc := T.cls
  have e0 : Dec.fld m_ 17 5 = 0 := T.fa
  have e1 : Dec.fld m_ 0 12 = Enc.sysReg r := (low_fld T.lo 0 12 (by decide)).trans (by simp only [Dec.fld]; omega)
  have e2 : Dec.rd m_ = d := Fin.ext T.fd
  have es : Dec.fld m_ 12 5 = 3 := T.fb
  clear hn
  rw [decode_system m_ hw hz hc]
  unfold Dec.system
  rw [es]
  show (Dec.zero (Dec.fld m_ 17 5) (Dec.sysReg (Dec.fld m_ 0 12) fun r => (Except.ok : Instr → Except Reject Instr) (.sysr (Dec.rd m_) r))) = _
  simp only [e0, e1, e2, sysReg_enc, zero_nil]

theorem sysw (r : SysReg) (a : Reg) : Statement (.sysw r a) := by
  have h_r := sysReg_lt r
  have h_a := a.isLt
  refine of_bits (30 * 134217728 + 0 * 4194304 + a.val * 131072 + 4 * 4096 + (Enc.sysReg r)) rfl (tri_lt _ _ _ _ _ (by decide) (by decide) a.isLt (by decide) (by omega)) fun m_ hn hw => ?_
  have T := tri_facts 30 0 a.val 4 (Enc.sysReg r) (by decide) a.isLt (by decide) (by omega) m_ hn
  have hz : m_ ≠ 0 := T.ne_of_cls (by decide)
  have hc := T.cls
  have e0 : Dec.fld m_ 22 5 = 0 := T.fd
  have e1 : Dec.fld m_ 0 12 = Enc.sysReg r := (low_fld T.lo 0 12 (by decide)).trans (by simp only [Dec.fld]; omega)
  have e2 : Dec.ra m_ = a := Fin.ext T.fa
  have es : Dec.fld m_ 12 5 = 4 := T.fb
  clear hn
  rw [decode_system m_ hw hz hc]
  unfold Dec.system
  rw [es]
  show (Dec.zero (Dec.fld m_ 22 5) (Dec.sysReg (Dec.fld m_ 0 12) fun r => (Except.ok : Instr → Except Reject Instr) (.sysw r (Dec.ra m_)))) = _
  simp only [e0, e1, e2, sysReg_enc, zero_nil]

theorem wfm : Statement (.wfm) := by
  refine of_bits (30 * 134217728 + 0 * 4194304 + 0 * 131072 + 5 * 4096 + 0) rfl (tri_lt _ _ _ _ _ (by decide) (by decide) (by decide) (by decide) (by decide)) fun m_ hn hw => ?_
  have T := tri_facts 30 0 0 5 0 (by decide) (by decide) (by decide) (by decide) m_ hn
  have hz : m_ ≠ 0 := T.ne_of_cls (by decide)
  have hc := T.cls
  have e0 : Dec.fld m_ 17 10 = 0 := by simp only [Dec.fld]; omega
  have e1 : Dec.fld m_ 0 12 = 0 := (low_fld T.lo 0 12 (by decide)).trans rfl
  have es : Dec.fld m_ 12 5 = 5 := T.fb
  clear hn
  rw [decode_system m_ hw hz hc]
  unfold Dec.system
  rw [es]
  show (Dec.zero (Dec.fld m_ 17 10 + Dec.fld m_ 0 12) ((Except.ok : Instr → Except Reject Instr) .wfm)) = _
  simp only [e0, e1, zero_nil, Nat.add_zero]

theorem yield : Statement (.yield) := by
  refine of_bits (30 * 134217728 + 0 * 4194304 + 0 * 131072 + 6 * 4096 + 0) rfl (tri_lt _ _ _ _ _ (by decide) (by decide) (by decide) (by decide) (by decide)) fun m_ hn hw => ?_
  have T := tri_facts 30 0 0 6 0 (by decide) (by decide) (by decide) (by decide) m_ hn
  have hz : m_ ≠ 0 := T.ne_of_cls (by decide)
  have hc := T.cls
  have e0 : Dec.fld m_ 17 10 = 0 := by simp only [Dec.fld]; omega
  have e1 : Dec.fld m_ 0 12 = 0 := (low_fld T.lo 0 12 (by decide)).trans rfl
  have es : Dec.fld m_ 12 5 = 6 := T.fb
  clear hn
  rw [decode_system m_ hw hz hc]
  unfold Dec.system
  rw [es]
  show (Dec.zero (Dec.fld m_ 17 10 + Dec.fld m_ 0 12) ((Except.ok : Instr → Except Reject Instr) .yield)) = _
  simp only [e0, e1, zero_nil, Nat.add_zero]

theorem exit (a : Reg) : Statement (.exit a) := by
  have h_a := a.isLt
  refine of_bits (30 * 134217728 + 0 * 4194304 + a.val * 131072 + 7 * 4096 + 0) rfl (tri_lt _ _ _ _ _ (by decide) (by decide) a.isLt (by decide) (by decide)) fun m_ hn hw => ?_
  have T := tri_facts 30 0 a.val 7 0 (by decide) a.isLt (by decide) (by decide) m_ hn
  have hz : m_ ≠ 0 := T.ne_of_cls (by decide)
  have hc := T.cls
  have e0 : Dec.fld m_ 22 5 = 0 := T.fd
  have e1 : Dec.fld m_ 0 12 = 0 := (low_fld T.lo 0 12 (by decide)).trans rfl
  have e2 : Dec.ra m_ = a := Fin.ext T.fa
  have es : Dec.fld m_ 12 5 = 7 := T.fb
  clear hn
  rw [decode_system m_ hw hz hc]
  unfold Dec.system
  rw [es]
  show (Dec.zero (Dec.fld m_ 22 5 + Dec.fld m_ 0 12) ((Except.ok : Instr → Except Reject Instr) (.exit (Dec.ra m_)))) = _
  simp only [e0, e1, e2, zero_nil, Nat.add_zero]

theorem pginv (a : Reg) : Statement (.pginv a) := by
  have h_a := a.isLt
  refine of_bits (30 * 134217728 + 0 * 4194304 + a.val * 131072 + 8 * 4096 + 0) rfl (tri_lt _ _ _ _ _ (by decide) (by decide) a.isLt (by decide) (by decide)) fun m_ hn hw => ?_
  have T := tri_facts 30 0 a.val 8 0 (by decide) a.isLt (by decide) (by decide) m_ hn
  have hz : m_ ≠ 0 := T.ne_of_cls (by decide)
  have hc := T.cls
  have e0 : Dec.fld m_ 22 5 = 0 := T.fd
  have e1 : Dec.fld m_ 0 12 = 0 := (low_fld T.lo 0 12 (by decide)).trans rfl
  have e2 : Dec.ra m_ = a := Fin.ext T.fa
  have es : Dec.fld m_ 12 5 = 8 := T.fb
  clear hn
  rw [decode_system m_ hw hz hc]
  unfold Dec.system
  rw [es]
  show (Dec.zero (Dec.fld m_ 22 5 + Dec.fld m_ 0 12) ((Except.ok : Instr → Except Reject Instr) (.pginv (Dec.ra m_)))) = _
  simp only [e0, e1, e2, zero_nil, Nat.add_zero]

theorem brk (i : BitVec 12) : Statement (.brk i) := by
  have h_i := i.isLt
  refine of_bits (30 * 134217728 + 0 * 4194304 + 0 * 131072 + 9 * 4096 + i.toNat) rfl (tri_lt _ _ _ _ _ (by decide) (by decide) (by decide) (by decide) (by omega)) fun m_ hn hw => ?_
  have T := tri_facts 30 0 0 9 i.toNat (by decide) (by decide) (by decide) (by omega) m_ hn
  have hz : m_ ≠ 0 := T.ne_of_cls (by decide)
  have hc := T.cls
  have e0 : Dec.fld m_ 17 10 = 0 := by simp only [Dec.fld]; omega
  have e1 : BitVec.ofNat 12 m_ = i := BitVec.eq_of_toNat_eq (by rw [BitVec.toNat_ofNat]; omega)
  have es : Dec.fld m_ 12 5 = 9 := T.fb
  clear hn
  rw [decode_system m_ hw hz hc]
  unfold Dec.system
  rw [es]
  show (Dec.zero (Dec.fld m_ 17 10) ((Except.ok : Instr → Except Reject Instr) (.brk (BitVec.ofNat 12 m_)))) = _
  simp only [e0, e1, zero_nil]

theorem illegalInstruction (w : W32) : Statement (.illegalInstruction w) := of_none rfl

theorem hostWindowMessage (off : Nat) (data : List Word) : Statement (.hostWindowMessage off data) := of_none rfl

theorem submissionAreaBadWrite (off : Nat) (len : Nat) : Statement (.submissionAreaBadWrite off len) := of_none rfl

theorem windowPassMessage : Statement (.windowPassMessage) := of_none rfl

theorem bar4Write (off : Nat) (data : List Byte) : Statement (.bar4Write off data) := of_none rfl

theorem bar4Read (off : Nat) (len : Nat) : Statement (.bar4Read off len) := of_none rfl

theorem featackWrite (i : Fin 4) (v : Word) : Statement (.featackWrite i v) := of_none rfl

theorem featlockWrite (v : Word) : Statement (.featlockWrite v) := of_none rfl

theorem hrqheadWrite (v : Word) : Statement (.hrqheadWrite v) := of_none rfl

theorem pwrcapWrite (v : Word) : Statement (.pwrcapWrite v) := of_none rfl

theorem linkstatWrite (v : Word) : Statement (.linkstatWrite v) := of_none rfl

theorem logtailOvfClear (die : Fin 4) (v : Word) : Statement (.logtailOvfClear die v) := of_none rfl

theorem registerWrite (off : Nat) (v : Word) : Statement (.registerWrite off v) := of_none rfl

theorem messageDelivery (src : OutQ) : Statement (.messageDelivery src) := of_none rfl

theorem handlerStart (c : CoreId) (k : Fin 4) : Statement (.handlerStart c k) := of_none rfl

theorem directStart (c : CoreId) (k : Fin 4) : Statement (.directStart c k) := of_none rfl

theorem mreqReply (n : Nat) : Statement (.mreqReply n) := of_none rfl

theorem gangLaunch : Statement (.gangLaunch) := of_none rfl

theorem dispatcherPass : Statement (.dispatcherPass) := of_none rfl

theorem headAgeingTimeout (q : Fin 8) : Statement (.headAgeingTimeout q) := of_none rfl

theorem gangLoad (g : Nat) (root : Nat) (text : Nat) (data : Nat) : Statement (.gangLoad g root text data) := of_none rfl

theorem gangRelease (g : Nat) (die : Fin 4) : Statement (.gangRelease g die) := of_none rfl

theorem temperatureSample (sensor : Nat) (t : Nat) : Statement (.temperatureSample sensor t) := of_none rfl

theorem eligibilityWindowEnd : Statement (.eligibilityWindowEnd) := of_none rfl

theorem powerSample (amps : Nat) (watts : Nat) : Statement (.powerSample amps watts) := of_none rfl

theorem droopEvent (cl : Nat) : Statement (.droopEvent cl) := of_none rfl

theorem fetchGroupDelivery (u : Crew) : Statement (.fetchGroupDelivery u) := of_none rfl

theorem bucketPostArrival (cl : Nat) (n : Nat) : Statement (.bucketPostArrival cl n) := of_none rfl

theorem bucketTimeout (cl : Nat) (b : Fin 8) : Statement (.bucketTimeout cl b) := of_none rfl

theorem waveLaunch (cl : Nat) (b : Fin 8) : Statement (.waveLaunch cl b) := of_none rfl

theorem migrationPlacement (cl : Nat) : Statement (.migrationPlacement cl) := of_none rfl

theorem rputArrival (srcs : List OutQ) : Statement (.rputArrival srcs) := of_none rfl

theorem homeRequest (rs : List MemReq) : Statement (.homeRequest rs) := of_none rfl

theorem invalidationAcknowledge (n : Nat) (die : Fin 4) : Statement (.invalidationAcknowledge n die) := of_none rfl

theorem lineWriteback (l : Fin 8) (line : Nat) : Statement (.lineWriteback l line) := of_none rfl

theorem rowCapture (l : Fin 8) (row : Nat) : Statement (.rowCapture l row) := of_none rfl

theorem refreshWindowStart (l : Fin 8) : Statement (.refreshWindowStart l) := of_none rfl

theorem streamElementArrival (p : Place) (f : Fin 4) : Statement (.streamElementArrival p f) := of_none rfl

theorem streamPushPerform (p : Place) (f : Fin 4) : Statement (.streamPushPerform p f) := of_none rfl

theorem copySectorComplete (u : CopyUnit) : Statement (.copySectorComplete u) := of_none rfl

theorem copyComplete (u : CopyUnit) : Statement (.copyComplete u) := of_none rfl

theorem triggerMessageSend (cl : Nat) : Statement (.triggerMessageSend cl) := of_none rfl

theorem galleryRequest (cl : Nat) (n : Nat) : Statement (.galleryRequest cl n) := of_none rfl

theorem galleryHandout (cl : Nat) : Statement (.galleryHandout cl) := of_none rfl

theorem bayWatchdogExpiry (g : Nat) (rank : Nat) (b : Fin 8) : Statement (.bayWatchdogExpiry g rank b) := of_none rfl

theorem bankOperationStart (cl : Nat) : Statement (.bankOperationStart cl) := of_none rfl

theorem bankOperationComplete (cl : Nat) : Statement (.bankOperationComplete cl) := of_none rfl

theorem rotationStepResume (cl : Nat) : Statement (.rotationStepResume cl) := of_none rfl

theorem bankWatchdogReset (cl : Nat) : Statement (.bankWatchdogReset cl) := of_none rfl

theorem barrierPhasePropagate (g : Nat) (b : Fin 16) (die : Fin 4) : Statement (.barrierPhasePropagate g b die) := of_none rfl

theorem stealRequest (cl : Nat) : Statement (.stealRequest cl) := of_none rfl

theorem faultTokenAssign (cl : Nat) : Statement (.faultTokenAssign cl) := of_none rfl

theorem pagerReply (cl : Nat) (c : Nat) : Statement (.pagerReply cl c) := of_none rfl

theorem preemptionCommand (cl : Nat) (c : Nat) : Statement (.preemptionCommand cl c) := of_none rfl

theorem shareSave (g : Nat) (rank : Nat) : Statement (.shareSave g rank) := of_none rfl

theorem gangRestore (g : Nat) : Statement (.gangRestore g) := of_none rfl

theorem lend : Statement (.lend) := of_none rfl

theorem errorEvent (unit : Nat) (kind : Nat) (addr : Nat) : Statement (.errorEvent unit kind addr) := of_none rfl

theorem dataError (a : Asker) (addr : Word) : Statement (.dataError a addr) := of_none rfl

theorem errorLogCapture (die : Fin 4) : Statement (.errorLogCapture die) := of_none rfl

theorem linkFlitRetry (link : Fin 4) (again : FlitRetry) : Statement (.linkFlitRetry link again) := of_none rfl

theorem linkAckTimeout (link : Fin 4) : Statement (.linkAckTimeout link) := of_none rfl

theorem noviloFrameReceive (head : NvHead) (body : NvBody) : Statement (.noviloFrameReceive head body) := of_none rfl

theorem spdmRequest (nonce : Nat) : Statement (.spdmRequest nonce) := of_none rfl

theorem deviceReset : Statement .deviceReset := of_none rfl

theorem eopraBoot (flash : Option BootFlash) (ecdsa lms : Bool) : Statement (.eopraBoot flash ecdsa lms) := of_none rfl

theorem gangRetire (g : Nat) : Statement (.gangRetire g) := of_none rfl

theorem memoryReply (r : MemReq) : Statement (.memoryReply r) := of_none rfl

theorem linkRestore (link : Fin 4) : Statement (.linkRestore link) := of_none rfl

end Sys2Proof.Laws.RoundTrip
end

