-- ==== Sys2Proof/Laws/Taking.lean ====
section
/-!
SUPPORT. What taking a word's operands leaves alone: the accesses in flight that it lands touch registers, the
memory path and nothing else.
-/

namespace Sys2Proof.Machine

theorem settles_forceRegs (i : Instr) (p : Place) (s : State) : Settles p s (forceRegs i p s) :=
  settles_foldl (fun s (a : Access) => settleAccess p a.n s) (fun s a => settles_settleAccess p a.n s) _ s

/-- What a word finds when it has taken its operands, but for registers and accesses in flight. -/
theorem atIssue_kept (i : Instr) (p : Place) (s : State) :
    ((atIssue i p s).thread p).kept = { (s.thread p).kept with entered := false, lastPc := some (s.thread p).pc } := by
  have h := (settles_forceRegs i p (s.modThread p fun t => { t with entered := false, lastPc := some t.pc })).kept
  rw [State.thread_modThread_self] at h
  exact h

theorem atIssue_shares (i : Instr) (p : Place) (s : State) : (atIssue i p s).shares = s.shares :=
  (settles_forceRegs i p _).shares

theorem atIssue_gangs (i : Instr) (p : Place) (s : State) : (atIssue i p s).gangs = s.gangs :=
  (settles_forceRegs i p _).gangs

theorem atIssue_cores (i : Instr) (p : Place) (s : State) : (atIssue i p s).cores = s.cores :=
  (settles_forceRegs i p _).cores

theorem atIssue_clk (i : Instr) (p : Place) (s : State) : (atIssue i p s).clk = s.clk :=
  (settles_forceRegs i p _).clk

theorem atIssue_run {i : Instr} {p : Place} {s : State} (h : Issues s p) : ((atIssue i p s).thread p).run = .running := by
  have e := congrArg Thread.run (atIssue_kept i p s)
  exact e.trans h.runs

theorem atIssue_waitOf {i : Instr} {p : Place} {s : State} (h : Issues s p) : waitOf p (atIssue i p s) = none := by
  unfold waitOf
  rw [atIssue_run h]

theorem atIssue_stageOf {i : Instr} {p : Place} {s : State} (h : Issues s p) : stageOf p (atIssue i p s) = 0 := by
  unfold stageOf
  rw [atIssue_waitOf h]

/-- With no access in flight, a word takes its operands from the state as it stands. -/
theorem atIssue_of_idle (i : Instr) (p : Place) (s : State) (h : (s.thread p).loads = []) :
    atIssue i p s = s.modThread p fun t => { t with entered := false, lastPc := some t.pc } := by
  unfold atIssue forceRegs
  simp only [State.thread_modThread_self, h, List.filter_nil, List.foldl_nil]

end Sys2Proof.Machine
end

