-- ==== Sys2Proof/Laws/Value.lean ====
section
/-!
SUPPORT. The values of the ALU class as bit-vector expressions: one equation for each value.
-/

namespace Sys2Proof.Machine

theorem sext_eq_toInt {w : Nat} (i : BitVec w) : sext i.toNat w = i.toInt := by
  unfold sext
  rw [BitVec.toInt_eq_toNat_cond]
  have hl := i.isLt
  have h : ((i.toNat : Int)) % 2 ^ w = i.toNat := by
    apply Int.emod_eq_of_lt (by omega)
    exact_mod_cast hl
  simp only [h]
  by_cases hw : w = 0
  · subst hw
    have : i.toNat = 0 := by omega
    simp [this]
  · simp only [hw, if_false]
    obtain ⟨v, rfl⟩ : ∃ v, w = v + 1 := ⟨w - 1, by omega⟩
    have h2 : (2 : Int) ^ (v + 1) = 2 * 2 ^ v := by rw [Int.pow_succ]; omega
    have h3 : 2 ^ (v + 1) = 2 * 2 ^ v := by rw [Nat.pow_succ]; omega
    have h4 : ((2 ^ v : Nat) : Int) = 2 ^ v := by push_cast; rfl
    simp only [Nat.add_sub_cancel]
    rw [h2, h3]
    push_cast
    split <;> split <;> omega

theorem sgn_eq (a : Word) : sgn a = a.toInt := sext_eq_toInt a

theorem sxI_eq {w : Nat} (i : BitVec w) : sxI i = i.signExtend 64 := by
  rw [sxI, sext_eq_toInt]; rfl

theorem shlV_eq (a : Word) (n : Nat) : shlV a n = a <<< n := by
  apply BitVec.eq_of_toNat_eq
  simp [shlV, ofN, Nat.shiftLeft_eq]

theorem shrV_eq (a : Word) (n : Nat) : shrV a n = a >>> n := by
  apply BitVec.eq_of_toNat_eq
  simp [shrV, ofN, Nat.shiftRight_eq_div_pow]
  exact Nat.lt_of_le_of_lt (Nat.div_le_self _ _) a.isLt

theorem sarV_eq (a : Word) (n : Nat) : sarV a n = a.sshiftRight n := by
  rw [sarV, sgn_eq, ofI, BitVec.sshiftRight, Int.shiftRight_eq_div_pow]
  rfl

theorem mulhV_eq (a b : Word) : mulhV a b = BitVec.ofInt 64 (a.toInt * b.toInt / 2 ^ 64) := by
  simp [mulhV, sgn_eq, ofI]

theorem divV_eq (a b : Word) : divV a b = if b = 0 then BitVec.allOnes 64 else a.sdiv b := by
  unfold divV
  split
  · decide
  · apply BitVec.eq_of_toInt_eq
    rw [BitVec.toInt_sdiv, sgn_eq, sgn_eq]
    split
    · rename_i h; rw [h.1, h.2]; rfl
    · rw [ofI, BitVec.toInt_ofInt]

theorem divuV_eq (a b : Word) : divuV a b = if b = 0 then BitVec.allOnes 64 else a / b := by
  unfold divuV
  split
  · decide
  · apply BitVec.eq_of_toNat_eq
    simp only [ofN, BitVec.toNat_ofNat, BitVec.toNat_udiv]
    exact Nat.mod_eq_of_lt (Nat.lt_of_le_of_lt (Nat.div_le_self _ _) a.isLt)

theorem remV_eq (a b : Word) : remV a b = if b = 0 then a else a.srem b := by
  unfold remV
  split
  · rfl
  · apply BitVec.eq_of_toInt_eq
    rw [BitVec.toInt_srem, sgn_eq, sgn_eq]
    split
    · rename_i h; rw [h.1, h.2]; rfl
    · rw [ofI, ← Int.tmod_def, ← BitVec.toInt_srem, BitVec.ofInt_toInt]

theorem remuV_eq (a b : Word) : remuV a b = if b = 0 then a else a % b := by
  unfold remuV
  split
  · rfl
  · apply BitVec.eq_of_toNat_eq
    simp only [ofN, BitVec.toNat_ofNat, BitVec.toNat_umod]
    exact Nat.mod_eq_of_lt (Nat.lt_of_le_of_lt (Nat.mod_le _ _) a.isLt)

theorem mulhuV_eq (a b : Word) : mulhuV a b = ((a.setWidth 128 * b.setWidth 128) >>> 64).setWidth 64 := by
  apply BitVec.eq_of_toNat_eq
  have h : a.toNat * b.toNat < 2 ^ 128 := by
    have := Nat.mul_lt_mul'' a.isLt b.isLt
    simpa using this
  simp only [mulhuV, ofN, BitVec.toNat_ofNat, BitVec.toNat_setWidth, BitVec.toNat_ushiftRight, BitVec.toNat_mul,
    Nat.shiftRight_eq_div_pow]
  have ha : a.toNat % 2 ^ 128 = a.toNat := Nat.mod_eq_of_lt (Nat.lt_of_lt_of_le a.isLt (by decide))
  have hb : b.toNat % 2 ^ 128 = b.toNat := Nat.mod_eq_of_lt (Nat.lt_of_lt_of_le b.isLt (by decide))
  rw [ha, hb, Nat.mod_eq_of_lt h]

theorem zextV_eq (a : Word) (w : Nat) : zextV a w = (a.setWidth w).setWidth 64 := by
  apply BitVec.eq_of_toNat_eq
  simp [zextV, zext, ofN]

theorem sextV_eq (a : Word) (w : Nat) : sextV a w = (a.setWidth w).signExtend 64 := by
  have : sext a.toNat w = sext (a.setWidth w).toNat w := by
    unfold sext
    simp
  rw [sextV, this, sext_eq_toInt]
  rfl

theorem lt_iff_slt (a b : Word) : (sgn a < sgn b) ↔ a.slt b = true := by
  rw [sgn_eq, sgn_eq, BitVec.slt_iff_toInt_lt]

theorem le_iff_sle (a b : Word) : (sgn a ≤ sgn b) ↔ a.sle b = true := by
  rw [sgn_eq, sgn_eq, BitVec.sle_iff_toInt_le]

/-! ### Counts and reversals -/

theorem bool_toNat_testBit (v : Nat) : v % 2 = (v.testBit 0).toNat := by
  rw [Nat.testBit_zero]
  rcases Nat.mod_two_eq_zero_or_one v with h | h <;> simp [h]

theorem popCount_eq (n v : Nat) : popCount n v = ((List.range n).countP fun i => v.testBit i) := by
  induction n generalizing v with
  | zero => rfl
  | succ n ih =>
    rw [popCount, ih, List.range_succ_eq_map, List.countP_cons, List.countP_map]
    have : ((fun i => v.testBit i) ∘ Nat.succ) = fun i => (v / 2).testBit i := by
      funext i
      simp [Nat.testBit_succ]
    rw [this, Nat.testBit_zero]
    rcases Nat.mod_two_eq_zero_or_one v with h | h <;> simp [h]; omega

theorem popV_eq (a : Word) : popV a = BitVec.ofNat 64 ((List.range 64).countP fun i => a.getLsbD i) := by
  rw [popV, popCount_eq]; rfl

theorem ctzN_eq (n v : Nat) : ctzN n v = ((List.range n).takeWhile fun i => !v.testBit i).length := by
  induction n generalizing v with
  | zero => rfl
  | succ n ih =>
    rw [ctzN, List.range_succ_eq_map, List.takeWhile_cons, Nat.testBit_zero]
    rcases Nat.mod_two_eq_zero_or_one v with h | h
    · have : ((fun i => !v.testBit i) ∘ Nat.succ) = fun i => !(v / 2).testBit i := by
        funext i
        simp [Nat.testBit_succ]
      simp [h, ih, List.takeWhile_map, this]
      omega
    · simp [h]

theorem ctzV_eq (a : Word) :
    ctzV a = BitVec.ofNat 64 ((List.range 64).takeWhile fun i => !a.getLsbD i).length := by
  rw [ctzV, ctzN_eq]; rfl

theorem bitLen_le (n v : Nat) (h : v < 2 ^ n) : bitLen v ≤ n := by
  unfold bitLen
  split
  · omega
  · rename_i h0
    have := (Nat.log2_lt h0).mpr h
    omega

theorem bitLen_top (n v : Nat) (h : v < 2 ^ (n + 1)) (ht : 2 ^ n ≤ v) : bitLen v = n + 1 := by
  have h0 : v ≠ 0 := by have := Nat.two_pow_pos n; omega
  have h1 := (Nat.log2_lt h0).mpr h
  have h2 := (Nat.le_log2 h0).mpr ht
  simp only [bitLen, h0, if_false]
  omega

theorem clz_takeWhile (n v : Nat) (h : v < 2 ^ n) :
    n - bitLen v = ((List.range n).takeWhile fun k => !v.testBit (n - 1 - k)).length := by
  induction n with
  | zero => simp
  | succ n ih =>
    rw [List.range_succ_eq_map, List.takeWhile_cons]
    by_cases ht : 2 ^ n ≤ v
    · have h1 : v.testBit n = true := by
        rw [Nat.testBit_eq_decide_div_mod_eq]
        have : v / 2 ^ n = 1 := by
          apply Nat.div_eq_of_lt_le
          · omega
          · rw [Nat.pow_succ] at h; omega
        simp [this]
      simp [h1, bitLen_top n v h ht]
    · have h1 : v.testBit n = false := Nat.testBit_lt_two_pow (by omega)
      have hb := bitLen_le n v (by omega)
      have := ih (by omega)
      have he : ((fun k => !v.testBit (n - k)) ∘ Nat.succ) = fun k => !v.testBit (n - 1 - k) := by
        funext k
        simp only [Function.comp]
        congr 2
        omega
      simp [h1, List.takeWhile_map, he, ← this]
      omega

theorem clzV_eq (a : Word) :
    clzV a = BitVec.ofNat 64 ((List.range 64).takeWhile fun k => !a.getLsbD (63 - k)).length := by
  rw [clzV, clz_takeWhile 64 _ a.isLt]; rfl

theorem testBit_add_shl (a x n i : Nat) (h : a < 2 ^ n) :
    (x * 2 ^ n + a).testBit i = if i < n then a.testBit i else x.testBit (i - n) := by
  rw [Nat.mul_comm, Nat.testBit_two_pow_mul_add _ h]

theorem bitRev_lt (n v : Nat) : bitRev n v < 2 ^ n := by
  induction n generalizing v with
  | zero => simp [bitRev]
  | succ n ih =>
    rw [bitRev, Nat.pow_succ]
    have := ih (v / 2)
    rcases Nat.mod_two_eq_zero_or_one v with h | h <;> simp [h] <;> omega

theorem testBit_bitRev (n v i : Nat) (h : i < n) : (bitRev n v).testBit i = v.testBit (n - 1 - i) := by
  induction n generalizing v i with
  | zero => omega
  | succ n ih =>
    rw [bitRev, testBit_add_shl _ _ _ _ (bitRev_lt n _)]
    split
    · rename_i hi
      rw [ih _ _ hi]
      have : n + 1 - 1 - i = (n - 1 - i) + 1 := by omega
      rw [this, Nat.testBit_succ]
    · have : i = n := by omega
      subst this
      simp [Nat.testBit_zero]

theorem brevV_eq (a : Word) : brevV a = a.reverse := by
  apply BitVec.eq_of_getLsbD_eq
  intro i hi
  rw [BitVec.getLsbD_reverse, brevV, ofN, BitVec.getLsbD_ofNat, testBit_bitRev 64 _ _ hi,
    BitVec.getMsbD_eq_getLsbD]
  simp [hi, BitVec.getLsbD]

theorem byteRev_lt (n v : Nat) : byteRev n v < 256 ^ n := by
  induction n generalizing v with
  | zero => simp [byteRev]
  | succ n ih =>
    rw [byteRev, Nat.pow_succ]
    have := ih (v / 256)
    have : v % 256 < 256 := Nat.mod_lt _ (by decide)
    have : v % 256 * 256 ^ n ≤ 255 * 256 ^ n := Nat.mul_le_mul_right _ (by omega)
    omega

theorem testBit_byteRev (n v i : Nat) (h : i < 8 * n) :
    (byteRev n v).testBit i = v.testBit (8 * (n - 1 - i / 8) + i % 8) := by
  induction n generalizing v i with
  | zero => omega
  | succ n ih =>
    have hp : 256 ^ n = 2 ^ (8 * n) := by rw [Nat.pow_mul]
    have hl := byteRev_lt n (v / 256)
    rw [hp] at hl
    rw [byteRev, hp, testBit_add_shl _ _ _ _ hl]
    split
    · rename_i hi
      rw [ih _ _ hi]
      have h1 : 8 * (n + 1 - 1 - i / 8) + i % 8 = 8 * (n - 1 - i / 8) + i % 8 + 8 := by omega
      have h2 : (v / 256) = v >>> 8 := by rw [Nat.shiftRight_eq_div_pow]
      rw [h1, h2, Nat.testBit_shiftRight, Nat.add_comm 8]
    · rename_i hi
      have h1 : 8 * (n + 1 - 1 - i / 8) + i % 8 = i - 8 * n := by omega
      have h2 : i - 8 * n < 8 := by omega
      rw [h1, show (256 : Nat) = 2 ^ 8 from rfl, Nat.testBit_mod_two_pow]
      simp [h2]

theorem bswapV_eq (a : Word) (i : Nat) (h : i < 64) :
    (bswapV a).getLsbD i = a.getLsbD (8 * (7 - i / 8) + i % 8) := by
  rw [bswapV, ofN, BitVec.getLsbD_ofNat, testBit_byteRev 8 _ _ (by omega)]
  simp [h, BitVec.getLsbD]

/-! ### Fields -/

/-- The len bits of x at pos, as a number. -/
theorem fieldV_eq (x : Word) (pos len : Nat) : ofN (fieldV x pos len) = ((x >>> pos).setWidth len).setWidth 64 := by
  apply BitVec.eq_of_toNat_eq
  simp [ofN, fieldV, Nat.shiftRight_eq_div_pow]

theorem sext_fieldV (x : Word) (pos len : Nat) :
    ofI (sext (fieldV x pos len) len) = ((x >>> pos).setWidth len).signExtend 64 := by
  have : ((fieldV x pos len : Nat) : Int) = ((x >>> pos).setWidth len).toNat := by
    simp [fieldV, Nat.shiftRight_eq_div_pow]
  rw [this, sext_eq_toInt]
  rfl

theorem testBit_setField (v lo w f i : Nat) :
    (setField v lo w f).testBit i =
      if i < lo then v.testBit i else if i < lo + w then f.testBit (i - lo) else v.testBit i := by
  unfold setField
  have h1 : v % 2 ^ lo + f % 2 ^ w * 2 ^ lo < 2 ^ (lo + w) := by
    have := Nat.mod_lt v (Nat.two_pow_pos lo)
    have h2 := Nat.mod_lt f (Nat.two_pow_pos w)
    have : (f % 2 ^ w) * 2 ^ lo ≤ (2 ^ w - 1) * 2 ^ lo := Nat.mul_le_mul_right _ (by omega)
    have e : (2 ^ w - 1) * 2 ^ lo + 2 ^ lo = 2 ^ (lo + w) := by
      rw [Nat.pow_add, Nat.sub_mul, Nat.one_mul, Nat.mul_comm (2 ^ lo)]
      have := Nat.le_mul_of_pos_left (2 ^ lo) (Nat.two_pow_pos w)
      omega
    omega
  rw [Nat.add_comm, testBit_add_shl _ _ _ _ h1, Nat.add_comm (v % 2 ^ lo),
    testBit_add_shl _ _ _ _ (Nat.mod_lt v (Nat.two_pow_pos lo))]
  by_cases ha : i < lo
  · have : i < lo + w := by omega
    simp [ha, this, Nat.testBit_mod_two_pow]
  · by_cases hb : i < lo + w
    · have : i - lo < w := by omega
      simp [ha, hb, Nat.testBit_mod_two_pow, this]
    · simp only [ha, hb, if_false]
      rw [← Nat.shiftRight_eq_div_pow, Nat.testBit_shiftRight]
      congr 1
      omega

end Sys2Proof.Machine
end

