-- ==== Sys2Proof/Laws/Words.lean ====
section
/-!
SUPPORT. The words of a context read off their shapes: register writes of a context, and one lemma for each shape
of word.
-/

namespace Sys2Proof.Machine

/-! ### Constants and fields -/

theorem ofI_mul (a b : Int) : ofI (a * b) = ofI a * ofI b := by simp [ofI, BitVec.ofInt_mul]
theorem ofI_sext {w : Nat} (i : BitVec w) : ofI (sext i.toNat w) = i.signExtend 64 := by
  rw [sext_eq_toInt]; rfl

theorem luiV_eq (i : BitVec 22) (n : Nat) : ofI (sext i.toNat 22 * 2 ^ n) = i.signExtend 64 <<< n := by
  have h : ofI (2 ^ n : Int) = BitVec.twoPow 64 n := by
    have : (2 ^ n : Int) = ((2 ^ n : Nat) : Int) := by push_cast; rfl
    rw [ofI, this, BitVec.ofInt_natCast]
    apply BitVec.eq_of_toNat_eq
    simp [BitVec.toNat_twoPow]
  rw [ofI_mul, ofI_sext, h, BitVec.mul_twoPow_eq_shiftLeft]

theorem luihV_eq (x : Word) (v : Word) :
    v <<< 39 + ofN (x.toNat % 2 ^ 39) = (x &&& 0x7FFFFFFFFF) ||| (v <<< 39) := by
  have h1 : ofN (x.toNat % 2 ^ 39) = x &&& 0x7FFFFFFFFF := by
    apply BitVec.eq_of_toNat_eq
    have : (0x7FFFFFFFFF : Word).toNat = 2 ^ 39 - 1 := by decide
    rw [BitVec.toNat_and, this, Nat.and_two_pow_sub_one_eq_mod, ofN, BitVec.toNat_ofNat]
    exact Nat.mod_eq_of_lt (Nat.lt_of_le_of_lt (Nat.mod_le _ _) x.isLt)
  rw [h1, BitVec.add_comm]
  apply BitVec.add_eq_or_of_and_eq_zero
  apply BitVec.eq_of_getLsbD_eq
  intro i hi
  have hm : (0x7FFFFFFFFF : Word) = (BitVec.allOnes 39).setWidth 64 := by decide
  rw [hm]
  simp only [BitVec.getLsbD_and, BitVec.getLsbD_shiftLeft, BitVec.getLsbD_setWidth, BitVec.getLsbD_allOnes]
  by_cases h : i < 39 <;> simp [h]

theorem getLsbD_getBits (x : Word) (pos len i : Nat) (hi : i < 64) :
    (getBits x pos len).getLsbD i = (decide (i < len) && x.getLsbD (pos + i)) := by
  simp only [getBits, BitVec.getLsbD_and, BitVec.getLsbD_ushiftRight, BitVec.getLsbD_allOnes]
  by_cases h : i < len
  · have : 64 - len + i < 64 := by omega
    simp [h, this]
  · have : ¬ 64 - len + i < 64 := by omega
    simp [h, this]

theorem getLsbD_putBits (x v : Word) (pos len i : Nat) (hi : i < 64) :
    (putBits x v pos len).getLsbD i =
      if i < pos then x.getLsbD i else if i < pos + len then v.getLsbD (i - pos) else x.getLsbD i := by
  simp only [putBits, BitVec.getLsbD_or, BitVec.getLsbD_and, BitVec.getLsbD_not, BitVec.getLsbD_shiftLeft,
    BitVec.getLsbD_ushiftRight, BitVec.getLsbD_allOnes]
  by_cases h : i < pos
  · simp [h, hi]
  · by_cases h2 : i < pos + len
    · have : 64 - len + (i - pos) < 64 := by omega
      simp [h, h2, hi, this]
    · have : ¬ 64 - len + (i - pos) < 64 := by omega
      simp [h, h2, hi, this]

theorem bfxuV_eq (x : Word) (pos len : Nat) : ofN (fieldV x pos len) = getBits x pos len := by
  apply BitVec.eq_of_getLsbD_eq
  intro i hi
  rw [getLsbD_getBits _ _ _ _ hi, fieldV_eq]
  simp only [BitVec.getLsbD_setWidth, BitVec.getLsbD_ushiftRight, hi, decide_true, Bool.true_and]

theorem setField_eq (x v : Word) (pos len : Nat) :
    ofN (setField x.toNat pos len v.toNat) = putBits x v pos len := by
  apply BitVec.eq_of_getLsbD_eq
  intro i hi
  rw [getLsbD_putBits _ _ _ _ _ hi, ofN, BitVec.getLsbD_ofNat, testBit_setField]
  simp [hi, BitVec.getLsbD]

/-! ### Register writes of a context -/

theorem putReg_x (t : Thread) (d : Reg) (v : Word) : t.putReg .x d.val v = t.setX d v := by
  simp [Thread.putReg]

theorem putReg_f (t : Thread) (d : Reg) (v : W32) : t.putReg .f d.val (v.setWidth 64) = t.setF d v := by
  simp [Thread.putReg]

theorem putReg_p (t : Thread) (n : Nat) (b : Bool) : t.putReg .p n (if b then 1#64 else 0#64) = t.setP n b := by
  cases b <;> simp [Thread.putReg]

theorem writeReg_ctx {p : Place} (h : p.engine ≠ .lane) (lat : Nat) (file : RFile) (n : Nat) (v : Word) (s : State) :
    writeReg p lat file n v s =
      s.modThread p fun t => if n = 0 && (file == .x || file == .p) then t else t.putReg file n v := by
  unfold writeReg
  cases he : p.engine with
  | lane => exact absurd he h
  | scalar => rfl
  | landing => rfl

theorem setX_ctx {p : Place} (h : p.engine ≠ .lane) (lat : Nat) (d : Reg) (v : Word) (s : State) :
    setX p lat d v s = putX p d v s := by
  rw [setX, writeReg_ctx h, putX]
  congr 1
  funext t
  by_cases hd : d.val = 0
  · have : d = 0 := Fin.ext hd
    subst this
    simp [Thread.setX]
  · simp [hd, putReg_x]

theorem setFReg_ctx {p : Place} (h : p.engine ≠ .lane) (lat : Nat) (d : Reg) (v : W32) (s : State) :
    setFReg p lat d v s = putFReg p d v s := by
  rw [setFReg, writeReg_ctx h, putFReg]
  congr 1
  funext t
  simp [putReg_f]

theorem setPred_ctx {p : Place} (h : p.engine ≠ .lane) (lat : Nat) (d : Nat) (b : Bool) (s : State) :
    setPred p lat d b s = putP p d b s := by
  rw [setPred, writeReg_ctx h, putP]
  congr 1
  funext t
  by_cases hd : d = 0
  · subst hd
    simp [Thread.setP]
  · simp [hd, putReg_p]

theorem putF_ctx {p : Place} (h : p.engine ≠ .lane) (lat : Nat) (d : Reg) (v : W32) (s : State) :
    putF p lat d v s = putF p 0 d v s := by
  unfold putF
  split
  · rw [setFReg_ctx h, setFReg_ctx h]
  · rfl

/-- withF, when its operands are ready. -/
theorem withF_ok {p : Place} {srcs dsts : List Reg} {s : State} {k : (Reg → W32) → (State → State) → State → Res}
    (h : (s.thread p).fcheck srcs dsts = .ok)
    (hp : (s.thread p).lastPops srcs = [] ∨ ((pushAll p s).thread p).pushing = false) :
    withF p srcs dsts s k = k ((readF p srcs s).thread p).fval (popAll p srcs) (readF p srcs s) := by
  unfold withF readF
  dsimp only
  rw [h]
  dsimp only
  cases hl : (s.thread p).lastPops srcs with
  | nil => rfl
  | cons m ms =>
    rcases hp with hp | hp
    · rw [hl] at hp; exact absurd hp (by simp)
    · simp only [releaseThen, releaseOr, hp, Bool.false_eq_true, if_false]

/-- A word with no f operand reads none. -/
@[simp] theorem readF_nil (p : Place) (s : State) : readF p [] s = s := rfl

/-! ### Accesses and releases -/

/-- A word whose body is an access comes to what its access comes to. -/
theorem accesses_of {i : Instr} {body : Body} {p : Place} {s s₁ : State} {va : Word} {w : Nat} {need : Need}
    {k : Target → State → Res} {done : Target → State → Prop} (hx : exec i s = issueWord i body s)
    (h : Clear i p s)
    (hb : body { act := [p], pre := atIssue i p s } p (atIssue i p s) = access p va w need s₁ k)
    (hk : ∀ t s', body { act := [p], pre := atIssue i p s } p (atIssue i p s) = k t s' → done t s') :
    Accesses i p s s₁ va w need done where
  goes t s' hr hd := by
    apply hk
    rw [hb]
    unfold access
    dsimp only
    rw [hr]
    dsimp only
    rcases hd with hd | hd
    · simp [hd]
    · simp [hd]
  poisoned t s' hr hn hd := by
    refine traps_of_trap (e := fun _ => s') hx h ?_
    rw [hb]
    unfold access
    dsimp only
    rw [hr]
    simp [hn, hd]
  faults c s' hr := by
    refine traps_of_trap (e := fun _ => s') hx h ?_
    rw [hb]
    unfold access
    dsimp only
    rw [hr]
  sleeps r l s' hr := by
    refine blocks_of_wait (e := fun _ => _) hx h ?_
    rw [hb]
    unfold access
    dsimp only
    rw [hr]
  waits s' hr := by
    refine blocks_of_wait (e := fun _ => s') hx h ?_
    rw [hb]
    unfold access
    dsimp only
    rw [hr]

/-- A word whose body is a release, and then completes, comes to what its release comes to. -/
theorem releases_of {i : Instr} {body : Body} {p : Place} {s s₁ : State} {sc : Scope} {m : Bool}
    {k : State → Res} {e : State → State} (hx : exec i s = issueWord i body s) (h : Clear i p s)
    (hb : body { act := [p], pre := atIssue i p s } p (atIssue i p s) = releaseThen p sc m s₁ k)
    (hk : ∀ s, k s = .ok (e s)) : Releases i p s s₁ sc m e where
  goes hp := by
    refine completes_of_ok (e := fun _ => _) hx h ?_
    rw [hb]
    simp only [releaseThen, releaseOr, hp, Bool.false_eq_true, if_false, hk]
  waits hp := by
    refine blocks_of_wait (e := fun _ => _) hx h ?_
    rw [hb]
    simp only [releaseThen, releaseOr, hp, if_true]

/-! ### Shapes -/

theorem givesXXX_of {mk : Reg → Reg → Reg → Instr} (f : Word → Word → Word) {g : Word → Word → Word}
    (hx : ∀ d a b s, exec (mk d a b) s = wordXXX (mk d a b) d a b f s) (hv : ∀ x y, f x y = g x y) :
    GivesXXX mk g := by
  intro p s d a b h
  refine completes_of_ok (hx d a b s) h ?_
  simp only [setX_ctx h.issues.context, hv]

theorem givesXX_of {mk : Reg → Reg → Instr} (f : Word → Word) {g : Word → Word}
    (hx : ∀ d a s, exec (mk d a) s = wordXX (mk d a) d a f s) (hv : ∀ x, f x = g x) : GivesXX mk g := by
  intro p s d a h
  refine completes_of_ok (hx d a s) h ?_
  simp only [setX_ctx h.issues.context, hv]

theorem givesPPP_of {mk : Pred → Pred → Pred → Instr} (f : Bool → Bool → Bool)
    (hx : ∀ d a b s, exec (mk d a b) s = wordPPP (mk d a b) d a b f s) : GivesPPP mk f := by
  intro p s d a b h
  refine completes_of_ok (hx d a b s) h ?_
  simp only [setPred_ctx h.issues.context]

theorem givesFFF_of {mk : Reg → Reg → Reg → Instr} (f : Thread → Nat → Nat → FRes)
    (hx : ∀ d a b s, exec (mk d a b) s = wordFFF (mk d a b) d a b f s) : GivesFFF mk f := by
  intro p s d a b h hf
  refine completes_of_ok (hx d a b s) h ?_
  rw [withF_ok hf.1 hf.2]
  simp only [putF_ctx h.issues.context (info (mk d a b)).wlat, giveF, fBits, w32]

theorem givesFF_of {mk : Reg → Reg → Instr} (f : Thread → Nat → FRes)
    (hx : ∀ d a s, exec (mk d a) s = wordFF (mk d a) d a f s) : GivesFF mk f := by
  intro p s d a h hf
  refine completes_of_ok (hx d a s) h ?_
  rw [withF_ok hf.1 hf.2]
  simp only [putF_ctx h.issues.context (info (mk d a)).wlat, giveF, fBits, w32]

theorem givesXF_of {mk : Reg → Reg → Instr} (f : Thread → Nat → Word × Nat)
    (hx : ∀ d a s, exec (mk d a) s = wordXF (mk d a) d a f s) : GivesXF mk f := by
  intro p s d a h hf
  refine completes_of_ok (hx d a s) h ?_
  rw [withF_ok hf.1 hf.2]
  simp only [setX_ctx h.issues.context, fBits]

theorem givesFX_of {mk : Reg → Reg → Instr} (f : Thread → Word → FRes)
    (hx : ∀ d a s, exec (mk d a) s = wordFX (mk d a) d a f s) : GivesFX mk f := by
  intro p s d a h hf
  refine completes_of_ok (hx d a s) h ?_
  rw [withF_ok hf.1 hf.2]
  simp only [readF_nil, putF_ctx h.issues.context (info (mk d a)).wlat, giveF, w32]

theorem givesFFFF_of {mk : Reg → Reg → Reg → Reg → Instr} (f : Thread → Nat → Nat → Nat → FRes)
    (hx : ∀ d a b c s, exec (mk d a b c) s = wordFFFF (mk d a b c) d a b c f s) : GivesFFFF mk f := by
  intro p s d a b c h hf
  refine completes_of_ok (hx d a b c s) h ?_
  rw [withF_ok hf.1 hf.2]
  simp only [putF_ctx h.issues.context (info (mk d a b c)).wlat, giveF, fBits, w32]

end Sys2Proof.Machine
end

