-- ==== Sys2Proof/Tests/Slice0.lean ====
section
/-!
SUPPORT. The tests: ill-formed terms that the checks refuse, words of the spec's own examples, worked values of the
spec, and for every statement with hypotheses a state and operands that meet them.
-/

namespace Sys2Proof.Tests

open Sys2Proof Sys2Proof.Machine

set_option Elab.async false

/-! ### Well-formedness: an ill-formed term for each check, and a boundary that passes -/

theorem test_wf_atomics_take_w_and_d :
    (Instr.atomAdd .b .cl 1 2 3).wf = false ∧ (Instr.atomMin .h .cl 1 2 3).wf = false ∧
    (Instr.atomMax .b .cl 1 2 3).wf = false ∧ (Instr.atomMinu .h .cl 1 2 3).wf = false ∧
    (Instr.atomMaxu .b .cl 1 2 3).wf = false ∧ (Instr.atomAnd .h .cl 1 2 3).wf = false ∧
    (Instr.atomOr .b .cl 1 2 3).wf = false ∧ (Instr.atomXor .h .cl 1 2 3).wf = false ∧
    (Instr.atomSwap .b .cl 1 2 3).wf = false ∧ (Instr.cas .h .cl 1 2 3).wf = false ∧
    (Instr.amergeI .b .cl 1 2).wf = false ∧ (Instr.atomAdd .w .cl 1 2 3).wf = true ∧
    (Instr.amergeI .d .cl 1 2).wf = true := by decide +kernel

theorem test_wf_bank_words :
    (Instr.wrot .a 1 2).wf = false ∧ (Instr.wrot .b 1 2).wf = false ∧ (Instr.wmacr .a 1 2 3 4).wf = false ∧
    (Instr.wstat true 1 1).wf = false ∧ (Instr.wrot .ab 1 2).wf = true ∧ (Instr.wstat true 1 3).wf = true := by decide +kernel

theorem test_wf_host_events :
    (Instr.hostWindowMessage 262144 (List.replicate 8 0)).wf = false ∧ (Instr.hostWindowMessage 0 []).wf = false ∧
    (Instr.bar4Write 67108864 [0]).wf = false ∧ (Instr.bar4Read 67108864 1).wf = false ∧
    (Instr.registerWrite 65536 0).wf = false ∧ (Instr.bar4Write 67108863 [0]).wf = true := by decide +kernel

theorem test_wf_places_exist :
    (Instr.messageDelivery (.core (.scalar 192 0))).wf = false ∧ (Instr.messageDelivery (.eng 0 2)).wf = false ∧
    (Instr.handlerStart (.scalar 0 32) 0).wf = false ∧ (Instr.directStart (.landing 8 0) 0).wf = false ∧
    (Instr.fetchGroupDelivery (.ctx 0 0 4)).wf = false ∧ (Instr.fetchGroupDelivery (.wave 0 2 0)).wf = false ∧
    (Instr.rputArrival [.core (.landing 0 48)]).wf = false ∧ (Instr.streamElementArrival (.lane 0 0 0 64) 0).wf = false ∧
    (Instr.streamPushPerform (.lctx 0 48 0) 0).wf = false ∧ (Instr.dataError (.stream (.ctx 0 0 0) 4) 0).wf = false ∧
    (Instr.copySectorComplete (.cluster 192)).wf = false ∧ (Instr.copyComplete (.landing 8)).wf = false ∧
    (Instr.handlerStart (.landing 7 47) 0).wf = true := by decide +kernel

theorem test_wf_clusters_exist :
    (Instr.droopEvent 192).wf = false ∧ (Instr.temperatureSample 200 0).wf = false ∧
    (Instr.bucketPostArrival 192 0).wf = false ∧ (Instr.bucketTimeout 192 0).wf = false ∧
    (Instr.waveLaunch 192 0).wf = false ∧ (Instr.migrationPlacement 192).wf = false ∧
    (Instr.triggerMessageSend 192).wf = false ∧ (Instr.galleryRequest 192 0).wf = false ∧
    (Instr.galleryHandout 192).wf = false ∧ (Instr.bankOperationStart 192).wf = false ∧
    (Instr.bankOperationComplete 192).wf = false ∧ (Instr.rotationStepResume 192).wf = false ∧
    (Instr.bankWatchdogReset 192).wf = false ∧ (Instr.stealRequest 192).wf = false ∧
    (Instr.faultTokenAssign 192).wf = false ∧ (Instr.pagerReply 0 32).wf = false ∧
    (Instr.preemptionCommand 192 0).wf = false ∧ (Instr.temperatureSample 199 0).wf = true := by decide +kernel

theorem test_wf_package_events :
    (Instr.errorEvent 6 0 0).wf = false ∧ (Instr.errorEvent 0 4 0).wf = false ∧ (Instr.errorEvent 3844 0 0).wf = false ∧
    (Instr.noviloFrameReceive ⟨8, 0, 0, 0⟩ .ack).wf = false ∧
    (Instr.noviloFrameReceive ⟨0, 0, 0, 0⟩ (.messages [[0]])).wf = false ∧
    (Instr.eopraBoot (some ⟨{ Eopra.blank with split := 65 }, []⟩) true true).wf = false ∧
    (Instr.errorEvent 5 3 0).wf = true := by decide +kernel

/-! ### Words: the examples of the spec's own entries, and words laid out from its templates -/

/-- 05 R109, R110 and the templates of Table 02-2: DIV x9, x10, x11; SARI x7, x8, 3; ADDI x1, x3, 5. -/
theorem test_decode_alu :
    decode 0x0254B011 = .ok (.div 9 10 11) ∧ decode 0x29D08003 = .ok (.sari 7 8 3) ∧
    decode 0x08460005 = .ok (.addi 1 3 5) ∧ decode 0x58C803C8 = .ok (.bfxu 3 4 15 8) := by
  and_intros <;> rfl

/-- 05 R124, R126, R127: PCMPI.GE p9, x2, −1; CALL four words back; JMPR x9; RET; FCMP.LT p5, f1, f2. -/
theorem test_decode_branches_and_predicates :
    decode 0x70917D02 = .ok (.pcmpi .ge 9 2 31) ∧ decode 0x83FFFFFC = .ok (.call 0x1FFFFFC) ∧
    decode 0x88120001 = .ok (.jmpr 9) ∧ decode 0x88000003 = .ok .ret ∧ decode 0x705088C3 = .ok (.fcmp .lt 5 1 2) := by
  and_intros <;> rfl

/-- 06 R149, R155, R156: FDIV.RTZ f6, f7, f8; F2I.RTZ x9, f2; FMA.RNE f1, f2, f3, f4; HFMA2 f1, f2, f3, f4. -/
theorem test_decode_floating :
    decode 0x918E8404 = .ok (.fdiv .rtz 6 7 8) ∧ decode 0x92440412 = .ok (.f2i .rtz 9 2) ∧
    decode 0x98443211 = .ok (.fma .rne 1 2 3 4) ∧ decode 0x98443205 = .ok (.hfma2 .dyn 1 2 3 4) := by
  and_intros <;> rfl

/-- 09 R219-R224: the examples of the MEMSYNC entries, and LD.D x1, [x2+16] from the LOAD template. -/
theorem test_decode_memory :
    decode 0xA0458010 = .ok (.ldD .normal 1 2 16) ∧ decode 0xB0C84019 = .ok (.lda .w .die 3 4 4) ∧
    decode 0xB04C702E = .ok (.strel .d .pkg 7 6 1) ∧ decode 0xB14C704D = .ok (.atomAdd .d .die 5 6 7) ∧
    decode 0xB14C70DE = .ok (.cas .d .pkg 5 6 7) ∧ decode 0xB00C70EE = .ok (.amergeI .d .pkg 6 7) ∧
    decode 0xB00C70FA = .ok (.amergeF .pkg 6 7) ∧ decode 0xB0000032 = .ok (.fence .pkg) ∧
    decode 0xB0120110 = .ok (.cinv .cl 9) := by
  and_intros <;> rfl

/-- 10 R245-R248. -/
theorem test_decode_streams :
    decode 0xB8040001 = .ok (.sbind 0 2) ∧ decode 0xB8000042 = .ok (.sclose 1) ∧ decode 0xB94000C3 = .ok (.sstat 5 3) ∧
    decode 0xB98E0004 = .ok (.tcopy 6 7) ∧ decode 0xB8106045 = .ok (.tlwait .die 8 6) ∧
    decode 0xBA500006 = .ok (.tlread .v 9 8) ∧ decode 0xB810A007 = .ok (.tlarm 8 10) := by
  and_intros <;> rfl

/-- 11 R265-R270. -/
theorem test_decode_galleries :
    decode 0xC14C7001 = .ok (.galloc 5 6 7) ∧ decode 0xC14C7002 = .ok (.gtry 5 6 7) ∧ decode 0xC00A0003 = .ok (.gseal 5) ∧
    decode 0xC20A0004 = .ok (.gtake 8 5) ∧ decode 0xC00A0005 = .ok (.gdone 5) ∧ decode 0xC00A7006 = .ok (.gdrop 5 7) ∧
    decode 0xC24A0047 = .ok (.gstatTile 9 5) ∧ decode 0xC14C7008 = .ok (.gbay 5 6 7) := by
  and_intros <;> rfl

/-- 12 R291-R301. -/
theorem test_decode_bank :
    decode 0xC8250001 = .ok (.wcfg .wkp0 5) ∧ decode 0xC8490005 = .ok (.wrcf 9 .wacb) ∧
    decode 0xC8674031 = .ok (.wldp .b true 1 7 8) ∧ decode 0xC8854002 = .ok (.wldt .a false 2 5 8) ∧
    decode 0xC8A90210 = .ok (.wmul 2 1 0 9) ∧ decode 0xC8C00010 = .ok (.wmac 1 0 0 0) ∧
    decode 0xC8E95002 = .ok (.wext 2 9 10) ∧ decode 0xC9000310 = .ok (.wrot .ab 1 0) ∧
    decode 0xC9200310 = .ok (.wmacr .ab 1 0 0 0) ∧ decode 0xC94A5800 = .ok (.wsta 10 11) ∧
    decode 0xC9600013 = .ok (.wzeroZ 3) ∧ decode 0xC9800000 = .ok (.wwait 0) ∧ decode 0xC9A9000B = .ok (.wstat true 9 3) ∧
    decode 0xC9C00072 = .ok (.wmov 7 2) ∧ decode 0xC9E60000 = .ok (.wunpk .a 6 0) ∧
    decode 0xCA003931 = .ok (.wshft .b 3 1 7) := by
  and_intros <;> rfl

/-- 03 R84-R88; 14 R329-R331. -/
theorem test_decode_messages :
    decode 0xD0122001 = .ok (.msend 9 2) ∧ decode 0xD014B002 = .ok (.mreq 10 11) ∧ decode 0xD0085004 = .ok (.hset 4 5) ∧
    decode 0xD18E8005 = .ok (.hmask 6 7 8) ∧ decode 0xD00A6006 = .ok (.rput 5 6) ∧ decode 0xD1460007 = .ok (.qget 5 3) ∧
    decode 0xD1460008 = .ok (.qpeek 5 3) ∧ decode 0xD14C7049 = .ok (.dqpush .die 5 6 7) ∧
    decode 0xD140000A = .ok (.dqpop 5) ∧ decode 0xD14C000B = .ok (.dqsteal 5 6) ∧
    decode 0xD14C008C = .ok (.bar .pkg 5 6) ∧ decode 0xD14C004D = .ok (.bara .die 5 6) ∧
    decode 0xD00C504E = .ok (.barw .die 6 5) := by
  and_intros <;> rfl

/-- 02 R55, R58; 08 R195. -/
theorem test_decode_control_and_gatherer :
    decode 0xDC650000 = .ok (.guard 12 true 2) ∧ decode 0xD8000018 = .ok (.pace 0 3 0 0 0 0 0 0) ∧
    decode 0xE952A001 = .ok (.mbpost 5 9 10) ∧ decode 0xE98A0002 = .ok (.mbwait 6 5) ∧
    decode 0xE8120003 = .ok (.gflush 9) ∧ decode 0xE8120004 = .ok (.migr 9) ∧ decode 0xE8000005 = .ok .mgpt := by
  and_intros <;> rfl

/-- 15 R358-R362; 16 R363. -/
theorem test_decode_system :
    decode 0xF0001001 = .ok (.trap 1) ∧ decode 0xF0002000 = .ok .eret ∧ decode 0xF2403102 = .ok (.sysr 9 .epc) ∧
    decode 0xF00C4105 = .ok (.sysw .tvec 6) ∧ decode 0xF0006000 = .ok .yield ∧ decode 0xF0087000 = .ok (.exit 4) ∧
    decode 0xF0128000 = .ok (.pginv 9) ∧ decode 0xF0009007 = .ok (.brk 7) := by
  and_intros <;> rfl

/-! ### States for the tests -/

/-- The context that withFetchWord starts. -/
def here : Place := .ctx 0 0 0

/-- Reset with the word ADD x1, x2, x3 loaded and due (log 10). -/
def base : State := State.reset.withFetchWord 32 0x00443001

/-- A state with register d of the context set. -/
def withX (d : Reg) (v : Word) (s : State) : State := putX here d v s

/-- A state with the context's share changed. -/
def withShare (f : Share → Share) (s : State) : State := s.modShare 1 0 f

/-- The base with a mapped page of 64 GiB: a table at 0 whose entry 0 leads to the table at 0x2000, and there a leaf
with every permission; DRAM is wholly interleaved. -/
def mapped : State :=
  { base with
    pkg := { base.pkg with eopra := { base.pkg.eopra with split := 64 } }
    dram := [(0, 1), (1, 0x20), (0x2000, 0xFF)] }

/-- The base with a bay of two slots, the first free from the start and the second sealed. -/
def withBay : State :=
  withShare (fun sh => { sh with bays := sh.bays.set 0 (some {
    phys := 0, base := 0x1000, lsz := 8, cntm1 := 1,
    slots := [{ st := .free, gen := 1, cnt := 0, avail := 0 }, { st := .sealed, gen := 3, cnt := 5, avail := 0 }],
    fifo := [], wd := none }) }) base

/-- The state a word leads to. -/
def after (i : Instr) (s : State) : State :=
  match exec i s with
  | .next t => t
  | _ => s

/-- A context of the first core issues a word whose registers no access in flight uses. -/
theorem clear_of {i : Instr} {s : State} (l : (s.thread here).loads = []) (t : s.turn = .issue (.ctx 0 0 0) false)
    (r : (s.thread here).run = .running) (g : ({ s.thread here with entered := false, lastPc := some (s.thread here).pc } : Thread).off = false)
    (d : decodeFault i here { s.thread here with entered := false, lastPc := some (s.thread here).pc } = none) : Clear i here s := by
  have e : (atIssue i here s).thread here = { s.thread here with entered := false, lastPc := some (s.thread here).pc } := by
    rw [atIssue_of_idle i here s l, State.thread_modThread_self]
  exact ⟨⟨by simp [here, Place.engine], ⟨false, t⟩, r⟩, by rw [e]; exact g, by rw [e]; exact d⟩

/-- The f operands of a word are ready. -/
theorem fready_of {i : Instr} {s : State} {srcs dsts : List Reg}
    (h : ((atIssue i here s).thread here).fcheck srcs dsts = .ok) (l : ((atIssue i here s).thread here).lastPops srcs = []) :
    FReady i here s srcs dsts := ⟨h, .inl l⟩

/-! ### Worked values of the spec -/

/-- 05 R109: −7 / 2, v / 0, −2^63 / −1; MULH of −1 by −1; ADDW; SAR by 0x43. -/
theorem test_alu_worked_values :
    (after (.div 1 2 3) (withX 2 (-7) (withX 3 2 base)) |>.thread here).getX 1 = -3 ∧
    (after (.rem 1 2 3) (withX 2 (-7) (withX 3 2 base)) |>.thread here).getX 1 = -1 ∧
    (after (.divu 1 2 3) (withX 2 5 base) |>.thread here).getX 1 = 0xFFFFFFFFFFFFFFFF ∧
    (after (.div 1 2 3) (withX 2 (2 ^ 63) (withX 3 (-1) base)) |>.thread here).getX 1 = 2 ^ 63 ∧
    (after (.mulh 1 2 3) (withX 2 (-1) (withX 3 (-1) base)) |>.thread here).getX 1 = 0 ∧
    (after (.addw 1 2 3) (withX 2 0x7FFFFFFF (withX 3 1 base)) |>.thread here).getX 1 = 0xFFFFFFFF80000000 ∧
    (after (.sar 1 2 3) (withX 2 0x8000000000000000 (withX 3 0x43 base)) |>.thread here).getX 1 = 0xF000000000000000 := by
  decide +kernel

/-- 05 R124: PCMPI.LTU p1, x2, −1 is false at 2^64 − 1 alone. -/
theorem test_pcmpi_ltu_extends :
    (after (.pcmpi .ltu 1 2 31) (withX 2 (-1) base) |>.thread here).getP 1 = false ∧
    (after (.pcmpi .ltu 1 2 31) (withX 2 (-2) base) |>.thread here).getP 1 = true := by decide +kernel

/-! ### Witnesses: the step and the words -/

theorem witness_StepRunsTheDecodedWord :
    (clockStopped base = false ∧ base.turn = .issue (.ctx 0 0 0) false ∧
      (∃ s', takePlace base base.turn = some s' ∧ canIssue s' (.ctx 0 0 0) = true ∧ s'.standing (.ctx 0 0 0) = [here] ∧
        s'.nextWord (.ctx 0 0 0) here (s'.thread here).pc = .word 0x00443001) ∧
      decodeTableWord 32 0x00443001 = some (.add 1 2 3)) ∧
    (∃ s', takePlace (State.reset.withFetchWord 32 0) (State.reset.withFetchWord 32 0).turn = some s' ∧
      s'.nextWord (.ctx 0 0 0) here (s'.thread here).pc = .word 0 ∧ decodeTableWord 32 0 = none) ∧
    (let s : State := { base with turn := .resume here }.modThread here fun t => { t with run := .wait (.qget 1 2) (.waiting 0 0) }
     clockStopped s = false ∧ (takePlace s s.turn).isSome = true ∧ (s.thread here).run = .wait (.qget 1 2) (.waiting 0 0)) ∧
    (let s : State := { base with turn := .act (.spdmRequest 0) }
     clockStopped s = false ∧ (takePlace s s.turn).isSome = true ∧ Instr.isEvent (.spdmRequest 0) = true) ∧
    (let s : State := { base with turn := .issue (.ctx 5 0 0) false }
     clockStopped s = false ∧ takePlace s s.turn = none) := by
  refine ⟨⟨by decide +kernel, rfl, ⟨_, rfl, by decide +kernel, by decide +kernel, by decide +kernel⟩, by decide +kernel⟩,
    ⟨_, rfl, by decide +kernel, by decide +kernel⟩, by decide +kernel, by decide +kernel, by decide +kernel⟩

theorem witness_NextWordIsTheFetchedWord :
    (base.thread here).mode = false ∧
    (∃ g, (base.groups (.ctx 0 0 0)).head? = some g ∧ g.clk < base.clk ∧ g.addr.toNat = 0x20000 ∧ g.bad = 0 ∧
      g.words[0]? = some 0x00443001) ∧
    ((base.modThread here fun t => { t with pc := 2 }).thread here).pc.toNat % 4 ≠ 0 ∧
    (base.modThread here fun t => { t with fetch := [] }).groups (.ctx 0 0 0) = [] ∧
    ((base.modThread here fun t => { t with fetch := t.fetch.map fun g => { g with bad := Cause.access } }).groups
      (.ctx 0 0 0)).map (·.bad) = [Cause.access] :=
  ⟨by decide +kernel, ⟨_, rfl, by decide +kernel, by decide +kernel, rfl, rfl⟩, by decide +kernel, by decide +kernel,
    by decide +kernel⟩

theorem witness_TripStopsEveryClock :
    let s : State := { base with pkg := { base.pkg with boot := .tripped } }
    s.pkg.boot = .tripped ∧ isReset .deviceReset = true ∧ s.turn ≠ .act .deviceReset := by decide +kernel

theorem witness_EncodedWordDecodesBack :
    (Instr.add 1 2 3).wf = true ∧ encode (.add 1 2 3) = some 0x00443001 ∧
    decodeTableWord 32 0x00443001 = some (.add 1 2 3) := by decide +kernel

theorem witness_DecodedWordIsItsEncoding :
    decodeTableWord 32 0x00443001 = some (.add 1 2 3) ∧ decodeTableWord 32 0xE8000005 = some .mgpt ∧
    decodeTableWord 32 0 = none := by decide +kernel

/-- The base in a range of one word whose condition is false. -/
def guarded : State := base.modThread here fun t => { t with grem := 1, gcnd := false }

theorem witness_GuardedOffWordOnlyCounts :
    encode (.add 1 2 3) = some 0x00443001 ∧ isControl (.add 1 2 3) = false ∧ Issues guarded here ∧
    ((atIssue (.add 1 2 3) here guarded).thread here).off = true :=
  ⟨by decide +kernel, rfl, ⟨by decide, ⟨false, rfl⟩, rfl⟩, by decide +kernel⟩

/-- A landing-core context that has its turn. -/
def landing : State :=
  { base with turn := .issue (.lctx 0 0 0) false }.setThread (.lctx 0 0 0) { Thread.blank with run := .running }

theorem witness_DecodeFaultsTrapInOrder :
    (Issues base here ∧ illegalAt (.illegalInstruction 0) here ((atIssue (.illegalInstruction 0) here base).thread here) = true) ∧
    (encode (.sysw .status 1)).isSome ∧ (info (.sysw .status 1)).priv = true ∧
    (let t := (atIssue (.sysw .status 1) here base).thread here
     t.off = false ∧ t.mode = false ∧ illegalAt (.sysw .status 1) here t = false) ∧
    Issues landing (.lctx 0 0 0) ∧ (encode (.mbpost 1 2 3)).isSome ∧ (info (.mbpost 1 2 3)).priv = false ∧
    engineRuns (.mbpost 1 2 3) .landing = false ∧
    (let t := (atIssue (.mbpost 1 2 3) (.lctx 0 0 0) landing).thread (.lctx 0 0 0)
     t.off = false ∧ illegalAt (.mbpost 1 2 3) (.lctx 0 0 0) t = false) ∧
    (base.tvecOf here).toNat % 4 = 0 :=
  ⟨⟨⟨by decide, ⟨false, rfl⟩, rfl⟩, by decide +kernel⟩, by decide +kernel, by decide +kernel, by decide +kernel,
    ⟨by decide, ⟨false, rfl⟩, rfl⟩, by decide +kernel, by decide +kernel, by decide +kernel, by decide +kernel,
    by decide +kernel⟩

/-- The base in supervisor mode. -/
def supervisor : State := base.modThread here fun t => { t with mode := true, epc := 0x30000, eguard := 3 }

theorem witness_TrapWordsAndReturn :
    Clear (.trap 1) here base ∧ Clear (.brk 7) here base ∧
    ((forceLoads here (atIssue (.trap 1) here base)).tvecOf here).toNat % 4 = 0 ∧ Clear .eret here supervisor :=
  ⟨clear_of rfl rfl rfl rfl rfl, clear_of rfl rfl rfl rfl rfl, by decide +kernel, clear_of rfl rfl rfl rfl rfl⟩

theorem witness_BadVectorEndsThread :
    ((withShare (fun sh => { sh with tvec := 0x10002 }) base).tvecOf here).toNat % 4 ≠ 0 ∧
    (base.gang? (base.thread here).gang).isSome := by decide +kernel

theorem witness_AluWordsWriteTableValue :
    Clear (.add 1 2 3) here base ∧ Clear (.remu 31 31 31) here base ∧ Clear (.clz 0 1) here base :=
  ⟨clear_of rfl rfl rfl rfl rfl, clear_of rfl rfl rfl rfl rfl, clear_of rfl rfl rfl rfl rfl⟩

/-- The base with field 0 of layout 0 at bit 0, one bit wide, and field 1 at bit 1. -/
def layouts : State := base.modCore (.scalar 0 0) fun k => { k with lay := (0, 1) :: (1, 1) :: List.replicate 62 (0, 0) }

theorem witness_ImmediatesFieldsAndRecordsWriteStatedValue :
    Clear (.addi 1 2 0x1FFFF) here base ∧ Clear (.lui 1 0x3FFFFF) here base ∧ Clear (.bfi 1 2 63 63) here base ∧
    (Clear (.mhpk 1 2 3 0) here layouts ∧ layOver ((atIssue (.mhpk 1 30 3 0) here layouts).layOf here) here.engine 0 30 = none) ∧
    (Clear (.mhpk 1 31 3 0) here layouts ∧
      layOver ((atIssue (.mhpk 1 31 3 0) here layouts).layOf here) here.engine 0 31 = some 1) ∧
    (Clear (.mhun true 30 2 0) here layouts ∧
      layOver ((atIssue (.mhun true 30 2 0) here layouts).layOf here) here.engine 0 30 = none) ∧
    (Clear (.layw 2 3) here (withX 2 63 (withX 3 0x4000 base)) ∧ (0x4000 : Nat) % 256 + 0x4000 / 256 ≤ 64) ∧
    (Clear (.layw 2 3) here (withX 2 64 base) ∧ getX here 2 (atIssue (.layw 2 3) here (withX 2 64 base)) = 64) ∧
    (Clear (.layr 1 2) here (withX 2 63 base) ∧ getX here 2 (atIssue (.layr 1 2) here (withX 2 63 base)) = 63) ∧
    Clear (.prdx 1 2) here base ∧ Clear (.xprd 1 0) here base :=
  ⟨clear_of rfl rfl rfl rfl rfl, clear_of rfl rfl rfl rfl rfl, clear_of rfl rfl rfl rfl rfl,
    ⟨clear_of rfl rfl rfl rfl rfl, by decide +kernel⟩, ⟨clear_of rfl rfl rfl rfl rfl, by decide +kernel⟩,
    ⟨clear_of rfl rfl rfl rfl rfl, by decide +kernel⟩, ⟨clear_of rfl rfl rfl rfl rfl, by decide +kernel⟩,
    ⟨clear_of rfl rfl rfl rfl rfl, by decide +kernel⟩, ⟨clear_of rfl rfl rfl rfl rfl, by decide +kernel⟩,
    clear_of rfl rfl rfl rfl rfl, clear_of rfl rfl rfl rfl rfl⟩

theorem witness_PredicateWordsWriteCondition :
    Clear (.pcmp .geu 5 1 2) here base ∧ Clear (.pand 0 1 95) here base ∧
    (let w : W32 := 0x70000001
     w.toNat / 2 ^ 27 = 14 ∧ w.toNat % 64 = 1 ∧ w.toNat / 64 % 16 = 0) ∧
    (let w : W32 := 0x700001C2
     w.toNat / 2 ^ 27 = 14 ∧ w.toNat % 64 = 2 ∧ w.toNat / 64 % 16 = 7) ∧
    (let w : W32 := 0x78000038
     w.toNat / 2 ^ 27 = 15 ∧ w.toNat / 8 % 8 = 7) ∧
    (let w : W32 := 0x78000070
     w.toNat / 2 ^ 27 = 15 ∧ w.toNat / 8 % 8 = 6 ∧ w.toNat / 64 % 128 = 1) :=
  ⟨clear_of rfl rfl rfl rfl rfl, clear_of rfl rfl rfl rfl rfl, by decide +kernel, by decide +kernel, by decide +kernel,
    by decide +kernel⟩

theorem witness_BranchesTransferToStatedTarget :
    Clear (.br 3) here base ∧ Clear (.call 3) here base ∧
    (Clear (.brp 0 3) here base ∧ getP here 0 (atIssue (.brp 0 3) here base) = true) ∧
    (Clear (.brp 1 3) here base ∧ getP here 1 (atIssue (.brp 1 3) here base) = false) ∧
    (Clear (.jmpr 1) here (withX 1 0x007FFFFFFFFFFFFC base) ∧ canonical 0x007FFFFFFFFFFFFC = true) ∧
    (Clear (.callr 1) here (withX 1 0x0080000000000000 base) ∧ canonical 0x0080000000000000 = false) ∧
    (Clear .ret here (withX 23 2 base) ∧ getX here 23 (atIssue .ret here (withX 23 2 base)) = 2) :=
  ⟨clear_of rfl rfl rfl rfl rfl, clear_of rfl rfl rfl rfl rfl, ⟨clear_of rfl rfl rfl rfl rfl, by decide +kernel⟩,
    ⟨clear_of rfl rfl rfl rfl rfl, by decide +kernel⟩, ⟨clear_of rfl rfl rfl rfl rfl, by decide +kernel⟩,
    ⟨clear_of rfl rfl rfl rfl rfl, by decide +kernel⟩, ⟨clear_of rfl rfl rfl rfl rfl, by decide +kernel⟩⟩

theorem witness_FpuArithmeticWritesRoundedResult :
    Clear (.fadd .dyn 1 2 3) here base ∧ FReady (.fadd .dyn 1 2 3) here base [2, 3] [1] ∧
    Clear (.fsqrt .rne 27 28) here base ∧ FReady (.fsqrt .rne 27 28) here base [28] [27] :=
  ⟨clear_of rfl rfl rfl rfl rfl, fready_of rfl rfl, clear_of rfl rfl rfl rfl rfl, fready_of rfl rfl⟩

theorem witness_FusedAndPairWordsRoundOnce :
    Clear (.fma .rtz 1 2 3 4) here base ∧ FReady (.fma .rtz 1 2 3 4) here base [2, 3, 4] [1] ∧
    Clear (.hadd2 .rne 1 2 3) here base ∧ FReady (.hadd2 .rne 1 2 3) here base [2, 3] [1] :=
  ⟨clear_of rfl rfl rfl rfl rfl, fready_of rfl rfl, clear_of rfl rfl rfl rfl rfl, fready_of rfl rfl⟩

theorem witness_FpuSelectConvertMoveWriteStatedResult :
    Clear (.f2i .rtz 1 2) here base ∧ FReady (.f2i .rtz 1 2) here base [2] [] ∧
    Clear (.fmvFx .dyn 1 2) here base ∧ FReady (.fmvFx .dyn 1 2) here base [] [1] ∧
    Clear (.fcmp .lt 5 1 2) here base ∧ FReady (.fcmp .lt 5 1 2) here base [1, 2] [] :=
  ⟨clear_of rfl rfl rfl rfl rfl, fready_of rfl rfl, clear_of rfl rfl rfl rfl rfl, fready_of rfl rfl,
    clear_of rfl rfl rfl rfl rfl, fready_of rfl rfl⟩

/-! ### Witnesses: memory -/

/-- The first byte of the own window in the RAW view (01 R24). -/
def own : Word := 0x00FFFF0000000000

/-- A read stream bound to f28, of four elements of four bytes at 0, with one element at hand. -/
def bound : State := modStrm here 0 (fun _ => some {
  freshStrm [0, 0, 4, 0, 4, 0, 0, 0] true with ahead := [.val 7] }) base

/-- A write stream bound to f28. -/
def boundOut : State := modStrm here 0 (fun _ => some (freshStrm [0, 1, 4, 0, 4, 0, 0, 0] true)) base

theorem witness_LoadsSendTheirAccess :
    (Clear (.ldD .normal 1 2 0x7F8) here (withX 2 own base) ∧
      (route (base.agent here) (own + 0x7F8) 8 .read base).1 = .to (.spad 0 0x7F8 0 1 0)) ∧
    (route (base.agent here) (own + 1) 8 .read base).1 = .bad Cause.access ∧
    (route (base.agent here) 0x30000 8 .read base).1 = .missed 0 0 ∧
    (route { base.agent here with rank := 1 } 0x00FFFE0000000000 8 .read (withShare (fun sh => { sh with stopped := true })
      base)).1 = .held ∧
    (Clear (.fld .nl 1 2 0) here base ∧ FReady (.fld .nl 1 2 0) here base [] [1]) ∧
    (Clear (.fld .nl 28 2 0) here boundOut ∧ FReady (.fld .nl 28 2 0) here boundOut [] [28] ∧
      (((atIssue (.fld .nl 28 2 0) here boundOut).thread here).strmOf 28).isSome) :=
  ⟨⟨clear_of rfl rfl rfl rfl rfl, by decide +kernel⟩, by decide +kernel, by decide +kernel, by decide +kernel,
    ⟨clear_of rfl rfl rfl rfl rfl, fready_of rfl rfl⟩,
    ⟨clear_of rfl rfl rfl rfl rfl, fready_of rfl rfl, by decide +kernel⟩⟩

theorem witness_StoresMakeTheirStore :
    (Clear (.stB .normal 1 2 0xFFF) here (withX 2 (own + 1) base) ∧
      (route (base.agent here) own 1 .write base).1 = .to (.spad 0 0 0 1 0)) ∧
    (route (mapped.agent here) 0x30000 8 .write mapped).1 = .to (.dram 0x30000 true false false) ∧
    (Clear (.fst .normal 28 2 0) here bound ∧ FReady (.fst .normal 28 2 0) here bound [28] []) :=
  ⟨⟨clear_of rfl rfl rfl rfl rfl, by decide +kernel⟩, by decide +kernel, ⟨clear_of rfl rfl rfl rfl rfl, fready_of rfl rfl⟩⟩

theorem witness_OrderedAccessesReleaseAndAcquire :
    Clear (.lda .d .die 1 2 31) here base ∧ Clear (.strel .w .pkg 1 2 0) here base ∧ Clear (.fence .sys) here base ∧
    (Clear (.cas .w .pkg 1 2 3) here base ∧ atomAllowed false (.spad 0 0 0 1 0) = true) ∧
    atomAllowed false (.spad 0 0 1 1 0) = false ∧
    (Clear (.amergeI .d .die 1 2) here base ∧ atomAllowed true (.dram 0 true false false) = true) ∧
    (Clear (.amergeF .die 1 28) here bound ∧ FReady (.amergeF .die 1 28) here bound [28] [] ∧
      atomAllowed true (.spad 0 0 0 1 0) = false) ∧
    (route (mapped.agent here) 0x30000 8 .atomic mapped).1 = .to (.dram 0x30000 true false false) ∧
    (let s := withX 2 own base
     let s₂ := settleMerges here (forceAtoms here (atIssue (.lda .d .die 1 2 0) here s))
     (route (s₂.agent here) own 8 .read s₂).1 = .to (.spad 0 0 0 1 0) ∧ dataBad s₂ (.spad 0 0 0 1 0) = false ∧
      Target.isLreg (.spad 0 0 0 1 0) = false) ∧
    (let s := withX 2 own base
     let s₁ := atIssue (.cas .d .pkg 1 2 3) here s
     (route (s₁.agent here) (getX here 2 s₁) 8 .atomic s₁).1 = .to (.spad 0 0 0 1 0) ∧
      ((pushAll here (route (s₁.agent here) (getX here 2 s₁) 8 .atomic s₁).2).thread here).pushing = false) ∧
    (let s := withX 1 0x30000 mapped
     let s₁ := forceAtoms here (atIssue (.amergeI .d .die 1 2) here s)
     (route (s₁.agent here) 0x30000 8 .atomic s₁).1 = .to (.dram 0x30000 true false false) ∧
      dataBad s₁ (.dram 0x30000 true false false) = false) ∧
    ((pushAll here base).thread here).pushing = false ∧
    ((pushAll here (modStrm here 0 (fun o => o.map fun m => { m with push := [(0, 7)] }) boundOut)).thread here).pushing =
      true :=
  ⟨clear_of rfl rfl rfl rfl rfl, clear_of rfl rfl rfl rfl rfl, clear_of rfl rfl rfl rfl rfl,
    ⟨clear_of rfl rfl rfl rfl rfl, by decide +kernel⟩, by decide +kernel,
    ⟨clear_of rfl rfl rfl rfl rfl, by decide +kernel⟩,
    ⟨clear_of rfl rfl rfl rfl rfl, fready_of rfl rfl, by decide +kernel⟩, by decide +kernel, by decide +kernel,
    by decide +kernel, by decide +kernel, by decide +kernel, by decide +kernel⟩

theorem witness_AtomicsLeaveTableValueInOneStep :
    Memory.wf mapped.dram = true ∧ FMap.wf mapped.slices = true ∧ mapped.stores = [] ∧
    atomNew 4 8 (Memory.read mapped.dram 0 8) 1 0 = some 0x2002 ∧
    atomNew 13 8 (Memory.read mapped.dram 0 8) 1 0 = none := by decide +kernel

theorem witness_LoadGivesExtendedHomeBytes :
    here.engine ≠ .lane ∧ base.split = false ∧ (base.thread here).loads = [] ∧ mapped.stores = [] ∧
    (0x2000 % 8 = 0 ∧ (0x2000 : Word).toNat % 128 = 0x2000 % 128) ∧ (mapped.cluster 0).l1 = [] ∧
    FMap.get? mapped.slices (copyKey (0x2000 / 128) here.die) = none := by decide +kernel

theorem witness_CacheWordsActOnTheirLine :
    Clear (.pref .cl 0) here mapped ∧ Clear (.pref .die 0) here mapped ∧
    (quietLine here (getX here 0 (atIssue (.pref .cl 0) here mapped)) (atIssue (.pref .cl 0) here mapped)).1 =
      some (0, false) ∧
    Clear (.cinv .pkg 0) here mapped ∧ Clear (.cflush .sys 0) here mapped ∧ here.cluster? = some 0 ∧
    FMap.wf mapped.slices = true ∧
    FMap.get? ((mapped.modLanding 0 fun d => { d with msc := [(0, true)] }).landing 0).msc 0 = some true :=
  ⟨clear_of rfl rfl rfl rfl rfl, clear_of rfl rfl rfl rfl rfl, by decide +kernel, clear_of rfl rfl rfl rfl rfl,
    clear_of rfl rfl rfl rfl rfl, rfl, by decide +kernel, by decide +kernel⟩

/-! ### Witnesses: streams, copies, timelines -/

/-- The base with bytes in its share's scratchpad. -/
def spad (m : Memory) (s : State) : State := s.modCluster 0 fun c => { c with spad := m }

/-- A stream record for four elements of four bytes, and x2 at it. -/
def record : State := spad [(16, 4), (32, 4)] (withX 2 own base)

/-- The same with a format that does not exist. -/
def badRecord : State := spad [(8, 0xE), (16, 4), (32, 4)] (withX 2 own base)

/-- A record of a read stream of a tile, and x2 at it: slot 1 at generation 3 where h is 3. -/
def tileRecord (h : Nat) (s : State) : State :=
  spad [(8, 0x10), (12, BitVec.ofNat 8 h), (13, 0x20), (16, 4), (32, 4)] (withX 2 own s)

/-- A bay whose second slot is filling, at generation 3. -/
def filling : State := withShare (fun sh => { sh with bays := sh.bays.map fun o => o.map fun b =>
  { b with slots := b.slots.map fun x => if x.gen = 3 then { x with st := .filling } else x } }) withBay

/-- A stream with a push that failed. -/
def failedPush : State := modStrm here 0 (fun o => o.map fun m => { m with failAt := some (Cause.access, 64) }) boundOut

theorem witness_SbindOfTiles :
    (Clear (.sbind 0 2) here (tileRecord 3 withBay) ∧
      ∃ r s', Loaded here 8 own (forceAtoms here (atIssue (.sbind 0 2) here (tileRecord 3 withBay))) r s' ∧
        strmBad 1 r s' = none ∧ (freshStrm r true).hvalid = true ∧ (freshStrm r true).writes = false ∧
        handleLive 1 (freshStrm r true).handle (settleBind here s') = true ∧
        handleSlot 1 (freshStrm r true).handle (settleBind here s') = some (.sealed, false)) ∧
    (Clear (.sbind 0 2) here (tileRecord 2 withBay) ∧
      ∃ r s', Loaded here 8 own (forceAtoms here (atIssue (.sbind 0 2) here (tileRecord 2 withBay))) r s' ∧
        strmBad 1 r s' = none ∧ handleSlot 1 (freshStrm r true).handle s' = some (.sealed, true)) ∧
    (Clear (.sbind 0 2) here (tileRecord 3 filling) ∧
      ∃ r s', Loaded here 8 own (forceAtoms here (atIssue (.sbind 0 2) here (tileRecord 3 filling))) r s' ∧
        strmBad 1 r s' = none ∧ handleSlot 1 (freshStrm r true).handle (settleBind here s') = some (.filling, false)) ∧
    (Clear (.sclose 0) here failedPush ∧
      ((strmAt here 0 (settleOwn here (pushMany here 0 64 (atIssue (.sclose 0) here failedPush)))).map
        fun m => (m.push, m.counting, m.failAt)) = some ([], false, some (Cause.access, 64))) :=
  ⟨⟨clear_of rfl rfl rfl rfl rfl, ⟨_, _, fun _ => rfl, by decide +kernel⟩⟩,
    ⟨clear_of rfl rfl rfl rfl rfl, ⟨_, _, fun _ => rfl, by decide +kernel⟩⟩,
    ⟨clear_of rfl rfl rfl rfl rfl, ⟨_, _, fun _ => rfl, by decide +kernel⟩⟩,
    ⟨clear_of rfl rfl rfl rfl rfl, by decide +kernel⟩⟩

theorem witness_StreamWordsBindCloseAndReport :
    (Clear (.sbind 0 2) here record ∧ strmAt here 0 (atIssue (.sbind 0 2) here record) = none ∧
      (canonical own = true ∧ own.toNat % 64 = 0) ∧
      (∃ r s', Loaded here 8 own (forceAtoms here (atIssue (.sbind 0 2) here record)) r s' ∧ strmBad 1 r s' = none ∧
        (freshStrm r true).hvalid = false) ∧
      (∃ r s', Loaded here 8 own (forceAtoms here (atIssue (.sbind 0 2) here badRecord)) r s' ∧ strmBad 1 r s' = some 8)) ∧
    (Clear (.sbind 0 2) here bound ∧ (strmAt here 0 (atIssue (.sbind 0 2) here bound)).isSome = true) ∧
    (Clear (.sclose 0) here base ∧ strmAt here 0 (atIssue (.sclose 0) here base) = none) ∧
    (Clear (.sclose 0) here bound ∧ (strmAt here 0 (atIssue (.sclose 0) here bound)).isSome = true) ∧
    (Clear (.sstat 5 0) here bound ∧ (strmAt here 0 (atIssue (.sstat 5 0) here bound)).isSome = true) :=
  ⟨⟨clear_of rfl rfl rfl rfl rfl, by decide +kernel, by decide +kernel, ⟨_, _, fun _ => rfl, by decide +kernel, by decide +kernel⟩,
      ⟨_, _, fun _ => rfl, by decide +kernel⟩⟩,
    ⟨clear_of rfl rfl rfl rfl rfl, by decide +kernel⟩, ⟨clear_of rfl rfl rfl rfl rfl, by decide +kernel⟩,
    ⟨clear_of rfl rfl rfl rfl rfl, by decide +kernel⟩, ⟨clear_of rfl rfl rfl rfl rfl, by decide +kernel⟩⟩

/-- A layout record of a copy of sixteen bytes on timeline 0, and x7 at it. -/
def layout : State := spad [(16, 1), (32, 16)] (withX 7 own base)

theorem witness_TcopyRegistersAndQueues :
    Clear (.tcopy 6 7) here layout ∧ ownRaw here own (atIssue (.tcopy 6 7) here layout) = true ∧
    (∃ r s', Loaded here 32 own (forceAtoms here (atIssue (.tcopy 6 7) here layout)) r s' ∧ copyBad here r s' = none ∧
      ((pushAll here s').thread here).pushing = false ∧
      (let s₂ := releaseStores here .die true (pushAll here s')
       tlRef here (cpTl r) s₂ = some (1, 0, 0) ∧ copyRoom (copyUnitOf here) s₂ = true ∧ s₂.shareLive 1 0 = true)) ∧
    (∃ r s', Loaded here 32 own (forceAtoms here (atIssue (.tcopy 6 7) here (withX 7 own base))) r s' ∧
      copyBad here r s' = some 0x10) :=
  ⟨clear_of rfl rfl rfl rfl rfl, by decide +kernel,
    ⟨_, _, fun _ => rfl, by decide +kernel, by decide +kernel, by decide +kernel⟩, ⟨_, _, fun _ => rfl, by decide +kernel⟩⟩

/-- The base with its timeline at V = 2, and operation 3 failed. -/
def failedTl : State := withShare (fun sh => { sh with tls := sh.tls.map fun t => { t with v := 2, i := 5, f := 3, fcause := 13 } }) base

theorem witness_TimelinesWaitReadArmAndAdvance :
    (Clear (.tlwait .die 0 3) here base ∧ tlRef here 0 base = some (1, 0, 0) ∧ base.shareLive 1 0 = true ∧
      (base.tl? 1 0 0).map (·.v) = some 0) ∧
    (Clear (.tlread .c 9 2) here (withX 2 1 base) ∧ tlRef here 1 (withX 2 1 base) = none) ∧
    ((failedTl.tl? 1 0 0).map (fun t => (t.f, t.v)) = some (3, 2)) ∧
    (withShare (fun sh => { sh with stopped := true }) base).shareLive 1 0 = false ∧
    (Clear (.tlarm 0 29) here base ∧ badHeader 0 = false ∧ hKind 0 = 0 ∧ hCount 0 = 0 ∧
      sendFault here 0 (atIssue (.tlarm 0 29) here base) = none ∧ (base.tl? 1 0 0).map (·.trigs.length) = some 0) ∧
    badHeader (2 ^ 41) = true ∧ sendFault here (15 * 4) base = some Cause.privilege ∧
    (let t : Timeline := { phys := 0, v := 2, i := 9, f := 0, fcause := 0, fails := [], early := [4, 5], trigs := [] }
     t.early.Nodup ∧ (∀ e ∈ t.early, t.v < e) ∧ t.v < 3 ∧ 3 ∉ t.early) :=
  ⟨⟨clear_of rfl rfl rfl rfl rfl, by decide +kernel⟩, ⟨clear_of rfl rfl rfl rfl rfl, by decide +kernel⟩, by decide +kernel,
    by decide +kernel, ⟨clear_of rfl rfl rfl rfl rfl, by decide +kernel⟩, by decide +kernel, by decide +kernel,
    by decide +kernel⟩

/-! ### Witnesses: galleries -/

theorem witness_GalleryWordsSendTheirRequest :
    (Clear (.galloc 5 0 3) here (withX 3 255 withBay) ∧ bayRef here 0 withBay = .ok 1 0 0 0 0) ∧
    (Clear (.gtry 5 2 3) here (withX 2 1 withBay) ∧ bayRef here 1 withBay = .bad) ∧
    (Clear (.gtake 8 5) here withBay ∧ handleRef 1 (handleOf placedShare 0 1 3) withBay = .ok 1 0 0 1 3) ∧
    (Clear (.gseal 5) here withBay ∧ handleRef 1 (handleOf placedShare 0 2 3) withBay = .bad) ∧
    (Clear (.gdrop 5 7) here (withX 7 256 withBay)) ∧ (Clear (.gstatBay 9 0) here withBay) ∧
    (Clear (.gbay 5 6 7) here (supervisor)) ∧
    (allocAt false here 0 255 withBay).1 = .done (handleOf placedShare 0 0 1) :=
  ⟨⟨clear_of rfl rfl rfl rfl rfl, by decide +kernel⟩, ⟨clear_of rfl rfl rfl rfl rfl, by decide +kernel⟩,
    ⟨clear_of rfl rfl rfl rfl rfl, by decide +kernel⟩, ⟨clear_of rfl rfl rfl rfl rfl, by decide +kernel⟩,
    clear_of rfl rfl rfl rfl rfl, clear_of rfl rfl rfl rfl rfl, clear_of rfl rfl rfl rfl rfl, by decide +kernel⟩

/-- A state in which the context waits in the word i. -/
def waiting (i : Instr) (w : Wait) (s : State) : State :=
  { s with turn := .resume here }.modThread here fun t => { t with run := .wait i w }

theorem witness_GalleryAnswersEndTheWord :
    Looks (.gtake 8 5) (.answered true 7 0) here (waiting (.gtake 8 5) (.answered true 7 0) base) ∧
    Looks (.galloc 8 5 6) (.allocating 1) here (waiting (.galloc 8 5 6) (.allocating 1) base) ∧
    (1 ≠ 0 ∧ 1 < 2 ^ 64) ∧ Looks (.gseal 5) (.answered true 0 0) here (waiting (.gseal 5) (.answered true 0 0) base) ∧
    Looks (.gtake 8 5) (.waiting 3 0) here (waiting (.gtake 8 5) (.waiting 3 0) base) ∧
    Looks (.galloc 8 5 6) (.allocating 0) here (waiting (.galloc 8 5 6) (.allocating 0) base) ∧
    Looks (.gtry 8 5 6) (.answered false 24 1) here (waiting (.gtry 8 5 6) (.answered false 24 1) base) :=
  ⟨⟨rfl, rfl, rfl⟩, ⟨rfl, rfl, rfl⟩, by decide, ⟨rfl, rfl, rfl⟩, ⟨rfl, rfl, rfl⟩, ⟨rfl, rfl, rfl⟩, ⟨rfl, rfl, rfl⟩⟩

theorem witness_GalleryUnitPerformsOperations :
    bayRef here 0 withBay = .ok 1 0 0 0 0 ∧ (withBay.share? 1 0).any withBay.live = true ∧
    (withBay.bayAt 1 0 0).map (fun b => (b.fifo, b.freeSlot? withBay.clk)) = some ([], some 0) ∧
    handleRef (withBay.thread here).gang (handleOf placedShare 0 1 3) withBay = .ok 1 0 0 1 3 ∧
    withBay.shareLive 1 0 = true ∧
    withBay.slotAt 1 0 0 1 = some { st := .sealed, gen := 3, cnt := 5, avail := 0 } ∧
    sealWaiters 1 0 0 1 3 (sealSlot 1 0 0 1 filling) = [] ∧
    (let s := withX 5 (handleOf placedShare 0 1 3) (waiting (.gtake 8 5) (.waiting 1 4) filling)
     sealWaiters 1 0 0 1 3 (sealSlot 1 0 0 1 s) = [(4, here, handleOf placedShare 0 1 3, false)]) := by decide +kernel

/-! ### Witnesses: the bank -/

/-- The base without a bank. -/
def noBank : State := withShare (fun sh => { sh with bank := false }) base

theorem holdsBank_base (i : Instr) (s : State) (h : (atIssue i here s).shareOf? here = some placedShare) :
    HoldsBank here (atIssue i here s) 0 := ⟨rfl, placedShare, h, rfl, rfl⟩

theorem not_holdsBank (s : State) (h : (s.shareOf? here).any (·.bank) = false) : ∀ cl, ¬ HoldsBank here s cl := by
  rintro cl ⟨-, sh, hs, hb, -⟩
  rw [hs] at h
  simp [hb] at h

theorem witness_BankWordsAnsweredAtIssue :
    (Clear (.wwait 0) here noBank ∧ ∀ cl, ¬ HoldsBank here (atIssue (.wwait 0) here noBank) cl) ∧
    (Clear (.wcfg .wgp 5) here base ∧ HoldsBank here (atIssue (.wcfg .wgp 5) here base) 0 ∧
      (cfgBad .wgp here 0 (getX here 5 base) base).isSome = true) ∧
    (cfgBad .wgp here 0 0x5021 base = none) ∧
    (Clear (.wrcf 9 .wacb) here base ∧ HoldsBank here (atIssue (.wrcf 9 .wacb) here base) 0) ∧
    (Clear (.wwait 5) here (withX 5 1 (modBank 0 (fun b => { b with bseq := 1 }) base))) ∧
    (Clear (.wstat true 9 3) here (modBank 0 (fun b => { b with halt := true, bfseq := 1, bseq := 1 }) base)) :=
  ⟨⟨clear_of rfl rfl rfl rfl rfl, not_holdsBank _ (by decide +kernel)⟩,
    ⟨clear_of rfl rfl rfl rfl rfl, holdsBank_base _ _ (by decide +kernel), by decide +kernel⟩, by decide +kernel,
    ⟨clear_of rfl rfl rfl rfl rfl, holdsBank_base _ _ (by decide +kernel)⟩,
    clear_of rfl rfl rfl rfl rfl, clear_of rfl rfl rfl rfl rfl⟩

theorem witness_BankWordsEnterTheQueue :
    (Clear (.wzeroZ 3) here base ∧ HoldsBank here (atIssue (.wzeroZ 3) here base) 0 ∧
      (base.bankOf 0).queue.length < 64 ∧ bankTl here 0 base = none) ∧
    (Clear (.wldp .a false 1 7 8) here (withX 7 8 base)) ∧ (Clear (.wzero 1 2) here (withX 2 65536 base)) ∧
    bankTl here 0 (modBank 0 (fun b => { b with cfg := b.cfg.set! 7 (2 ^ 32) }) base) = some (1, 0, 0) :=
  ⟨⟨clear_of rfl rfl rfl rfl rfl, holdsBank_base _ _ (by decide +kernel), by decide +kernel⟩,
    clear_of rfl rfl rfl rfl rfl, clear_of rfl rfl rfl rfl rfl, by decide +kernel⟩

/-- An operation of the base's bank. -/
def operation (i : Instr) : BankOp :=
  { seq := 1, op := i, xa := 0, xb := 1, cfg := (base.bankOf 0).cfg.toList, reg := none, place := here, user := true }

theorem witness_BankOperationsDoTheirWork (i : Instr) :
    StartsNext 0 (operation i) [] (modBank 0 (fun b => { b with queue := [operation i] }) base) :=
  ⟨rfl, rfl, rfl, ⟨placedShare, show base.bankShare? 0 = some placedShare by decide +kernel, rfl⟩, rfl⟩

theorem witness_BankOperationsComplete :
    let r : BankRun := startedOp (operation (.wzeroZ 3)) 1
    let s₁ := modBank 0 (fun b => { b with tail := [{ op := operation (.wzeroZ 3), due := 1 }] }) base
    let s₂ := modBank 0 (fun b => { b with run := some { r with stage := 2, ends := 1, fail := some (10, 4) } }) base
    let s₃ := { modBank 0 (fun b => { b with queue := [operation (.wzeroZ 3)], wd := some 0 }) base with clk := 1048576 }
    ((s₁.bankOf 0).run.isNone = true ∧ (s₁.bankOf 0).tail.map (·.due) = [1] ∧ 1 ≤ s₁.clk) ∧
    ((s₂.bankOf 0).tail.isEmpty = true ∧ (s₂.bankShare? 0).isSome = true ∧ 1 ≤ s₂.clk) ∧
    (rotOf (.wrot .a 1 0)).isSome = true ∧
    ((s₃.bankOf 0).wd = some 0 ∧ (s₃.bankOf 0).ops.length = 1 ∧ (s₃.bankOf 0).halt = false ∧
      (s₃.bankShare? 0).isSome = true) := by decide +kernel

/-- 12 R274, R279: with w = 1 on both sides, S = 8 and K = 2, the product of (1, 1) and (1, 1) has coefficients 1, 2, 1. -/
theorem witness_StrictExtractionIsExact :
    let p := planOf 0x12000
    let z : ZVal := { bits := 0, nseg := 0, tag := [], exp := [] }
    wgpBad 0x12000 = none ∧ p.lean = false ∧ p.k = 2 ∧ p.g = 4096 ∧ (0 : Nat) < p.g ∧ z.bits.toNat < 2 ^ (0 * p.ks) ∧
    (p.signed .a = false ∧ (1 : Int) ≤ 2 ^ p.width .a - 1) ∧
    (List.range 3).map (extract p (p.sg == 1) ((z.putSeg p 0 [1, 1] 0).seg p p.sa 0 * (z.putSeg p 0 [1, 1] 0).seg p p.sb 0)) =
      [1, 2, 1] := by decide +kernel

/-! ### Witnesses: messages, deques, barriers -/

/-- A state with the core of the test's context changed. -/
def withCore (f : Core → Core) (s : State) : State := s.modCore (.scalar 0 0) f

theorem witness_SendersQueueTheirParcel :
    (Clear (.msend 2 3) here base ∧ badHeader (getX here 2 (atIssue (.msend 2 3) here base)) = false ∧
      sendFault here 0 (atIssue (.msend 2 3) here base) = none ∧
      ((pushAll here (atIssue (.msend 2 3) here base)).thread here).pushing = false) ∧
    (badHeader (2 ^ 41) = true ∧ sendFault here (15 * 4) base = some Cause.privilege) ∧
    (Clear (.rput 2 3) here base ∧ getX here 2 (atIssue (.rput 2 3) here base) = 0 ∧
      (selDest here 0 (atIssue (.rput 2 3) here base)) = some here ∧ (selShare here 0 base).isSome = true) ∧
    (base.nranks (base.thread here).gang = 1 ∧ selDest here (1 <<< 7) base = none) ∧
    ((3 : Fin 64).val + hCount (getX here 2 (atIssue (.msend 2 3) here base)) ≤ here.engine.nregs ∧
      ((releaseStores here .pkg true (pushAll here (atIssue (.msend 2 3) here base))).outq (outqOf here)).length < 8) ∧
    (selBad here 0 (atIssue (.rput 2 3) here base) = false ∧
      ((pushAll here (atIssue (.rput 2 3) here base)).thread here).pushing = false ∧
      ((releaseStores here (rputScope here here) true (pushAll here (atIssue (.rput 2 3) here base))).outq
        (outqOf here)).length < 8) :=
  ⟨⟨clear_of rfl rfl rfl rfl rfl, by decide +kernel⟩, by decide +kernel, ⟨clear_of rfl rfl rfl rfl rfl, by decide +kernel⟩,
    by decide +kernel, by decide +kernel, by decide +kernel⟩

theorem witness_RequestHandlerAndReceiveWords :
    (Clear (.mreq 2 3) here (withX 3 0x10000 base) ∧ base.shareOf? here = some placedShare ∧
      placedShare.holdsCore 0 = true ∧ (base.outq (outqOf here)).length < 8) ∧
    (placedShare.holdsCore 1 = false ∧ canonical 0x78 = true ∧ (0x78 : Nat) % 128 + 8 * 1 = 128) ∧
    Clear .mret here base ∧ Clear .wfm here base ∧
    (Clear (.hset 2 3) here (withX 2 0x7E supervisor) ∧ here.core? = some (.scalar 0 0) ∧ (supervisor.thread here).mode = true) ∧
    (Clear (.hset 2 3) here (withX 2 0x7E base) ∧ (encode (.hset 2 3)).isSome = true ∧ (base.thread here).mode = false) ∧
    Clear (.hmask 5 2 3) here (withX 2 0x3FFF base) ∧ Clear (.hmask 5 2 3) here (withX 2 0x4000 base) ∧
    (Clear (.qget 5 31) here base ∧ ((atIssue (.qget 5 31) here base).thread here).qpres.getLsbD 31 = false) ∧
    (let s := base.modThread here fun t => { t with qpres := 1 }
     Clear (.qpeek 5 0) here s ∧ ((atIssue (.qpeek 5 0) here s).thread here).qpres.getLsbD 0 = true) :=
  ⟨⟨clear_of rfl rfl rfl rfl rfl, by decide +kernel⟩, by decide +kernel, clear_of rfl rfl rfl rfl rfl,
    clear_of rfl rfl rfl rfl rfl, ⟨clear_of rfl rfl rfl rfl rfl, by decide +kernel⟩,
    ⟨clear_of rfl rfl rfl rfl rfl, by decide +kernel⟩, clear_of rfl rfl rfl rfl rfl, clear_of rfl rfl rfl rfl rfl,
    ⟨clear_of rfl rfl rfl rfl rfl, by decide +kernel⟩, ⟨clear_of rfl rfl rfl rfl rfl, by decide +kernel⟩⟩

/-- The base with a deque of two entries, of which the core holds one. -/
def deque : State := withCore (fun k => { k with dqLim := 32, top := 0, bot := 1 }) (spad [(0, 4), (8, 9)] base)

theorem witness_DequeWordsMoveEntries :
    (Clear (.dqpop 4) here base ∧ ∀ sh c, ¬ OwnDeque here (atIssue (.dqpop 4) here base) sh c) ∧
    (Clear (.dqpush .die 4 2 3) here deque ∧ OwnDeque here (atIssue (.dqpush .die 4 2 3) here deque) placedShare 0 ∧
      ((pushAll here (atIssue (.dqpush .die 4 2 3) here deque)).thread here).pushing = false) ∧
    (Clear (.dqpop 4) here deque ∧ OwnDeque here (atIssue (.dqpop 4) here deque) placedShare 0 ∧
      (readEntry placedShare (deque.core (.scalar 0 0)) 0 (atIssue (.dqpop 4) here deque)).1 = (4, 9)) ∧
    (Clear (.dqsteal 4 2) here deque ∧ stealBad here 0 (atIssue (.dqsteal 4 2) here deque) = false ∧
      selShare here 0 (atIssue (.dqsteal 4 2) here deque) = some placedShare ∧
      (atIssue (.dqsteal 4 2) here deque).live placedShare = true) ∧
    stealBad here 1 deque = true ∧
    Looks (.dqsteal 4 2) (.answered true 1 0) here (waiting (.dqsteal 4 2) (.answered true 1 0) base) ∧
    Looks (.dqsteal 4 2) (.answered false 1 0) here (waiting (.dqsteal 4 2) (.answered false 1 0) base) := by
  refine ⟨⟨clear_of rfl rfl rfl rfl rfl, ?_⟩, ⟨clear_of rfl rfl rfl rfl rfl, ⟨0, rfl, by decide +kernel, by decide +kernel⟩, by decide +kernel⟩,
    ⟨clear_of rfl rfl rfl rfl rfl, ⟨0, rfl, by decide +kernel, by decide +kernel⟩, by decide +kernel⟩,
    ⟨clear_of rfl rfl rfl rfl rfl, by decide +kernel⟩, by decide +kernel, ⟨rfl, rfl, rfl⟩, ⟨rfl, rfl, rfl⟩⟩
  rintro sh c ⟨k, hp, hs, hc⟩
  have h : (atIssue (.dqpop 4) here base).shareOf? here = some placedShare := by decide +kernel
  rw [h] at hs
  cases hs
  cases hp
  exact hc (by decide +kernel)

theorem witness_BarriersArriveWaitAndComplete :
    (Clear (.bar .cl 5 2) here (withX 2 1 base) ∧ (barSel here 1 base).isOk = false) ∧
    (Clear (.bara .cl 5 2) here base ∧ (barSel here 0 (atIssue (.bara .cl 5 2) here base)).isOk = true ∧
      (barOf placedShare 0).arrival (barQuota 0) = .this) ∧
    (Clear (.barw .cl 2 3) here base ∧ (barOf placedShare 0).c = 0) ∧
    (let x : BarShare := { c := 3, quota0 := 2, got0 := 2, quota1 := 4, got1 := 4, last0 := 0, last1 := 0, lastA := 0, lastB := 0 }
     x.arrival 4 = .later ∧ x.got0 ≤ x.quota0 ∧ x.got1 ≤ x.quota1 ∧ { x with got1 := 3 }.arrival 4 = .next ∧
      { x with got1 := 3 }.arrival 5 = .quota) ∧
    (Looks (.bar .cl 5 2) (.waiting 1 0) here (waiting (.bar .cl 5 2) (.waiting 1 0) base)) ∧
    (let full : BarShare := { c := 0, quota0 := 1, got0 := 1, quota1 := 0, got1 := 0, last0 := 0, last1 := 0, lastA := 0, lastB := 0 }
     (base.sharesOf 1).filter (fun sh => barMember sh 0 base && sh.cl / 48 == 0) = [placedShare] ∧
      (barOf placedShare 0).c = 0 ∧ base.sharesOf 1 = [placedShare] ∧
      phaseFull 1 0 0 base = false ∧ phaseFull 1 0 0 (withShare (fun sh => { sh with bars := [full] }) base) = true) ∧
    (barMember placedShare 0 base = true ∧ placedShare.cl / 48 ≠ 3) ∧
    phaseFull placedShare.gang 0 ((barOf placedShare 0).c + 0)
      (base.modShare placedShare.gang placedShare.rank fun sh => { sh with bars := sh.bars.modify 0 fun x =>
        { x with quota0 := 2, got0 := x.got0 + 1, last0 := base.clk } }) = false :=
  ⟨⟨clear_of rfl rfl rfl rfl rfl, by decide +kernel⟩, ⟨clear_of rfl rfl rfl rfl rfl, by decide +kernel⟩,
    ⟨clear_of rfl rfl rfl rfl rfl, by decide +kernel⟩, by decide +kernel, ⟨rfl, rfl, rfl⟩, by decide +kernel, by decide +kernel, by decide +kernel⟩

/-! ### Witnesses: waves, the gatherer, system words -/

theorem witness_WaveWordsOfOneLane :
    Clear (.vshfl .xor true false 3 1 2 4) here base ∧ here.engine = .scalar ∧
    (Clear (.vshfl .idx false true 0 1 2 4) here base ∧ FReady (.vshfl .idx false true 0 1 2 4) here base [2] [1]) ∧
    Clear (.vred .add 1 2) here base ∧ Clear (.vscan .minu true 1 2) here base ∧ RedOp.float .minu = false ∧
    (Clear (.vred .fadd 1 2) here base ∧ FReady (.vred .fadd 1 2) here base [2] [1] ∧ RedOp.float .fadd = true) ∧
    Clear (.vball 1 2) here base ∧ Clear (.velect 1 2) here base ∧
    (Clear (.vquant 1 2 3 4) here base ∧ FReady (.vquant 1 2 3 4) here base (quantRegs here 2 2) []) ∧
    (Clear (.vdeq 1 2 3) here base ∧ FReady (.vdeq 1 2 3) here base [] [1]) ∧ Clear (.venc 1 2 63) here base :=
  ⟨clear_of rfl rfl rfl rfl rfl, rfl, ⟨clear_of rfl rfl rfl rfl rfl, fready_of rfl rfl⟩, clear_of rfl rfl rfl rfl rfl,
    clear_of rfl rfl rfl rfl rfl, rfl, ⟨clear_of rfl rfl rfl rfl rfl, fready_of rfl rfl, rfl⟩, clear_of rfl rfl rfl rfl rfl,
    clear_of rfl rfl rfl rfl rfl, ⟨clear_of rfl rfl rfl rfl rfl, fready_of rfl rfl⟩,
    ⟨clear_of rfl rfl rfl rfl rfl, fready_of rfl rfl⟩, clear_of rfl rfl rfl rfl rfl⟩

/-- The base whose share holds slot 0 of wave engine 0. -/
def withWaves : State :=
  withShare (fun sh => { sh with slots := [(0, 0)] })
    (base.modGang 1 fun g => { g with desc := { g.desc with waves := 1 } })

/-- The same with a wave of two lanes there, at its turn. -/
def inWave : State :=
  let w : Wave := { gang := 1, rank := 0, num := 0, chksb := false, lay := [], lastClk := 0, nextPc := 0, fetch := [],
                    yieldUntil := 0, yieldFor := [], lastPc := none }
  let l : Thread := { Thread.blank with gang := 1, pc := 0x20000, run := .running }
  (({ withWaves with waves := FMap.put [] (waveKey 0 0 0) w, turn := .issue (.wave 0 0 0) false }.setThread
    (.lane 0 0 0 0) l).setThread (.lane 0 0 0 63) l)

theorem witness_WaveTurnRunsEveryLane :
    encode (.add 1 2 3) = some 0x00443001 ∧ (0x00443001 : Nat) / 2 ^ 27 ≠ 25 ∧ Issues base here ∧
    inWave.turn = .issue (.wave 0 0 0) false ∧ inWave.standing (.wave 0 0 0) = [.lane 0 0 0 0, .lane 0 0 0 63] :=
  ⟨by decide +kernel, by decide, ⟨by decide, ⟨false, rfl⟩, rfl⟩, rfl, by decide +kernel⟩

/-- 07 R162: ADDI x1, x0, 5 at the wave's turn writes x1 of both its lanes. -/
theorem test_wave_runs_both_lanes :
    ((after (.addi 1 0 5) inWave).thread (.lane 0 0 0 0)).landAll.getX 1 = 5 ∧
    ((after (.addi 1 0 5) inWave).thread (.lane 0 0 0 63)).landAll.getX 1 = 5 ∧
    ((after (.addi 1 0 5) inWave).thread (.lane 0 0 0 63)).pc = 0x20004 := by decide +kernel

theorem witness_GuardPaceAndPacedResults :
    ((Place.lane 0 0 0 0).engine = .lane ∧ (inWave.thread (.lane 0 0 0 0)).pend = []) ∧
    Clear (.guard 0 true 63) here base ∧ Clear (.pace 0 1 2 3 0 1 2 3) here base :=
  ⟨⟨rfl, by decide +kernel⟩, clear_of rfl rfl rfl rfl rfl, clear_of rfl rfl rfl rfl rfl⟩

theorem witness_MailboxWordsPostAndWait :
    (Clear (.mbpost 3 2 30) here withWaves ∧ (gangDesc 1 (atIssue (.mbpost 3 2 30) here withWaves)).1 = 1 ∧
      ((pushAll here (atIssue (.mbpost 3 2 30) here withWaves)).thread here).pushing = false ∧ withWaves.split = false) ∧
    (gangDesc 1 base).1 = 0 ∧ canonical 2 = true ∧
    Looks (.mbpost 3 2 30) (.posting 1) here (waiting (.mbpost 3 2 30) (.posting 1) base) ∧
    (Clear (.mbwait 5 3) here base ∧ ((atIssue (.mbwait 5 3) here base).thread here).qout.getLsbD 3 = false) ∧
    (let s := base.modThread here fun t => { t with qout := 8 }
     Clear (.mbwait 5 3) here s ∧ ((atIssue (.mbwait 5 3) here s).thread here).qout.getLsbD 3 = true) ∧
    Clear (.gflush 0) here base ∧ Clear .mgpt here base :=
  ⟨⟨clear_of rfl rfl rfl rfl rfl, by decide +kernel⟩, by decide +kernel, by decide +kernel, ⟨rfl, rfl, rfl⟩,
    ⟨clear_of rfl rfl rfl rfl rfl, by decide +kernel⟩, ⟨clear_of rfl rfl rfl rfl rfl, by decide +kernel⟩,
    clear_of rfl rfl rfl rfl rfl, clear_of rfl rfl rfl rfl rfl⟩

/-- A cached line of the context's cluster whose first word is MGPT. -/
def mgptLine : Line := { gang := 1, tag := 0x20000 / 128, data := 0xE8000005 }

/-- The base with that line cached and x2 at it. -/
def migrating : State :=
  (withX 2 0x20000 withWaves).modCluster 0 fun c => { c with ic := [mgptLine] }

theorem witness_MigrLeavesForTheGatherer :
    Clear (.migr 2) here migrating ∧ here.engine = .scalar ∧ canonical 0x20000 = true ∧
    (let s₁ := (atIssue (.migr 2) here migrating).modThread here fun t => { t with grem := 0, gcnd := false }
     (s₁.thread here).mode = false ∧ (∃ l s₂, fetchLine here 0x20000 s₁ = (.line l, s₂) ∧ lineWord l 0x20000 = 0xE8000005) ∧
      (let t := ((forceLoads here s₁).modThread here (·.landAll)).thread here
       t.strm.any (·.isSome) = false ∧ t.qpres = 0 ∧ t.qout = 0 ∧ t.mgrec = 0) ∧ s₁.split = false) :=
  ⟨clear_of rfl rfl rfl rfl rfl, rfl, by decide +kernel, by decide +kernel, ⟨_, _, rfl, by decide +kernel⟩, by decide +kernel,
    by decide +kernel⟩

theorem witness_SystemWordsReadAndWriteRegisters :
    (Clear (.sysr 5 .rank) here base ∧ sysVal here .rank (atIssue (.sysr 5 .rank) here base) = some 0) ∧
    (Clear (.sysr 5 .chksb) here base ∧ sysVal here .chksb (atIssue (.sysr 5 .chksb) here base) = none) ∧
    Clear (.sysw .fmode 2) here base ∧ here.engine ≠ .lane ∧ here.core? = some (.scalar 0 0) ∧
    base.shareOf? here = some placedShare ∧ Clear .yield here base ∧
    (Clear (.pginv 2) here supervisor ∧ ((pushAll here (atIssue (.pginv 2) here supervisor)).thread here).pushing = false) :=
  ⟨⟨clear_of rfl rfl rfl rfl rfl, by decide +kernel⟩, ⟨clear_of rfl rfl rfl rfl rfl, by decide +kernel⟩,
    clear_of rfl rfl rfl rfl rfl, by decide, rfl, by decide +kernel,
    clear_of rfl rfl rfl rfl rfl, clear_of rfl rfl rfl rfl rfl, by decide +kernel⟩

theorem witness_ExitDrainsAndRetires :
    Clear (.exit 2) here base ∧ here.engine = .scalar ∧
    (let s₂ := closeStreams here ((forceLoads here (atIssue (.exit 2) here base)).modThread here fun t =>
      { t.landAll with ending := some 0 })
     (s₂.thread here).pushing = false ∧ (s₂.thread here).streaming = false ∧
      (s₂.thread here).qout &&& ~~~(s₂.thread here).qgot = 0 ∧ (s₂.thread here).reply = none) ∧
    (let s := base.modThread here fun t => { t with reply := some { core := 0, ctx := 0, idx := 4 } }
     Clear (.exit 2) here s ∧ here.cluster? = some 0 ∧
      ((closeStreams here ((forceLoads here (atIssue (.exit 2) here s)).modThread here fun t =>
        { t.landAll with ending := some 0 })).thread here).reply = some { core := 0, ctx := 0, idx := 4 }) ∧
    Clear (.exit 2) (.lctx 0 0 0) landing :=
  ⟨clear_of rfl rfl rfl rfl rfl, rfl, by decide +kernel, ⟨clear_of rfl rfl rfl rfl rfl, by decide +kernel⟩,
    ⟨⟨by decide, ⟨false, rfl⟩, rfl⟩, by decide +kernel, by decide +kernel⟩⟩

/-! ### Witnesses: the host link, messages -/

/-- A message to any context of core 0 of cluster 0 on a channel. -/
def toCore (chan : Nat) : Msg := { hdr := mkHeader 0 chan 0 0 0 (.scalar 0 0) 4, pay := [] }

theorem witness_HostWindowTakesMessages :
    let h : Word := mkHeader 0 1 0 0 0 (.scalar 0 0) 4
    let ready : State := { base with pkg := { base.pkg with featLock := true } }
    let full : State := { ready with pkg := { ready.pkg with window := [mkMsg h hostSrc []] } }
    (ready.pkg.window.length < 256 ∧ ready.pkg.featLock = true ∧ badHeader h = false ∧ base.pkg.featLock = false ∧
      hostMaySend (mkMsg h hostSrc []).hdr ready = true ∧ hostMaySend (mkMsg 0x1800000 hostSrc []).hdr ready = false) ∧
    (full.pkg.windowNext ≤ full.clk ∧ hDest (mkMsg h hostSrc []).hdr = some (.scalar 0 0) ∧
      discarded (.scalar 0 0) (mkMsg h hostSrc []).hdr full = false ∧ pathOpen (.scalar 0 0) 1 full = true) ∧
    (hostMaySend (mkMsg 0x1000000 hostSrc []).hdr ready = true ∧ hDest (mkMsg 0x1000000 hostSrc []).hdr = none ∧
      ready.disp.inbox.length < 16) := by decide +kernel

theorem witness_HostRegistersTakeWrites :
    base.pkg.featLock = false ∧ base.pkg.boot ≠ .recovery ∧
    (let s : State := { base with pkg := { base.pkg with hrqHead := 8190, hrqTail := 1 } }
     (1 : Nat) = (s.pkg.hrqHead + 3) % 8192 ∧ 3 ≤ (s.pkg.hrqTail + 8192 - s.pkg.hrqHead) % 8192 ∧
      (2 : Nat) = (s.pkg.hrqHead + 4) % 8192 ∧ (s.pkg.hrqTail + 8192 - s.pkg.hrqHead) % 8192 < 4) ∧
    base.pkg.linkAsk[3]? = some false := by decide +kernel

theorem witness_ReceiveQueueReadsAndRequests :
    (let s : State := { base with pkg := { base.pkg with hrq := [(8191, { hdr := 5, pay := [7] })] } }
     FMap.get? s.pkg.hrq 8191 = some ({ hdr := 5, pay := [7] })) ∧
    (let m : MReq := { n := 0, place := here, gang := 1, rank := 0, addr := own, ctl := 0x10000, user := true }
     let x : Parcel := { gang := 1, src := some here, rank := none, cargo := .mreq m }
     (withCore (fun k => { k with outq := [x] }) base).outq (.core (.scalar 0 0)) = [x]) := by decide +kernel

/-- A parcel of the context. -/
def parcel (c : Cargo) : Parcel := { gang := 1, src := some here, rank := some 0, cargo := c }

theorem witness_ParcelsReachTheirDestination :
    let s := withCore (fun k => { k with outq := [parcel (.msg (toCore 2))] }) base
    let r := withCore (fun k => { k with outq := [parcel (.rput here 31 7)] }) base
    (s.outq (.core (.scalar 0 0)) = [parcel (.msg (toCore 2))] ∧ parcelLost (parcel (.msg (toCore 2))) s = false ∧
      hAgent (toCore 2).hdr = 0 ∧ parcelLend (parcel (.msg (toCore 2))) = false ∧
      parcelCore (parcel (.msg (toCore 2))) (toCore 2).hdr s = some (.scalar 0 0) ∧
      parcelShare (parcel (.msg (toCore 2))) s = some placedShare ∧ s.live placedShare = true ∧ placedShare.spill = [] ∧
      discarded (.scalar 0 0) (toCore 2).hdr s = false ∧ pathOpen (.scalar 0 0) 2 s = true) ∧
    (r.outq (.core (.scalar 0 0)) = [parcel (.rput here 31 7)] ∧ parcelLost (parcel (.rput here 31 7)) r = false ∧
      parcelShare (parcel (.rput here 31 7)) r = some placedShare) ∧
    ((s.pkg.hrqTail + 1) % 8192 ≠ s.pkg.hrqHead ∧ s.disp.inbox.length < 16) ∧
    (let t := deque.modCluster 0 fun c => { c with steals := [{ thief := here, cl := 0, core := 0, clk := 0 }] }
     nextSteal 0 t = some { thief := here, cl := 0, core := 0, clk := 0 } ∧
      t.shareOn? (t.thread here).gang 0 0 = some placedShare ∧ t.live placedShare = true ∧
      (stealEntry placedShare 0 (t.modCluster 0 fun c => { c with steals := [] })).1 = some (4, 9)) ∧
    behind (parcel (.msg (toCore 2))) s = false ∧ behind (parcel (.rput here 31 7)) r = false := by decide +kernel

/-- The base whose context is idle, its core's entry 2 enabled, with a message. -/
def idleCore (m : Msg) : State :=
  withCore (fun k => { k with tab := k.tab.set 2 { pc := 0x40000, prio := 1, en := true }, inbox := [m] })
    (base.modThread here fun t => { t with run := .idle })

/-- No message is spilled where the core's share holds none. -/
theorem nothingSpilled_of (s : State) (h : s.shareOfCore? 0 0 = some placedShare)
    (g : s.share? 1 0 = some placedShare) : NothingSpilled 0 0 s := by
  intro sh y hs hy
  rw [h] at hs
  cases hs
  rw [show s.share? placedShare.gang placedShare.rank = s.share? 1 0 from rfl, g] at hy
  cases hy
  rfl

/-- A lend of a landing-core context. -/
def lendMsg : Parcel := parcel (.msg { hdr := mkHeader 1 15 3 0 0 (.landing 7 5) 4, pay := [0x100, 1, 2] })

theorem witness_MessagesStartContexts :
    (selects (.scalar 0 0) 0 (idleCore (toCore 2)) = true ∧
      oldest 0 15 ((idleCore (toCore 2)).core (.scalar 0 0)).inbox = none ∧
      selectChan (.scalar 0 0) 0 (idleCore (toCore 2)) = some 2 ∧ hwOp (toCore 2) = false ∧
      NothingSpilled 0 0 (idleCore (toCore 2))) ∧
    (selects (.scalar 0 0) 0 (idleCore (toCore 15)) = true ∧
      oldest 0 15 ((idleCore (toCore 15)).core (.scalar 0 0)).inbox = some (toCore 15) ∧
      NothingSpilled 0 0 (idleCore (toCore 15))) ∧
    (let m : MReq := { n := 0, place := here, gang := 1, rank := 0, addr := own, ctl := 0x10000, user := true }
     let s : State := { base with mreqs := [m] }
     s.shareLive 1 0 = true ∧ s.missOf (.mreq 0) = none ∧
      (mreqRead (mreqAgent m s) (rqCount m.ctl) m.addr [] s).1 = .words [0]) ∧
    (let m : Msg := { hdr := mkHeader 1 15 3 0 0 (.landing 7 5) 4, pay := [0x100, 1, 2] }
     nextLend base [] [lendMsg] = some (lendMsg, m, 0, 7, 5, 0)) :=
  ⟨⟨by decide +kernel, by decide +kernel, by decide +kernel, by decide +kernel,
      nothingSpilled_of _ (by decide +kernel) (by decide +kernel)⟩,
    ⟨by decide +kernel, by decide +kernel, nothingSpilled_of _ (by decide +kernel) (by decide +kernel)⟩, by decide +kernel,
    by decide +kernel⟩

/-! ### Witnesses: the gatherer, gangs -/

/-- A post of one entry. -/
def post : Post :=
  { gang := 1, rank := 0, migr := false, pc := 0x20000, queued := false,
    entry := { place := here, n := 0, thread := { Thread.blank with gang := 1, pc := 0x20000, run := .running } } }

/-- A released bucket of one entry. -/
def bucket : Bucket :=
  { st := .released, gang := 1, rank := 0, migr := false, pc := 0x20000, entries := [post.entry], t0 := 0, tmo := 1, order := 8 }

/-- The base with that bucket. -/
def bucketed : State := withWaves.modCluster 0 fun c => { c with buckets := c.buckets.set 7 bucket }

theorem witness_GathererFormsWaves :
    (let s := migrating.modThread here fun t => { t with fetch := [], pc := 0x20000 }
     let r : FReq := { u := .ctx 0 0 0, addr := 0x20000, clk := 0, taken := true }
     { s with freqs := [r] }.freqs.find? (fun r => r.u == Crew.ctx 0 0 0 && r.taken) = some r ∧
      s.fetcher (.ctx 0 0 0) = some here ∧
      (s.icOf here).find? (fun l => l.gang == (s.thread here).gang && l.tag == r.addr.toNat / 128) = some mgptLine ∧
      ∃ l s', fetchLine here 0x20000 s = (.line l, s')) ∧
    (((withWaves.modCluster 0 fun c => { c with posts := [post] }).cluster 0).posts = [post] ∧
      (enterBucket 0 post withWaves).isSome = true) ∧
    (((bucketed.cluster 0).buckets[7]?).map (·.st) = some .released ∧
      (let s₁ := expireBuckets 0 bucketed
       ((s₁.cluster 0).buckets[7]?).map (fun x => (x.st, firstReleased x (s₁.cluster 0).buckets)) = some (.released, true) ∧
       (s₁.share? 1 0).map (fun sh => (s₁.live sh, launchSlot sh s₁)) = some (true, some (0, 0)) ∧
       (bucketed.cluster 0).posts = [])) ∧
    (let s := (inWave.modThread (.lane 0 0 0 0) fun t => { t with run := .wait (.migr 2) (.migrating 0) }).modThread here
       fun t => { t with run := .idle }
     migrants 0 s = [(0, .lane 0 0 0 0, 2)] ∧ (s.shareOf? (.lane 0 0 0 0)).map (fun sh => (s.live sh, idleContext sh s)) =
       some (true, some here) ∧ (s.thread (.lane 0 0 0 0)).mgrec = 0) :=
  ⟨⟨by decide +kernel, by decide +kernel, by decide +kernel, _, _, rfl⟩, by decide +kernel, by decide +kernel, by decide +kernel⟩

/-- The base of the host record region. -/
def records : Nat := base.pkg.eopra.recordBase

/-- An image of one template there: its header and one REGION_LAYOUT section. -/
def image : Memory :=
  Memory.write (Memory.write (Memory.write [] records 8 0x0001000134564C4F) (records + 8) 16 (1 + 224 * 2 ^ 64))
    (records + 64) 24 (3 + 7 * 256 + 96 * 2 ^ 64 + 128 * 2 ^ 128)

/-- A descriptor for one unit of one cluster with one context. -/
def descriptor : List Byte :=
  [0, 0, 0, 0, 0, 1, 1, 1, 1, 0, 0, 0, 0, 0, 0, 0] ++ leBytes 8 records ++ [0, 0, 0, 0, 1, 0, 0, 0] ++ List.replicate 40 0 ++
    leBytes 8 0x10000 ++ List.replicate 48 0

/-- Its launch message in the dispatcher's buffer. -/
def launch (d : List Byte) : Launch :=
  { msg := { hdr := ofN (3 + 4 + 128 + 2 ^ 24), pay := [ofN (records + 0x1000), 5] }, desc := d, clk := 0, key := 0 }

/-- The base with a launch in the buffer. -/
def launching (d : List Byte) : State :=
  { mapped with dram := image, disp := { base.disp with inbox := [launch d] }, pkg := { mapped.pkg with featLock := true } }

/-- A second gang at the head of queue 3 in a pass. -/
def queued (rows : Nat) : Gang :=
  { placedGang with id := 2, phase := .queued, released := [], desc := { placedGang.desc with queue := 3, rows := rows } }

/-- The state for it. -/
def passing (rows : Nat) : State :=
  { base with gangs := FMap.put base.gangs 2 (queued rows)
              disp := { base.disp with pass := some 0, queues := base.disp.queues.set 3 [2],
                                       headSince := base.disp.headSince.set 3 base.clk } }

theorem witness_GangsAreLaunchedAndRetired :
    (takable (launching descriptor) (launch descriptor) = true ∧ (launch descriptor).clk < (launching descriptor).clk ∧
      launchCode (launch descriptor) (launching descriptor) = 0) ∧
    (takable (launching []) (launch []) = true ∧ launchCode (launch []) (launching []) = 4) ∧
    ((passing 1).gang? 2 = some (queued 1) ∧ (passing 1).disp.resv = [] ∧ (passing 1).disp.pass = some 0 ∧
      0 < (passing 1).clk ∧ base.disp.pass = none ∧ qualifies 3 (queued 1) (passing 1) = false ∧
      (tryGang (queued 1) [] (passing 1)).1 = true ∧ (tryGang (queued 7) [] (passing 7)).1 = false) ∧
    ((passing 1).head? 3 = some (queued 1) ∧ (2 : Nat) ∉ (passing 1).disp.aged) ∧
    (let g : Gang := { placedGang with phase := .placed }
     let s := base.modGang 1 fun _ => g
     s.gang? 1 = some g ∧ planMapped 0 (loadPlan 0 0 1 0x20000 s ++ loadPlan 0 0 2 0x40000 s) s = true) ∧
    (let g : Gang := { placedGang with phase := .loaded, released := [] }
     let s := base.modGang 1 fun _ => g
     s.gang? 1 = some g ∧ (s.sharesOf 1).filter (fun sh => sh.cl / 48 == 0) = [placedShare] ∧ placedShare.saved = none) ∧
    (let s := base.modThread here fun t => { t with run := .retired }
     retires placedGang s = true ∧ retires placedGang base = false ∧ FMap.wf s.gangs = true ∧ s.gang? 1 = some placedGang) := by
  decide +kernel

/-! ### Witnesses: paging, memory, engines -/

/-- A failed walk of cluster 0. -/
def miss (st : MissSt) : Miss :=
  { cl := 0, asker := .thread here, va := 0x30000, access := 0, reason := 0, level := 0, user := true, gang := 1, rank := 0,
    st := st }

/-- A hardware operation for core 0 of cluster 0. -/
def hardware (tag : Nat) (a b : Word) : Msg := { hdr := mkHeader 3 14 2 0 tag (.scalar 0 0) 4, pay := [a, b] }

/-- The base with one in the core's buffer. -/
def withHw (m : Msg) (s : State) : State := withCore (fun k => { k with inbox := [m] }) s

/-- The base whose gang has a save area. -/
def saving (ph : Phase) (r : Bool) : State :=
  base.modGang 1 fun g => { g with desc := { g.desc with save := 0x20000 }, phase := ph, restoring := r }

theorem witness_PagersAndPreemption :
    (let s : State := { base with misses := [miss .fresh] }
     s.misses.find? (freshOn 0) = some (miss .fresh) ∧ (outstanding 0 s).length < 256) ∧
    (hwHead (.scalar 0 0) 2 (withHw (hardware 2 3 1) base) = some (hardware 2 3 1) ∧ hwForm (hardware 2 3 1) = true ∧
      NothingSpilled 0 0 (withHw (hardware 2 3 1) base) ∧ recWord (hardware 2 3 2).pay 1 = 2) ∧
    (let s := withHw (hardware 1 1 1) (saving .running false)
     hwHead (.scalar 0 0) 1 s = some (hardware 1 1 1) ∧ NothingSpilled 0 0 s ∧ (s.gang? 1).map (·.phase) = some .running ∧
      (s.sharesOf 1).find? (fun sh => sh.cl == 0 && sh.saved.isNone) = some placedShare ∧ s.lent = []) ∧
    (let s := withShare (fun sh => { sh with stopped := true }) (saving .saving false)
     (s.share? 1 0).map (fun sh => (sh.stopped, sh.saved, saveReady sh s)) = some (true, none, true)) ∧
    (((saving .saved false).gang? 1).map (·.phase) = some .saved ∧
      (((saving .saved false).disp.queues[placedGang.desc.queue]?).getD []).length < 256 ∧
      ((saving .placed true).gang? 1).map (fun x => (x.phase, x.restoring)) = some (.placed, true)) :=
  ⟨by decide +kernel, ⟨by decide +kernel, by decide +kernel, nothingSpilled_of _ (by decide +kernel) (by decide +kernel),
      by decide +kernel⟩,
    ⟨by decide +kernel, nothingSpilled_of _ (by decide +kernel) (by decide +kernel), by decide +kernel, by decide +kernel, rfl⟩,
    by decide +kernel, by decide +kernel⟩

/-- A store of eight bytes to address 0, its home to be reached. -/
def store (st : Stage) (w : Bool) (acks : List Nat) : Store :=
  { n := 0, place := here, gang := 1, cl := 0, die := 0, direct := false, va := 0, tgt := .dram 0 true false false, size := 8,
    data := 5, nl := false, merge := 0, stage := st, written := w, acks := acks,
    la := false, clk := 0, since := 0 }

/-- A load on its way to scratchpad byte 16. -/
def load (v : Option Word) : Access :=
  { n := 0, kind := .load 4 true, va := own + 16, tgt := .spad 0 16 0 1 0, hint := .normal, file := .x, reg := 5, opnd := 0,
    expect := 0, val := v }

theorem witness_Canonical (s : State) (h : s.dram = [] ∧ s.clusters = [] ∧ s.slices = [] ∧ s.sharers = []) : s.Canonical :=
  ⟨by rw [h.1]; rfl, fun cl => by simp [State.cluster, h.2.1, FMap.getD, FMap.get?]; rfl, by rw [h.2.2.1]; rfl,
    by rw [h.2.2.2]; rfl⟩

theorem witness_StoresAndLoadsArePerformed :
    (let s : State := { State.reset with stores := [store .slice false []], sharers := [(0, 3)] }
     s.Canonical ∧ (s.sharersOf 0).filter (fun d => !(!((store .slice false []).direct || false) && d == 0)) = [1]) ∧
    (let s : State := { State.reset with stores := [store .slice false []] }
     s.Canonical ∧ (s.sharersOf 0).filter (fun d => !(!((store .slice false []).direct || false) && d == 0)) = []) ∧
    (let s : State := { State.reset with stores := [store .home false [1]] }
     s.Canonical ∧ (store .home false [1]).written = false) ∧
    ((base.modThread here fun t => { t with loads := [load (some 5)] }).thread here).loads = [load (some 5)] ∧
    (let s := (spad [(16, 1)] base).modThread here fun t => { t with loads := [load none] }
     (s.thread here).loads = [load none] ∧ s.stores = [] ∧
      (threadRead here (own + 16) (.spad 0 16 0 1 0) 4 .normal s).1 = 1) ∧
    (let s := base.modLanding 0 fun d => { d with msc := [(0, true)], rows := [(9, 511)] }
     s.homeLanding 0 = 0 ∧ FMap.get? (s.landing 0).msc 0 = some true ∧ FMap.getD (s.landing 0).rows 9 0 + 1 = 512 ∧
      (s.landing 0).pinned = []) :=
  ⟨⟨⟨by decide, fun _ => by simp [State.cluster, State.reset, FMap.getD, FMap.get?]; rfl, by decide, by decide⟩, by decide +kernel⟩,
    ⟨witness_Canonical _ ⟨rfl, rfl, rfl, rfl⟩, by decide +kernel⟩, ⟨witness_Canonical _ ⟨rfl, rfl, rfl, rfl⟩, by decide +kernel⟩,
    by decide +kernel, by decide +kernel, by decide +kernel⟩

theorem witness_StepKeepsMemoryCanonical :
    let s : State := { State.reset with turn := .tick }
    s.Canonical ∧ ∃ t, step s = .next t :=
  ⟨witness_Canonical _ ⟨rfl, rfl, rfl, rfl⟩, _, rfl⟩

/-- The binding of a stream at the own window, four elements of four bytes. -/
def ownStream (w : Word) : Strm := freshStrm [own, w, 4, 0, 4, 0, 0, 0] true

/-- A copy of sixteen bytes within the own window. -/
def copy (n : Nat) : Copy :=
  { record := [own, own + 0x100, 0, 0] ++ List.replicate 28 0, place := here, gang := 1, rank := 0, user := true,
    reg := { gang := 1, rank := 0, idx := 0, n := 1 }, done := n, started := true, report := false, fin := none,
    failed := false }

theorem witness_EnginesMoveElementsAndTiles :
    (let s := modStrm here 0 (fun _ => some (ownStream 0)) base
     (strmAt here 0 s).map (fun m => (m.writes, m.ahead.length, strmLen m.record)) = some (false, 0, 4) ∧
      s.missOf (.stream here 0) = none ∧
      (engineRead (s.agent here) ((ownStream 0).addr 1 0 s) (fmtSize (ownStream 0).fmt) s).1 = .val 0) ∧
    (let m := { ownStream 1 with push := [(0, 7)] }
     let s := modStrm here 0 (fun _ => some m) base
     strmAt here 0 s = some m ∧ (route (s.agent here) (m.addr 1 m.base s) (fmtSize m.fmt) .write s).1 = .to (.spad 0 0 0 1 0)) ∧
    (let s := base.modCluster 0 fun c => { c with copies := [copy 0] }
     currentCopy (s.copies (.cluster 0)) = some (copy 0) ∧ s.missOf (.copy (.cluster 0)) = none ∧
      dstGone (copy 0) s = false) ∧
    dstGone { copy 0 with record := [0, 0, 0x800] ++ List.replicate 29 0 } base = true ∧
    (let q : GReq := { place := here, port := 0, op := .galloc 5 0 3, a := 0, b := 7, clk := 0 }
     (q.port < 34 ∧ q.clk < withBay.clk) ∧ ((withBay.modCluster 0 fun c => { c with gal := [q] }).cluster 0).gal = [q]) ∧
    (let w : Waiter := { place := here, ref := 0, cnt := 7, pc := 0x20000 }
     let s := waiting (.galloc 5 0 3) (.allocating 0)
       (withShare (fun sh => { sh with bays := sh.bays.set 0 ((sh.bays[0]?.getD none).map fun y => { y with fifo := [w] }) }) withBay)
     waiterHere w s = true ∧ (s.bayAt 1 0 0).map (fun y => (y.fifo, y.freeSlot? s.clk)) = some ([w], some 0) ∧
      (∀ j, j < 8 → j ≠ 0 → s.bayAt 1 0 j = none) ∧
      (FMap.vals s.shares).filter (fun sh => sh.cl == 0 && s.live sh) = (s.share? 1 0).toList) ∧
    (let y : Bay := { phys := 0, base := 0, lsz := 8, cntm1 := 0, slots := [{ st := .filling, gen := 1, cnt := 0, avail := 0 }],
                      fifo := [], wd := some 0 }
     let s : State := { withShare (fun sh => { sh with bays := sh.bays.set 7 (some y) }) base with clk := 65536 }
     s.bayAt 1 0 7 = some y ∧ y.freeSlot? s.clk = none ∧ s.shareLive 1 0 = true) := by decide +kernel

/-! ### Witnesses: heat, errors, addresses -/

theorem witness_HeatPowerAndBoot :
    State.reset.clk < State.reset.disp.winStart + 110000 ∧ FMap.get? base.clusters 0 = none ∧
    (let c := base.pkg.pwrCap.toNat
     9000 < 9001 ∧ ¬ (9000 < 9000 ∨ c < c) ∧ (8549 * 100 < 9000 * 95 ∧ ¬ 8550 * 100 < 9000 * 95) ∧ base.pkg.skip = false) ∧
    ((base.cluster 0).lastSample ≠ micro base.clk ∧ (base.landing 0).lastSample ≠ micro base.clk ∧
      base.pkg.lastSample ≠ micro base.clk) ∧
    ((base.modCluster 0 fun c => { c with lastSample := 1 }).cluster 0).lastSample = micro State.reset.clk ∧
    State.reset.pkg.boot = .unbooted ∧ (mapped.pkg.eopra).wf = true ∧
    mapped.pkg.fuses.version ≤ mapped.pkg.eopra.version := by decide +kernel

theorem witness_ErrorsAndLinks :
    (unitOk 3456 = true ∧ unitOk 0 = true ∧ FMap.get? base.pkg.errPend 3456 = none ∧ mapped.inDram 0 = true) ∧
    (let s : State := { base with pkg := { base.pkg with errPend := [(0, { w0 := 0, w1 := 0 })] } }
     s.pkg.errPend.find? (fun e => unitDie e.1 == 0) = some (0, { w0 := 0, w1 := 0 }) ∧
      (s.pkg.logs[0]?).map (fun l => (decide (l.next ≤ s.clk), l.head.toNat, l.tail)) = some (true, 0, 0)) ∧
    ((base.thread? here).map (·.unended) = some true ∧ base.interrupted here = false ∧
      (base.thread here).run = .running ∧ readsRegister here base = true ∧
      readsRegister here (base.modThread here fun t => { t with fetch := [] }) = false ∧
      ((abandon here (forceLoads here base)).tvecOf here).toNat % 4 = 0) ∧
    (base.pkg.linkFail = [false, false, false, false] ∧ base.pkg.linkTry[0]? = some []) ∧
    (let s : State := { base with pkg := { base.pkg with linkFail := [true, false, false, false],
                                                         linkAsk := [true, false, false, false] } }
     s.pkg.linkFail[0]? = some true ∧ s.pkg.fenced = [] ∧ s.pkg.linkAsk[0]? = some true) ∧
    (inInterleaved 120 8 mapped = true ∧ mapped.homeDie 120 ∉ mapped.pkg.fenced ∧ mapped.stores = [] ∧
      mapped.sharersOf 0 = []) := by decide +kernel

/-- A page table of four levels whose leaf lets a user read one page. -/
def tables : State :=
  { mapped with dram := Memory.write (Memory.write (Memory.write (Memory.write [] 0 8 0x2001) 0x2000 8 0x4001) 0x4000 8 0x6001)
                  (0x6000 + 8 * 3) 8 0x10093 }

theorem witness_AddressesAreRouted :
    canonical 0x0080000000000000 = false ∧
    (base.share? 1 0 = some placedShare ∧ (4088 : Nat) + 8 ≤ placedShare.spadSize ∧ placedShare.spadSize < 4089 + 8 ∧
      (base.agent here).cl = some 0) ∧
    (wbit (ofN (Memory.read base.dram 0 8)) 0 = false) ∧
    ((tables.walk 0 0x30008) = .leaf 0x10093 (0x6000 + 24) 0 ∧ tables.walk 0 0x40000 = .fail 0 3 ∧ inWindow 0x30008 = false ∧
      (tables.gang? (tables.agent here).gang).isSome = true ∧
      tables.tlb.find? (·.hits (tables.agent here).die (sliceOf 0x30008) 1 0x30008) = none ∧
      (tables.agent here).col = none ∧ permits 0x10093 .write (tables.agent here).user = false ∧
      permits 0x10093 .read (tables.agent here).user = true ∧ tables.inDram (wbits 0x10093 51 13 * 8192 + 8) = true) := by
  decide +kernel

/-! ### Witnesses: further clauses -/

/-- An operation of the base's bank with operands. -/
def opWith (i : Instr) (xa xb : Word) (cfg : List Word) : BankOp := { operation i with xa := xa, xb := xb, cfg := cfg }

/-- The configuration of the base's bank: what a launch leaves. -/
def cfg0 : List Word := (base.bankOf 0).cfg.toList

/-- The state in which the base's bank has taken an operation. -/
def taken (o : BankOp) (s : State) : State := takenOp 0 [] (startedOp o s.clk) s

/-- One segment of K = 2 elements of 1 bit, for a plan whose sides are unsigned and exact. -/
def packing : BankOp := opWith (.wldp .a false 1 7 8) own 1 (cfg0.set 0 0x12000)

/-- The rotation of a gang of two clusters: the left column is 0, one further column. -/
def rotating : BankOp := opWith (.wrot .a 1 0) 0 0 (cfg0.set 6 0x1000)

/-- A gang of two shares, on clusters 0 and 1, both with a bank. -/
def twoBanks : State :=
  { base.modGang 1 (fun g => { g with desc := { g.desc with nunits := 2, cols := 2 } }) with
    shares := FMap.put base.shares (shareKey 1 1) { placedShare with rank := 1, unit := 1, cl := 1 } }

theorem witness_BankOperationsDoTheirWork_memory :
    (let p := planOf (recWord packing.cfg 0)
     let s₀ := taken packing base
     let g := bankAgent 0 placedShare packing s₀
     base.bankShare? 0 = some placedShare ∧ wbits packing.xb 15 0 = 1 ∧ p.k = 2 ∧ 1 < p.g ∧
      (∃ x u, packSeg g p .a packing.xb (s₀.decodeOf 1 0) own 0 (setZ 0 1 ZVal.blank (settleBank 0 s₀)) = .done x u ∧
        x.1.length = 2)) ∧
    (let p := planOf (recWord packing.cfg 0)
     let s₀ := taken packing base
     ∃ c a u, packSeg (bankAgent 0 placedShare packing s₀) p .a packing.xb (s₀.decodeOf 1 0) (own + 4096) 0
       (setZ 0 1 ZVal.blank (settleBank 0 s₀)) = .bad c a u) ∧
    (let o := opWith (.wldt .a false 1 7 8) (handleOf placedShare 0 1 3) 1 cfg0
     let s₁ := settleBank 0 (taken o withBay)
     handleLive 1 o.xa s₁ = true ∧ handleSlot 1 o.xa s₁ = some (.sealed, false) ∧
      handleSlot 1 (handleOf placedShare 0 1 2) s₁ = some (.sealed, true) ∧
      handleSlot 1 o.xa (settleBank 0 (taken o filling)) = some (.filling, false)) ∧
    (let o := opWith (.wsta 10 11) own 0x10000 cfg0
     let s₀ := taken o base
     wbits o.xb 32 16 = 1 ∧ ∃ u, bankWrite (bankAgent 0 placedShare o s₀) o own 8 0 false s₀ = .done () u) ∧
    (let o := opWith (.wsta 10 11) (own + 4096) 0x10000 cfg0
     let s₀ := taken o base
     ∃ c a u, bankWrite (bankAgent 0 placedShare o s₀) o (own + 4096) 8 0 false s₀ = .bad c a u) ∧
    ((base.bankOf 0).z[(6 : ZReg)].nseg * (planOf (recWord cfg0 0)).k = 0) := by
  refine ⟨⟨by decide +kernel, by decide +kernel, by decide +kernel, by decide +kernel, _, _, rfl, by decide +kernel⟩,
    ⟨_, _, _, rfl⟩, by decide +kernel, ⟨by decide +kernel, _, rfl⟩, ⟨_, _, _, rfl⟩, by decide +kernel⟩

theorem witness_BankOperationsDoTheirWork_rotation :
    let s := modBank 0 (fun b => { b with queue := [rotating] }) twoBanks
    s.bankShare? 0 = some placedShare ∧ neighbours 0 placedShare (recWord rotating.cfg 6) s = (1, 0) ∧
    gangBank 1 1 s = true ∧ (s.bankOf 1).bufA = none ∧ (1 : Nat) ≠ 0 ∧ (s.bankOf 0).bufA = none ∧
    (gangBank 1 1 s = true ∧ ((modBank 1 (fun b => { b with bufA := some ZVal.blank }) s).bankOf 1).bufA ≠ none) ∧
    (neighbours 0 placedShare 0x10 (modBank 0 (fun b => { b with queue := [rotating] }) twoBanks)).2 = 8 := by
  decide +kernel

theorem witness_BankOperationsComplete_steps :
    let done : BankRun := { startedOp (operation (.wzeroZ 3)) 1 with stage := 2, ends := 1 }
    let step (t : Dir) : BankRun :=
      { startedOp (operation (.wrot t 1 2)) 1 with stage := 1, sentA := dirA t, sentB := dirB t }
    let at_ (r : BankRun) := modBank 0 (fun b => { b with
      run := some r, bufA := some ZVal.blank, bufB := some ZVal.blank, dueA := 1, dueB := 1 }) base
    (((at_ done).bankOf 0).run = some done ∧ done.stage = 2 ∧ done.ends ≤ (at_ done).clk ∧ done.fail = none ∧
      ((at_ done).bankOf 0).tail = [] ∧ ((at_ done).bankOf 0).queue = [] ∧ (at_ done).clk < done.ends + 24) ∧
    (∀ t, ((at_ (step t)).bankOf 0).run = some (step t) ∧ (step t).stage = 1 ∧
      rotOf (step t).op.op = some (t, 2, 1) ∧ (step t).ends ≤ (at_ (step t)).clk ∧
      (at_ (step t)).bankShare? 0 = some placedShare ∧ (step t).gotA = false ∧ (step t).gotB = false ∧
      ((at_ (step t)).bankOf 0).bufA = some ZVal.blank ∧ ((at_ (step t)).bankOf 0).dueA ≤ (at_ (step t)).clk) := by
  refine ⟨by decide +kernel, fun t => ?_⟩
  cases t <;> decide +kernel

/-- A word of the wave's two lanes meets no decode fault and reads nothing early. -/
theorem waveRuns_of {i : Instr} {s : State} {act : List Place} (t : s.turn = .issue (.wave 0 0 0) false)
    (h : s.standing (.wave 0 0 0) ≠ [])
    (ha : activeOf i ((landWave 0 0 0 s).standing (.wave 0 0 0))
      (prepLanes i ((landWave 0 0 0 s).standing (.wave 0 0 0)) (landWave 0 0 0 s)) = act)
    (hd : act.all (fun p => (decodeFault i p ((prepLanes i ((landWave 0 0 0 s).standing (.wave 0 0 0))
      (landWave 0 0 0 s)).thread p)).isNone) = true)
    (he : act.all (fun p => (earlyRead i act p (prepLanes i ((landWave 0 0 0 s).standing (.wave 0 0 0))
      (landWave 0 0 0 s))).isNone) = true) :
    WaveRuns i 0 0 0 act s (prepLanes i ((landWave 0 0 0 s).standing (.wave 0 0 0)) (landWave 0 0 0 s)) :=
  ⟨⟨⟨false, t⟩, h, rfl, ha.symm, fun p hp => by simpa using List.all_eq_true.mp hd p hp⟩,
    fun p hp => by simpa using List.all_eq_true.mp he p hp⟩

/-- The lanes of the wave. -/
def both : List Place := [.lane 0 0 0 0, .lane 0 0 0 63]

theorem witness_WaveTurnRunsEveryLane_crossLane :
    (∃ pre, WaveRuns (.vshfl .xor true false 3 1 2 4) 0 0 0 both inWave pre) ∧
    (∃ pre, WaveRuns (.vred .fmin 1 2) 0 0 0 both inWave pre) ∧
    (∃ pre, WaveRuns (.vscan .add true 1 2) 0 0 0 both inWave pre) ∧
    (∃ pre, WaveRuns (.vball 1 2) 0 0 0 both inWave pre) ∧ (∃ pre, WaveRuns (.velect 1 2) 0 0 0 both inWave pre) ∧
    (∃ pre, WaveRuns (.vquant 1 2 3 4) 0 0 0 both inWave pre) ∧ (∃ pre, WaveRuns (.venc 1 2 7) 0 0 0 both inWave pre) ∧
    ((List.replicate 64 (2 ^ 63)).length = 64 ∧ ∀ x ∈ List.replicate 64 (2 ^ 63), x < 2 ^ 64) :=
  ⟨⟨_, waveRuns_of rfl (by decide +kernel) (by decide +kernel) (by decide +kernel) (by decide +kernel)⟩,
    ⟨_, waveRuns_of rfl (by decide +kernel) (by decide +kernel) (by decide +kernel) (by decide +kernel)⟩,
    ⟨_, waveRuns_of rfl (by decide +kernel) (by decide +kernel) (by decide +kernel) (by decide +kernel)⟩,
    ⟨_, waveRuns_of rfl (by decide +kernel) (by decide +kernel) (by decide +kernel) (by decide +kernel)⟩,
    ⟨_, waveRuns_of rfl (by decide +kernel) (by decide +kernel) (by decide +kernel) (by decide +kernel)⟩,
    ⟨_, waveRuns_of rfl (by decide +kernel) (by decide +kernel) (by decide +kernel) (by decide +kernel)⟩,
    ⟨_, waveRuns_of rfl (by decide +kernel) (by decide +kernel) (by decide +kernel) (by decide +kernel)⟩, by simp⟩

/-- The wave with CHKSB set and a paced write of x2 on its way in lane 63. -/
def paced : State :=
  (inWave.modWave 0 0 0 fun w => { w with chksb := true }).modThread (.lane 0 0 0 63)
    fun t => { t with pend := [{ file := .x, reg := 2, val := 9, due := 100 }] }

/-- 02 R60: lane 0 reads x2 before the write in lane 63 has its latency: the pacing trap, with file 0 and register 2. -/
theorem test_pacing_trap :
    ((after (.add 1 2 3) paced).thread (.lane 0 0 0 0)).cause = ofN Cause.pacing ∧
    ((after (.add 1 2 3) paced).thread (.lane 0 0 0 0)).eval = 2 := by decide +kernel

theorem witness_GuardPaceAndPacedResults_wave :
    (let pre := prepLanes (.add 1 2 3) ((landWave 0 0 0 paced).standing (.wave 0 0 0)) (landWave 0 0 0 paced)
     WaveTurn (.add 1 2 3) 0 0 0 both paced pre ∧ earlyRead (.add 1 2 3) both (.lane 0 0 0 0) pre = some (.x, 2) ∧
      (pre.tvecOf (.lane 0 0 0 0)).toNat % 4 = 0) ∧
    (encode (.add 1 2 3) = some 0x00443001 ∧ (paced.wave? 0 0 0).map (·.chksb) = some true) ∧
    (∃ pre, WaveRuns (.pace 0 1 2 3 0 1 2 3) 0 0 0 both inWave pre) ∧
    (let s : State := { inWave with threads := inWave.threads.map fun e => (e.1, { e.2 with grem := 2, gcnd := false }) }
     s.standing (.wave 0 0 0) ≠ [] ∧ ((landWave 0 0 0 s).standing (.wave 0 0 0)).all
      (fun p => ((landWave 0 0 0 s).thread p).off) = true) :=
  ⟨⟨⟨⟨false, rfl⟩, by decide +kernel, rfl, by decide +kernel, by decide +kernel⟩, by decide +kernel, by decide +kernel⟩,
    by decide +kernel,
    ⟨_, waveRuns_of rfl (by decide +kernel) (by decide +kernel) (by decide +kernel) (by decide +kernel)⟩, by decide +kernel⟩

/-- The wave with one lane. -/
def oneLane : State := inWave.delThread (.lane 0 0 0 63)

/-- The same, with MGPT at the address in x2. -/
def laneMigr : State :=
  (putX (.lane 0 0 0 0) 2 0x20000 oneLane).modCluster 0 fun c => { c with ic := [mgptLine] }

/-- A lane that waits in *migrating*, with a context of its share idle. -/
def toPlace : State :=
  (inWave.modThread (.lane 0 0 0 0) fun t => { t with run := .wait (.migr 2) (.migrating 0) }).modThread here
    fun t => { t with run := .idle }

theorem witness_MigrLeavesForTheGatherer_record :
    (let s := migrating.modThread here fun t => { t with mgrec := own }
     let s₁ := (atIssue (.migr 2) here s).modThread here fun t => { t with grem := 0, gcnd := false }
     Clear (.migr 2) here s ∧ ∃ l s₂, fetchLine here 0x20000 s₁ = (.line l, s₂) ∧ lineWord l 0x20000 = 0xE8000005 ∧
      (let s₃ := (forceLoads here s₂).modThread here (·.landAll)
       (s₃.thread here).mgrec.toNat % 128 = 0 ∧ ∃ v, StoresAll here (recordWords (s₃.thread here)) own s₃ v)) ∧
    (∃ pre, WaveRuns (.migr 2) 0 0 0 [.lane 0 0 0 0] laneMigr pre ∧
      (landWave 0 0 0 laneMigr).standing (.wave 0 0 0) = [.lane 0 0 0 0] ∧ getX (.lane 0 0 0 0) 2 pre = 0x20000 ∧
      ∃ l s₂, fetchLine (.lane 0 0 0 0) 0x20000
        (pre.modThread (.lane 0 0 0 0) fun t => { t with grem := 0, gcnd := false }) = (.line l, s₂) ∧
        lineWord l 0x20000 = 0xE8000005) ∧
    (migrants 0 toPlace = [(0, .lane 0 0 0 0, 2)] ∧
      (toPlace.shareOf? (.lane 0 0 0 0)).map (fun sh => (toPlace.live sh, idleContext sh toPlace)) = some (true, some here) ∧
      ∃ u, takeRecord (.lane 0 0 0 0) 0 toPlace = (.got [], u)) ∧
    (let s := spad [(96, 1)] toPlace
     ∃ ws u, readRecord (.lane 0 0 0 0) 16 own [] s = (.got ws, u) ∧ (ws[12]?).getD 0 = 1) ∧
    (let s := toPlace.modThread here fun t => { t with run := .running }
     migrants 0 s = [(0, .lane 0 0 0 0, 2)] ∧
      (s.shareOf? (.lane 0 0 0 0)).map (fun sh => idleContext sh s) = some none) := by
  refine ⟨⟨clear_of rfl rfl rfl rfl rfl, _, _, rfl, by decide +kernel, by decide +kernel, _, fun _ => rfl⟩,
    ⟨_, waveRuns_of rfl (by decide +kernel) (by decide +kernel) (by decide +kernel) (by decide +kernel), by decide +kernel,
      by decide +kernel, _, _, rfl, by decide +kernel⟩, ⟨by decide +kernel, by decide +kernel, _, rfl⟩, ⟨_, _, rfl, by decide +kernel⟩,
    by decide +kernel⟩

theorem witness_ExitDrainsAndRetires_wave :
    (∃ pre, WaveRuns (.exit 2) 0 0 0 both inWave pre ∧
      both.all (fun p => (pre.thread p).strm.all (·.isNone) && (pre.thread p).qout &&& ~~~(pre.thread p).qgot == 0 &&
        (pre.thread p).reply.isNone) = true ∧ (pre.lanes 0 0 0).all (both.contains ·) = true) ∧
    (let s := oneLane.modThread (.lane 0 0 0 0) fun t => { t with reply := some { core := 0, ctx := 0, idx := 4 } }
     ∃ pre, WaveRuns (.exit 2) 0 0 0 [.lane 0 0 0 0] s pre ∧
      (landWave 0 0 0 s).standing (.wave 0 0 0) = [.lane 0 0 0 0] ∧
      (pre.thread (.lane 0 0 0 0)).reply = some { core := 0, ctx := 0, idx := 4 } ∧
      mayEnqueue (.lane 0 0 0 0) (releaseStores (.lane 0 0 0 0) .cl true
        (closeStreams (.lane 0 0 0 0) ((forceLoads (.lane 0 0 0 0) pre).modThread (.lane 0 0 0 0) fun t =>
          { t.landAll with ending := some 0 }))) = true) := by
  refine ⟨⟨_, waveRuns_of rfl (by decide +kernel) (by decide +kernel) (by decide +kernel) (by decide +kernel), by decide +kernel,
    by decide +kernel⟩,
    ⟨_, waveRuns_of rfl (by decide +kernel) (by decide +kernel) (by decide +kernel) (by decide +kernel), by decide +kernel,
      by decide +kernel, by decide +kernel⟩⟩

theorem witness_SystemWordsReadAndWriteRegisters_nbv :
    (6 : Word).toNat % 4 = 2 ∧ ((5 : Word).toNat % 4 = 1 ∧
      ({ base with pkg := { base.pkg with featAck := 1 } } : State).pkg.featAck.getLsbD 0 = true) ∧
    ¬ ((5 : Word).toNat % 4 = 2 ∨ ((5 : Word).toNat % 4 = 1 ∧ base.pkg.featAck.getLsbD 0 = true)) := by decide +kernel

/-- A context as it was saved. -/
def savedThread : Thread := { Thread.blank with gang := 1, pc := 0x20000, run := .running }

/-- A share that has been saved, of one context. -/
def savedShare : Share :=
  { placedShare with saved := some {
      threads := [(.ctx (virtualCl 0) 0 0, savedThread)], waves := [], cores := [], bank := none, buckets := [],
      copies := [] } }

/-- The base whose gang has been placed again, or loaded. -/
def restored (ph : Phase) : State :=
  (withShare (fun _ => savedShare) base).modGang 1 fun g =>
    { g with desc := { g.desc with save := 0x20000 }, phase := ph, restoring := true, released := [] }

theorem witness_PagersAndPreemption_restore :
    (((restored .placed).gang? 1).map (fun x => (x.id, x.phase, x.restoring)) = some (1, .placed, true) ∧
      (restored .placed).pkg.poison = [] ∧ (((restored .placed).sharesOf 1).map (·.rank)).Nodup ∧
      (restored .placed).share? 1 0 = some savedShare) ∧
    (let bs := contextRecord savedThread .running
     let s : State := { base with dram := Memory.writeBytes [] 0x30000 bs }
     Memory.readBytes s.dram 0x30000 bs.length = bs ∧ savedThread.grem ≤ 15) ∧
    (let s := restored .loaded
     (s.gang? 1).map (fun x => (x.phase, x.released)) = some (.loaded, []) ∧
      (s.sharesOf 1).filter (fun sh => sh.cl / 48 == 0) = [savedShare] ∧ s.share? 1 0 = some savedShare ∧
      savedShare.spill = [] ∧ bucketsFit savedShare s = true ∧
      (movePlace (virtualCl 0) 0 (newSlot savedShare []) (.ctx (virtualCl 0) 0 0)).key = Place.key (.ctx 0 0 0)) := by
  decide +kernel

/-- DRAM from reset whose tables map one page of four levels. -/
def paged : State :=
  { State.reset with
    pkg := { State.reset.pkg with eopra := { State.reset.pkg.eopra with split := 64 } }
    dram := Memory.write (Memory.write (Memory.write (Memory.write [] 0 8 0x2001) 0x2000 8 0x4001) 0x4000 8 0x6001)
              (0x6000 + 8 * 3) 8 0x10093 }

theorem witness_GangsAreLaunchedAndRetired_load :
    (let s := base.modGang 1 fun g => { g with phase := .placed }
     (s.gang? 1).map (fun x => (x.id, x.phase, x.restoring)) = some (1, .placed, false) ∧
      planMapped 0 (loadPlan 0 0 1 0x20000 s ++ loadPlan 0 0 2 0x40000 s) s = true ∧ s.sharesOf 1 = [placedShare] ∧
      s.share? 1 0 = some placedShare ∧ placedShare.cl < 192 ∧ (∀ c ∈ placedShare.cores, c < 32) ∧
      placedShare.cores.Nodup ∧ placedShare.cores[0 / 4]? = some 0) ∧
    (Memory.wf paged.dram = true ∧ paged.slices = [] ∧ paged.sharers = [] ∧ paged.clusters = [] ∧ paged.stores = [] ∧
      paged.pkg.fenced = [] ∧ 0x30008 % 0x10000 + 2 ≤ 0x10000 ∧
      (loadPhys 0 0x30008 paged).map (·.1) = some 0x10008) := by decide +kernel

theorem witness_ParcelsReachTheirDestination_saved :
    let s := withCore (fun k => { k with outq := [parcel (.msg (toCore 2))] }) (restored .saved)
    parcelLend (parcel (.msg (toCore 2))) = false ∧ parcelShare (parcel (.msg (toCore 2))) s = some savedShare ∧
    savedShare.saved.isSome = true ∧ savedShare.spill.length < 4096 ∧
    (parcelCore (parcel (.msg (toCore 2))) (toCore 2).hdr s).isSome = true ∧ parcelLost (parcel (.msg (toCore 2))) s = false ∧
    behind (parcel (.msg (toCore 2))) s = false := by decide +kernel

theorem witness_GalleryWordsSendTheirRequest_gbay :
    (let s := withX 6 (192 * 256) supervisor
     Clear (.gbay 5 6 7) here s ∧ 192 ≤ (getX here 6 (atIssue (.gbay 5 6 7) here s)).toNat / 256 % 256) ∧
    (let s := withX 6 (191 * 256) supervisor
     Clear (.gbay 5 6 7) here s ∧ (getX here 6 (atIssue (.gbay 5 6 7) here s)).toNat / 256 % 256 < 192) :=
  ⟨⟨clear_of rfl rfl rfl rfl rfl, by decide +kernel⟩, ⟨clear_of rfl rfl rfl rfl rfl, by decide +kernel⟩⟩

/-- A frame of copy data that the base's copy waits for. -/
def frameSent : NvSent :=
  { frame := { port := 0, peer := 1, etherType := 0, number := 0, body := .data [(0, [1])] }, reg := some (copy 0).reg,
    left := true, acked := false }

theorem witness_EnginesMoveElementsAndTiles_copies :
    (let s := base.modCluster 0 fun c => { c with copies := [copy 0] }
     currentCopy (s.copies (.cluster 0)) = some (copy 0) ∧ (copy 0).done < cpTotal (copy 0).record ∧
      srcGone (copy 0) s = false ∧ dstGone (copy 0) s = false ∧
      (let j := (copy 0).done * cpSector (copy 0).record
       ∃ vs s₁ s₂, readSector (copyAgent (.cluster 0) (copy 0) s) (copy 0) (copyTable (.cluster 0) (copy 0) s)
          (min (cpSector (copy 0).record) (cpCount (copy 0).record - j)) j [] s = .done vs s₁ ∧
        writeSector (copyAgent (.cluster 0) (copy 0) s) (copy 0) vs j s₁ = .done () s₂)) ∧
    srcGone { copy 0 with record := [0, 0, 0x400] ++ List.replicate 29 0 } base = true ∧
    (cpTotal (copy 1).record ≤ (copy 1).done ∧ cpSeal (copy 1).record = false ∧ cpSrch (copy 1).record = false ∧
      cpProg (copy 1).record = 0 ∧ base.pkg.novilo = []) ∧
    (frameSent.reg = some (copy 0).reg ∧ frameSent.acked = false) ∧
    (pushedAt here own 4 0 (modStrm here 0 (fun _ => some { ownStream 1 with push := [(0, 7)] }) base) = false) ∧
    (let q : GReq := { place := here, port := 34, op := .galloc 5 0 3, a := 0, b := 7, clk := 0 }
     ((withBay.modCluster 0 fun c => { c with gal := [q] }).cluster 0).gal = [q]) := by
  refine ⟨⟨by decide +kernel, by decide +kernel, by decide +kernel, by decide +kernel, _, _, _, rfl, rfl⟩,
    by decide +kernel, by decide +kernel, by decide +kernel, by decide +kernel, by decide +kernel⟩

theorem witness_HeatPowerAndBoot_column :
    (Memory.wf [(3, 7)] = true ∧ (0 : Nat) < 192 ∧ (∀ c ∈ ([(3, 7)] : Memory), c.1 < 0x200000)) ∧
    (let x := mapped.pkg.eopra
     x.wf = true ∧ (0 : Nat) < 48 ∧ 32 - x.pagers - x.column ≤ 31 - x.pagers ∧ 31 - x.pagers < 32 - x.pagers) := by
  decide +kernel

/-- A frame of the given number and contents from peer 1 on port 0. -/
def frame (n : Nat) (b : NvBody) : NvFrame :=
  { port := 0, peer := 1, etherType := mapped.pkg.eopra.etherType, number := n, body := b }

theorem witness_ErrorsAndLinks_frames :
    ((frame 0 (.data [(120, [1, 2])])).wf = true ∧ (frame 0 (.data [(120, [1, 2])])).number =
        FMap.getD mapped.pkg.nvGot (0 * 256 + 1) 0 ∧ 120 % 128 + [(1 : Byte), 2].length ≤ 128 ∧
      inInterleaved 120 2 mapped = true) ∧
    ((frame 0 (.messages [List.replicate 64 0])).wf = true ∧ (frame 1 (.messages [])).wf = true ∧
      (frame 1 (.data [])).wf = true ∧ (frame 7 .ack).wf = true) ∧
    (let s : State := { mapped with pkg := { mapped.pkg with nvGot := [(1, 5)] } }
     FMap.getD s.pkg.nvGot 1 0 = 5 ∧ (frame 0 (.data [])).number < 5) ∧
    ({ frame 0 .ack with etherType := 1 + mapped.pkg.eopra.etherType } : NvFrame).etherType ≠
      mapped.pkg.eopra.etherType ∧
    (base.pkg.linkFail[0]? = some false ∧ base.pkg.fenced = []) ∧
    (let s : State := { twoBanks with pkg := { twoBanks.pkg with linkFail := [false, true, false, false] } }
     s.pkg.linkFail[0]? = some false ∧ placedShare ∈ FMap.vals s.shares ∧ (s.gang? 1).map (·.id) = some placedShare.gang) := by
  decide +kernel

/-- 13 R316, R317: with the link 2–3 gone, the link 0–1 cuts off dies 1 and 3, 0–2 die 2, and 1–3 die 3. -/
theorem test_second_link_fences_dies :
    let s : State := { base with pkg := { base.pkg with linkFail := [false, false, false, true] } }
    let f (k : Fin 4) := (after (.linkAckTimeout k) s).pkg.fenced
    f 0 = [1, 3] ∧ f 1 = [2] ∧ f 2 = [3] := by decide +kernel

theorem witness_AddressesAreRouted_ranks :
    (base.share? (base.agent here).gang 1 = none ∧ base.share? (base.agent here).gang 256 = none ∧ (256 : Nat) < 65536) ∧
    (let s : State := { tables with pkg := { tables.pkg with fenced := [tables.homeDie (0x10000 + 8)] } }
     s.homeDie (wbits 0x10093 51 13 * 8192 + 8) ∈ s.pkg.fenced ∧ s.pkg.poison = [] ∧ s.stores = []) := by
  decide +kernel
end Sys2Proof.Tests
end

section
/-!
PROOF. Where an address leads (O59): the checks of its form, the windows, the walk of its page tables and the route
through a leaf.
-/

namespace Sys2Proof.Machine

/-! ### Bits, canonical addresses and the window region (01 R22, R24, R25) -/

theorem wbits_ofN {n : Nat} (h : n < 2 ^ 64) (hi lo : Nat) : wbits (ofN n) hi lo = nbits n hi lo := by
  rw [wbits, ofN, BitVec.toNat_ofNat, Nat.mod_eq_of_lt h]

theorem wbits_congr {u v : Word} {hi lo : Nat} (h : ∀ i, lo ≤ i → i ≤ hi → wbit u i = wbit v i) :
    wbits u hi lo = wbits v hi lo := by
  refine Nat.eq_of_testBit_eq fun i => ?_
  simp only [wbits, nbits, Nat.testBit_mod_two_pow, Nat.testBit_div_two_pow, BitVec.testBit_toNat]
  by_cases hi' : i < hi + 1 - lo
  · have hbit := h (i + lo) (by omega) (by omega)
    simp only [wbit] at hbit
    rw [hbit]
  · simp [hi']

theorem wbit_marked (pte : Word) (d : Bool) {i : Nat} (h5 : i ≠ 5) (h6 : i ≠ 6) :
    wbit (marked pte d) i = wbit pte i := by
  unfold marked wbit
  rw [getLsbD_setBit _ _ _ _ (by decide), if_neg h5]
  cases d with
  | false => rfl
  | true => rw [if_pos rfl, getLsbD_setBit _ _ _ _ (by decide), if_neg h6]

theorem canonical_of_inWindow {a : Word} (h : inWindow a = true) : canonical a = true := by
  rw [canonical, h, Bool.or_true]

theorem inWindow_ofN {n : Nat} (hlo : windowBase ≤ n) (hhi : n < 2 ^ 56) : inWindow (ofN n) = true := by
  have hw : wbits (ofN n) 63 41 = 0x7FFF := by
    rw [wbits_ofN (by omega), nbits]
    rw [windowBase] at hlo
    omega
  exact decide_eq_true hw

/-- The own-cluster window address of share offset o in the RAW view (01 R24). -/
def ownAddr (o : Nat) : Word := ofN (0x00FFFF0000000000 + o)

theorem inWindow_ownAddr {o : Nat} (ho : o < 0x800000) : inWindow (ownAddr o) = true := by
  refine inWindow_ofN ?_ (by omega)
  rw [windowBase]
  omega

theorem windowOf_ownAddr {o : Nat} (ho : o < 0x800000) : windowOf (ownAddr o) = .own o := by
  have hlow : wbits (ownAddr o) 40 0 = 0x10000000000 + o := by
    rw [ownAddr, wbits_ofN (by omega), nbits]
    omega
  have hout : ¬ 0x10000000000 + o < 0x10000000000 := by omega
  have hoff : 0x10000000000 + o - 0x10000000000 = o := by omega
  unfold windowOf
  dsimp only
  rw [hlow, if_neg hout, hoff, if_pos ho]

theorem windowOf_rankAddr {k o : Nat} (hk : k < 65536) (ho : o < 0x800000) : windowOf (rankAddr k o) = .rank k o := by
  have hlow : wbits (rankAddr k o) 40 0 = k * 0x1000000 + o := by
    rw [rankAddr, windowBase, wbits_ofN (by omega), nbits]
    omega
  have hslot : (k * 0x1000000 + o) % 0x1000000 = o := by omega
  have hrank : (k * 0x1000000 + o) / 0x1000000 = k := by omega
  have hin : k * 0x1000000 + o < 0x10000000000 := by omega
  unfold windowOf
  dsimp only
  rw [hlow, hslot, hrank, if_pos hin, if_pos ho]

theorem inWindow_rankAddr {k o : Nat} (hk : k < 65536) (ho : o < 0x800000) : inWindow (rankAddr k o) = true := by
  refine inWindow_ofN (by omega) ?_
  rw [windowBase]
  omega

theorem shareRoute_raw (sh : Share) {o : Nat} (w : Nat) (ho : o < 0x200000) :
    shareRoute sh o w = if o + w ≤ sh.spadSize then .to (.spad sh.cl (sh.spadBase + o) 0 sh.gang sh.rank)
      else .bad Cause.access := by
  rw [shareRoute, Nat.div_eq_of_lt ho, Nat.mod_eq_of_lt ho]
  rfl

theorem windowRoute_own {s : State} {g : Agent} {a : Word} {o cl : Nat} {sh : Share} (w : Nat) (need : Need)
    (ha : windowOf a = .own o) (hg : g.cl = some cl) (hs : s.share? g.gang g.rank = some sh) (hcl : sh.cl = cl) :
    windowRoute s g a w need = shareRoute sh o w := by
  simp [windowRoute, ha, hg, hs, hcl]

theorem windowRoute_no_share {s : State} {g : Agent} {a : Word} {k o : Nat} (w : Nat) (need : Need)
    (ha : windowOf a = .rank k o) (hs : s.share? g.gang k = none) :
    windowRoute s g a w need = .bad Cause.access := by
  simp [windowRoute, ha, hs]

/-! ### The route of an address that is checked without a walk (09 R217; 01 R22, R26) -/

theorem route_misformed {g : Agent} {a : Word} {w : Nat} (need : Need) (s : State)
    (h : canonical a = false ∨ a.toNat % w ≠ 0) : route g a w need s = (.bad Cause.access, s) := by
  rw [route, if_pos]
  simpa using h

/-- Neither the alignment check nor that of an instruction fetch can change it: they give the same fault. -/
theorem route_window_bad {s : State} {g : Agent} {a : Word} {w : Nat} {need : Need} (hw : inWindow a = true)
    (h : windowRoute s g a w need = .bad Cause.access) : route g a w need s = (.bad Cause.access, s) := by
  rw [route, hw, h]
  simp

theorem route_window_spad {s : State} {g : Agent} {a : Word} {w cl off view gang rank : Nat} {need : Need}
    (ha : a.toNat % w = 0) (hw : inWindow a = true) (hn : need ≠ .exec) (hf : cl / 48 ∉ s.pkg.fenced)
    (h : windowRoute s g a w need = .to (.spad cl off view gang rank)) :
    route g a w need s = (.to (.spad cl off view gang rank), s) := by
  rw [route, canonical_of_inWindow hw, hw, h]
  simp [ha, hn, hf]

theorem ownAddr_aligned {o w : Nat} (ho : o < 0x200000) (ha : o % w = 0) (hw : w = 1 ∨ w = 2 ∨ w = 4 ∨ w = 8) :
    (ownAddr o).toNat % w = 0 := by
  have hsmall : 0x00FFFF0000000000 + o < 2 ^ 64 := by omega
  rw [ownAddr, ofN, BitVec.toNat_ofNat, Nat.mod_eq_of_lt hsmall]
  rcases hw with rfl | rfl | rfl | rfl <;> omega

/-- 01 R24, R26: the own cluster's window in the RAW view. -/
theorem route_own {g : Agent} {o w : Nat} {need : Need} {s : State} {cl : Nat} {sh : Share} (hg : g.cl = some cl)
    (hs : s.share? g.gang g.rank = some sh) (hcl : sh.cl = cl) (hn : need ≠ .exec) (hf : cl / 48 ∉ s.pkg.fenced)
    (ho : o < 0x200000) (ha : o % w = 0) (hw : w = 1 ∨ w = 2 ∨ w = 4 ∨ w = 8) :
    (o + w ≤ sh.spadSize → route g (ownAddr o) w need s =
      (.to (.spad cl (sh.spadBase + o) 0 sh.gang sh.rank), s)) ∧
    (sh.spadSize < o + w → route g (ownAddr o) w need s = (.bad Cause.access, s)) := by
  have hwin := inWindow_ownAddr (o := o) (by omega)
  have hroute := windowRoute_own w need (windowOf_ownAddr (o := o) (by omega)) hg hs hcl
  rw [shareRoute_raw sh w ho, hcl] at hroute
  constructor
  · intro hfit
    rw [if_pos hfit] at hroute
    exact route_window_spad (ownAddr_aligned ho ha hw) hwin hn hf hroute
  · intro hover
    rw [if_neg (by omega)] at hroute
    exact route_window_bad hwin hroute

/-! ### The levels of a walk (15 R340, R341) -/

/-- The entry for va in a table at a level. -/
def State.entryIn (s : State) (va : Word) (table level : Nat) : Word :=
  ofN (Memory.read s.dram (walkEntry va table level) 8)

/-- Whether a walk goes on from an entry to a table one level down. -/
def State.leadsOn (s : State) (e : Word) (level : Nat) : Prop :=
  wbit e 0 = true ∧ s.entryOk e level = true ∧ wbit e 7 = false

/-- The table that a pointer entry names. -/
def tableOf (e : Word) : Nat := wbits e 51 13 * 8192

theorem State.walkFrom_succ (s : State) (va : Word) (n table level : Nat) :
    s.walkFrom va (n + 1) table level =
      if !wbit (s.entryIn va table level) 0 then .fail 0 level
      else if !s.entryOk (s.entryIn va table level) level then .fail 1 level
      else if wbit (s.entryIn va table level) 7 then
        .leaf (s.entryIn va table level) (walkEntry va table level) (3 - level)
      else s.walkFrom va n (tableOf (s.entryIn va table level)) (level + 1) :=
  rfl

theorem State.walkFrom_absent {s : State} {va : Word} {table level : Nat} (n : Nat)
    (h : wbit (s.entryIn va table level) 0 = false) : s.walkFrom va (n + 1) table level = .fail 0 level := by
  rw [s.walkFrom_succ, if_pos (by simp [h])]

theorem State.walkFrom_malformed {s : State} {va : Word} {table level : Nat} (n : Nat)
    (h0 : wbit (s.entryIn va table level) 0 = true) (h : s.entryOk (s.entryIn va table level) level = false) :
    s.walkFrom va (n + 1) table level = .fail 1 level := by
  rw [s.walkFrom_succ, if_neg (by simp [h0]), if_pos (by simp [h])]

theorem State.walkFrom_down {s : State} {va : Word} {table level : Nat} (n : Nat)
    (h : s.leadsOn (s.entryIn va table level) level) :
    s.walkFrom va (n + 1) table level = s.walkFrom va n (tableOf (s.entryIn va table level)) (level + 1) := by
  obtain ⟨hvalid, hok, hpointer⟩ := h
  rw [s.walkFrom_succ, if_neg (by simp [hvalid]), if_neg (by simp [hok]), if_neg (by simp [hpointer])]

/-- Level 3 holds no pointers. -/
theorem State.leaf_of_entryOk_three {s : State} {e : Word} (h : s.entryOk e 3 = true) : wbit e 7 = true := by
  cases hleaf : wbit e 7 with
  | true => rfl
  | false => simp [State.entryOk, hleaf] at h

theorem State.walkFrom_page {s : State} {va : Word} {table : Nat} (n : Nat)
    (h0 : wbit (s.entryIn va table 3) 0 = true) (h : s.entryOk (s.entryIn va table 3) 3 = true) :
    s.walkFrom va (n + 1) table 3 = .leaf (s.entryIn va table 3) (walkEntry va table 3) 0 := by
  rw [s.walkFrom_succ, if_neg (by simp [h0]), if_neg (by simp [h]), if_pos (s.leaf_of_entryOk_three h)]

theorem State.walk_levels (s : State) (root : Nat) (va : Word) :
    let e₀ := s.entryIn va root 0
    let e₁ := s.entryIn va (tableOf e₀) 1
    let e₂ := s.entryIn va (tableOf e₁) 2
    let e₃ := s.entryIn va (tableOf e₂) 3
    (wbit e₀ 0 = false → s.walk root va = .fail 0 0) ∧
    (s.leadsOn e₀ 0 → s.leadsOn e₁ 1 → s.leadsOn e₂ 2 →
      (wbit e₃ 0 = false → s.walk root va = .fail 0 3) ∧
      (wbit e₃ 0 = true → s.entryOk e₃ 3 = false → s.walk root va = .fail 1 3) ∧
      (wbit e₃ 0 = true → s.entryOk e₃ 3 = true →
        s.walk root va = .leaf e₃ (walkEntry va (tableOf e₂) 3) 0)) := by
  intro e₀ e₁ e₂ e₃
  refine ⟨State.walkFrom_absent 3, fun h₀ h₁ h₂ => ?_⟩
  have hlast : s.walk root va = s.walkFrom va 1 (tableOf e₂) 3 :=
    calc s.walk root va
      _ = s.walkFrom va 3 (tableOf e₀) 1 := State.walkFrom_down 3 h₀
      _ = s.walkFrom va 2 (tableOf e₁) 2 := State.walkFrom_down 2 h₁
      _ = s.walkFrom va 1 (tableOf e₂) 3 := State.walkFrom_down 1 h₂
  rw [hlast]
  exact ⟨State.walkFrom_absent 0, State.walkFrom_malformed 0, State.walkFrom_page 0⟩

theorem State.entry_of_walkFrom_leaf {s : State} {va : Word} {pte : Word} {at_ up : Nat} (n : Nat) :
    ∀ table level, s.walkFrom va n table level = .leaf pte at_ up → ofN (Memory.read s.dram at_ 8) = pte := by
  induction n with
  | zero => intro table level h; cases h
  | succ n ih =>
    intro table level h
    rw [s.walkFrom_succ] at h
    split at h
    · cases h
    · split at h
      · cases h
      · split at h
        · obtain ⟨hentry, hat, -⟩ := Walk.leaf.inj h
          rw [← hat]
          exact hentry
        · exact ih _ _ h

theorem State.interSize_congr {s t : State} (h : t.pkg.eopra = s.pkg.eopra) : t.interSize = s.interSize := by
  rw [State.interSize, h, State.interSize]

theorem State.pinnedDie?_congr {s t : State} (h : t.pkg.eopra = s.pkg.eopra) (pa : Nat) :
    t.pinnedDie? pa = s.pinnedDie? pa := by
  rw [State.pinnedDie?, State.pinnedSize, h, ← State.pinnedSize, ← State.pinnedDie?]

theorem State.frameOk_congr {s t : State} (h : t.pkg.eopra = s.pkg.eopra) (e : Word) (up : Nat) :
    t.frameOk e up = s.frameOk e up := by
  unfold State.frameOk
  dsimp only
  rw [State.interSize_congr h, State.pinnedDie?_congr h, State.pinnedDie?_congr h]

theorem State.entryOk_congr {s t : State} (h : t.pkg.eopra = s.pkg.eopra) (e : Word) (level : Nat) :
    t.entryOk e level = s.entryOk e level := by
  unfold State.entryOk
  rw [State.frameOk_congr h]

theorem State.walkFrom_congr {s t : State} (hd : t.dram = s.dram) (he : t.pkg.eopra = s.pkg.eopra) (va : Word) (n : Nat) :
    ∀ table level, t.walkFrom va n table level = s.walkFrom va n table level := by
  induction n with
  | zero => exact fun _ _ => rfl
  | succ n ih =>
    intro table level
    have hentry : t.entryIn va table level = s.entryIn va table level := by rw [State.entryIn, State.entryIn, hd]
    rw [t.walkFrom_succ, s.walkFrom_succ, hentry, State.entryOk_congr he, ih]

/-! ### The reads of a walk while no store is under way (15 R340, R356; 09 R198) -/

theorem writeBack_pkg (l line : Nat) (s : State) : (writeBack l line s).pkg = s.pkg := by
  unfold writeBack; split <;> rfl

theorem mscRoom_pkg (l line : Nat) (s : State) : (mscRoom l line s).pkg = s.pkg := by
  unfold mscRoom; dsimp only; split
  · rfl
  · split
    · rfl
    · rw [State.modLanding_pkg, writeBack_pkg]

theorem mscPut_pkg (l line : Nat) (b : Bool) (s : State) : (mscPut l line b s).pkg = s.pkg := by
  rw [mscPut, State.modLanding_pkg, mscRoom_pkg]

theorem homeServe_pkg (line : Nat) (s : State) : (homeServe line s).2.2.pkg = s.pkg := by
  unfold homeServe; dsimp only; split
  · rfl
  · exact (mscPut_pkg _ _ _ _).trans (State.modLanding_pkg _ _ _)

/-- No store is under way and no line has a poison mark. -/
structure Calm (s : State) : Prop where
  stores : s.stores = []
  poison : s.pkg.poison = []

theorem Calm.readHome {s : State} (h : Calm s) (line : Nat) : Calm (readHome line s) := by
  unfold Machine.readHome
  split
  · rw [settleLine_nil h.stores]
    exact ⟨(homeServe_stores line s).trans h.stores, by rw [homeServe_pkg, h.poison]⟩
  · exact h

theorem Calm.readHome_dram {s : State} (h : Calm s) (line : Nat) : (Machine.readHome line s).dram = s.dram := by
  unfold Machine.readHome
  split
  · rw [settleLine_nil h.stores, homeServe_dram]
  · rfl

theorem Calm.not_poisoned {s : State} (h : Calm s) (pa : Nat) : s.poisoned pa = false := by
  rw [State.poisoned, h.poison]
  rfl

/-- What a walk's reads leave in a calm state: they end at no poison mark, and the state stays calm with its DRAM. -/
structure ReadsCalmly (s : State) (r : Bool × State) : Prop where
  clean : r.1 = false
  calm : Calm r.2
  dram : r.2.dram = s.dram

theorem Calm.walkOn {s : State} (h : Calm s) {rest : Nat → State → Bool × State}
    (hrest : ∀ t, ReadsCalmly s (rest t s)) (at_ level : Nat) : ReadsCalmly s (walkOn rest at_ level s) := by
  unfold Machine.walkOn
  rw [h.not_poisoned at_, if_neg Bool.false_ne_true]
  split
  · exact hrest _
  · exact ⟨rfl, h, rfl⟩

theorem Calm.walkReads {va : Word} (n : Nat) :
    ∀ {s : State} (_ : Calm s) (table level : Nat), ReadsCalmly s (walkReads va n table level s) := by
  induction n with
  | zero => exact fun h _ _ => ⟨rfl, h, rfl⟩
  | succ n ih =>
    intro s h table level
    have hread := h.readHome (walkEntry va table level / 128)
    obtain ⟨hclean, hcalm, hdram⟩ :=
      hread.walkOn (fun t => ih hread t (level + 1)) (walkEntry va table level) level
    exact ⟨hclean, hcalm, hdram.trans (h.readHome_dram _)⟩

/-! ### The CAS of a walker (15 R342) -/

theorem casEntry_some {j at_ : Nat} {pte e : Word} {d : Bool} {s t : State}
    (h : casEntry j at_ pte d s = (some e, t)) : e = marked pte d := by
  unfold casEntry at h
  dsimp only at h
  split at h
  · next hm => cases h; exact hm.symm
  · split at h
    · cases h; rfl
    · cases h

theorem casEntry_none {j at_ : Nat} {pte : Word} {d : Bool} {s t : State}
    (h : casEntry j at_ pte d s = (none, t)) : ofN (Memory.read t.dram at_ 8) ≠ pte := by
  unfold casEntry at h
  dsimp only at h
  split at h
  · cases h
  · split at h
    · cases h
    · next hne => cases h; exact hne

theorem entryRace_nil {s : State} (h : s.stores = []) (j at_ : Nat) : entryRace j at_ s = s := by
  have hnone : entryStores at_ s = [] := by rw [entryStores, h]; rfl
  rw [entryRace, hnone]
  rfl

/-- With no store under way nothing comes between the walk and its CAS. -/
theorem casEntry_calm {s : State} (hs : s.stores = []) {at_ : Nat} {pte : Word} (j : Nat) (d : Bool)
    (hpte : ofN (Memory.read s.dram at_ 8) = pte) : (casEntry j at_ pte d s).1 = some (marked pte d) := by
  unfold casEntry
  dsimp only
  rw [entryRace_nil hs, completeLine_nil hs, if_pos hpte]
  split
  · next hm => exact congrArg some hm.symm
  · rfl

/-! ### What the walks for an access come to (15 R341, R342, R356) -/

theorem walkTwice_of_some {g : Agent} {va : Word} {need : Need} {s : State} {x : Filled}
    (h : (walkOnce g 0 va need s).1 = some x) : walkTwice g va need s = walkOnce g 0 va need s := by
  rw [walkTwice, walkAgain, h]

theorem fillWith_fst {g : Agent} {die slice : Nat} {va : Word} {r : Option Filled × Nat × State} {x : Filled}
    (h : r.1 = some x) : (fillWith g die slice va r).1 = x := by
  rw [fillWith, h]
  cases x <;> rfl

theorem fillWith_no_leaf {g : Agent} {die slice : Nat} {va : Word} {n : Nat} {t : State} {x : Filled}
    (hx : ∀ pte up, x ≠ .ok pte up) : fillWith g die slice va (some x, n, t) = (x, t) := by
  cases x with
  | ok pte up => exact absurd rfl (hx pte up)
  | fail c l => rfl
  | bad => rfl

theorem walkFill_no_leaf {g : Agent} {va : Word} {need : Need} {s t : State} {n : Nat} {x : Filled} (die slice : Nat)
    (h : walkOnce g 0 va need s = (some x, n, t)) (hx : ∀ pte up, x ≠ .ok pte up) :
    walkFill g die slice va need s = (x, t) := by
  rw [walkFill, walkTwice_of_some (congrArg Prod.fst h), h, fillWith_no_leaf hx]

/-- What the reads of an access's first walk come to: whether one met a poison mark, and the state they leave. -/
def walkReadsFor (g : Agent) (va : Word) (s : State) : Bool × State := walkReads va 4 (s.rootOf g.gang) 0 s

theorem walkOnce_marked_bad {g : Agent} {va : Word} (need : Need) {s : State} (h : (walkReadsFor g va s).1 = true) :
    walkOnce g 0 va need s = (some .bad, 0, (walkReadsFor g va s).2) := by
  rw [walkOnce, walkRead, ← walkReadsFor, if_pos h]

theorem walkOnce_calm {g : Agent} {va : Word} (need : Need) {s : State} (h : Calm s) :
    walkOnce g 0 va need s = walkEnd 0 need (s.walk (s.rootOf g.gang) va) (walkReadsFor g va s).2 := by
  obtain ⟨hclean, -, hdram⟩ : ReadsCalmly s (walkReadsFor g va s) := h.walkReads 4 _ 0
  have hwalk : (walkReadsFor g va s).2.walk (s.rootOf g.gang) va = s.walk (s.rootOf g.gang) va :=
    State.walkFrom_congr hdram (memPath_walkReads va 4 (s.rootOf g.gang) 0 s).eopra va 4 _ 0
  rw [walkOnce, walkRead, ← walkReadsFor, hclean, hwalk, if_neg Bool.false_ne_true]

theorem walkOnce_calm_leaf {g : Agent} {va : Word} (need : Need) {s : State} {pte : Word} {at_ up : Nat} (h : Calm s)
    (hw : s.walk (s.rootOf g.gang) va = .leaf pte at_ up) :
    (walkOnce g 0 va need s).1 = some (.ok (marked pte (need.stores && wbit pte 2)) up) := by
  obtain ⟨-, hcalm, hdram⟩ : ReadsCalmly s (walkReadsFor g va s) := h.walkReads 4 _ 0
  have hentry : ofN (Memory.read (walkReadsFor g va s).2.dram at_ 8) = pte := by
    rw [hdram]
    exact State.entry_of_walkFrom_leaf 4 _ 0 hw
  rw [walkOnce_calm need h, hw, walkEnd, casWalk, casEntry_calm hcalm.stores 0 _ hentry]

/-! ### The route of a walked address (09 R217; 13 R317; 15 R341-R343) -/

theorem route_eq_translate {g : Agent} {a : Word} {w : Nat} {need : Need} {s : State} (hc : canonical a = true)
    (ha : a.toNat % w = 0) (hw : inWindow a = false)
    (hr : ∀ x, (translate g a w need s).1 = .to x → ∃ pa mca nc cmp, x = .dram pa mca nc cmp) :
    route g a w need s = translate g a w need s := by
  rw [route, hc, hw, if_neg (by simp [ha]), if_neg Bool.false_ne_true]
  generalize translate g a w need s = r at hr
  obtain ⟨x | cause | ⟨reason, level⟩ | _, t⟩ := r
  · obtain ⟨pa, mca, nc, cmp, rfl⟩ := hr x rfl
    rfl
  · rfl
  · rfl
  · rfl

/-- An access that its slice walks for: it passes the checks of its address, and no cached translation covers it. -/
structure Walks (g : Agent) (a : Word) (w : Nat) (s : State) : Prop where
  canonical : canonical a = true
  aligned : a.toNat % w = 0
  outside : inWindow a = false
  missed : s.tlb.find? (·.hits g.die (sliceOf a.toNat) g.gang a) = none

theorem Walks.translate {g : Agent} {a : Word} {w : Nat} {s : State} (h : Walks g a w s) (need : Need) :
    translate g a w need s = walkRoute g a w need (walkFill g g.die (sliceOf a.toNat) a need s) := by
  rw [Machine.translate, h.missed]

theorem walkRoute_ok (g : Agent) (va : Word) (w : Nat) (need : Need) (pte : Word) (up : Nat) (t : State) :
    walkRoute g va w need (.ok pte up, t) = (routeOf t g need w va pte up, t) := rfl

theorem walkRoute_fail (g : Agent) (va : Word) (w : Nat) (need : Need) (reason level : Nat) (t : State) :
    walkRoute g va w need (.fail reason level, t) = (.missed reason level, t) := rfl

theorem walkRoute_bad (g : Agent) (va : Word) (w : Nat) (need : Need) (t : State) :
    walkRoute g va w need (.bad, t) = (.bad Cause.dataError, t) := rfl

theorem Walks.route_of_failed {g : Agent} {a : Word} {w : Nat} {s : State} (h : Walks g a w s) {need : Need}
    {x : Filled} {t : State} (hf : walkFill g g.die (sliceOf a.toNat) a need s = (x, t))
    (hx : ∀ pte up, x ≠ .ok pte up) : route g a w need s = walkRoute g a w need (x, t) := by
  have ht : Machine.translate g a w need s = walkRoute g a w need (x, t) := by rw [h.translate, hf]
  rw [route_eq_translate h.canonical h.aligned h.outside, ht]
  rw [ht]
  cases x with
  | ok pte up => exact absurd rfl (hx pte up)
  | fail c l => exact fun y hy => nomatch hy
  | bad => exact fun y hy => nomatch hy

/-- 15 R356: an entry in a line with a poison mark. -/
theorem Walks.route_poisoned {g : Agent} {a : Word} {w : Nat} {s : State} (h : Walks g a w s) (need : Need)
    (hp : (walkReadsFor g a s).1 = true) :
    route g a w need s = (.bad Cause.dataError, (walkReadsFor g a s).2) := by
  rw [h.route_of_failed (walkFill_no_leaf _ _ (walkOnce_marked_bad need hp) nofun) nofun, walkRoute_bad]

/-- 15 R341: a failed walk. -/
theorem Walks.route_missed {g : Agent} {a : Word} {w c l : Nat} {s : State} (h : Walks g a w s) (need : Need)
    (hq : Calm s) (hw : s.walk (s.rootOf g.gang) a = .fail c l) :
    route g a w need s = (.missed c l, (walkReadsFor g a s).2) := by
  have honce : walkOnce g 0 a need s = (some (.fail c l), 0, (walkReadsFor g a s).2) := by
    rw [walkOnce_calm need hq, hw, walkEnd]
  rw [h.route_of_failed (walkFill_no_leaf _ _ honce nofun) nofun, walkRoute_fail]

/-- 15 R342: two failed CAS are reported as contended. -/
theorem Walks.route_contended {g : Agent} {a : Word} {w : Nat} {s : State} (h : Walks g a w s) (need : Need)
    (hn : (walkTwice g a need s).1 = none) : ∃ l t, route g a w need s = (.missed 2 l, t) := by
  have hfill : walkFill g g.die (sliceOf a.toNat) a need s =
      (.fail 2 (3 - (walkTwice g a need s).2.1), (walkTwice g a need s).2.2) := by
    rw [walkFill, fillWith, hn]
  exact ⟨_, _, by rw [h.route_of_failed hfill nofun, walkRoute_fail]⟩

/-! ### What a page grants, and the bits a walk sets in its entry (15 R342; 09 R213, R217) -/

theorem permits_marked (pte : Word) (d : Bool) (need : Need) (user : Bool) :
    permits (marked pte d) need user = permits pte need user := by
  have hbit {i : Nat} (h5 : i ≠ 5) (h6 : i ≠ 6) := wbit_marked pte d h5 h6
  cases need <;> simp [permits, hbit]

/-- The marks leave the frame's number alone. -/
theorem physOf_marked (pte : Word) (d : Bool) (up : Nat) (va : Word) :
    physOf (marked pte d) up va = physOf pte up va := by
  have hframe : wbits (marked pte d) 51 13 = wbits pte 51 13 :=
    wbits_congr fun i hlo _ => wbit_marked pte d (by omega) (by omega)
  rw [physOf, hframe, physOf]

theorem MemPath.inDram {s t : State} (h : MemPath s t) (pa : Nat) : t.inDram pa = s.inDram pa := by
  rw [State.inDram, State.interSize_congr h.eopra, State.pinnedDie?_congr h.eopra, ← State.inDram]

theorem MemPath.homeDie {s t : State} (h : MemPath s t) (pa : Nat) : t.homeDie pa = s.homeDie pa := by
  rw [State.homeDie, State.homeLanding, State.pinnedDie?_congr h.eopra, ← State.homeLanding, ← State.homeDie]

theorem MemPath.fenced {s t : State} (h : MemPath s t) : t.pkg.fenced = s.pkg.fenced := by
  simpa using congrArg Package.fenced h.pkg

theorem MemPath.featAck {s t : State} (h : MemPath s t) : t.pkg.featAck = s.pkg.featAck := by
  simpa using congrArg Package.featAck h.pkg

theorem routeOf_denied {s : State} {g : Agent} {need : Need} {w : Nat} {va pte : Word} {up : Nat}
    (hp : permits pte need g.user = false) : routeOf s g need w va pte up = .bad Cause.access := by
  rw [routeOf, if_neg (by simp [hp])]

/-- Where an access that a page permits goes in DRAM: to its home, where that is on no fenced die (13 R317), with the
attributes of the page (09 R213; 17 R377). -/
def State.pageRoute (s : State) (pa : Nat) (pte : Word) : Route :=
  if s.homeDie pa ∈ s.pkg.fenced then .bad Cause.dieFence
  else .to (.dram pa (!s.pkg.featAck.getLsbD 1 || wbit pte 11) (wbit pte 63) (s.pkg.featAck.getLsbD 2 && wbit pte 12))

theorem routeOf_permitted {s : State} {g : Agent} {need : Need} {w : Nat} {va pte : Word} {up : Nat}
    (hp : permits pte need g.user = true) (hcol : g.col = none) (hd : s.inDram (physOf pte up va) = true) :
    routeOf s g need w va pte up = s.pageRoute (physOf pte up va) pte := by
  have hwall : s.firewall g need (physOf pte up va) w = true := by rw [State.firewall, hcol]
  simp [routeOf, hp, hwall, hd, State.targetOf, State.pageRoute]

theorem State.pageRoute_marked (s : State) (pa : Nat) (pte : Word) (d : Bool) :
    s.pageRoute pa (marked pte d) = s.pageRoute pa pte := by
  have hbit {i : Nat} (h5 : i ≠ 5) (h6 : i ≠ 6) := wbit_marked pte d h5 h6
  simp [State.pageRoute, hbit]

theorem MemPath.pageRoute {s t : State} (h : MemPath s t) (pa : Nat) (pte : Word) :
    t.pageRoute pa pte = s.pageRoute pa pte := by
  rw [State.pageRoute, h.homeDie, h.fenced, h.featAck, ← State.pageRoute]

theorem State.pageRoute_dram {s : State} {pa : Nat} {pte : Word} {x : Target} (h : s.pageRoute pa pte = .to x) :
    ∃ p mca nc cmp, x = .dram p mca nc cmp := by
  unfold State.pageRoute at h
  split at h
  · cases h
  · exact ⟨_, _, _, _, (Route.to.inj h).symm⟩

/-! ### The route of an access through a leaf in a calm state (15 R340, R342) -/

/-- The leaf's entry is used with the bits that the walk sets in it. -/
theorem Walks.translate_leaf {g : Agent} {a : Word} {w : Nat} {s : State} (h : Walks g a w s) (need : Need)
    (hq : Calm s) {pte : Word} {at_ up : Nat} (hw : s.walk (s.rootOf g.gang) a = .leaf pte at_ up) :
    ∃ t d, MemPath s t ∧ Machine.translate g a w need s = (routeOf t g need w a (marked pte d) up, t) := by
  have hfst : (walkFill g g.die (sliceOf a.toNat) a need s).1 =
      .ok (marked pte (need.stores && wbit pte 2)) up := by
    rw [walkFill, walkTwice_of_some (walkOnce_calm_leaf need hq hw), fillWith_fst (walkOnce_calm_leaf need hq hw)]
  have hpath := memPath_walkFill g g.die (sliceOf a.toNat) a need s
  rw [h.translate]
  generalize walkFill g g.die (sliceOf a.toNat) a need s = r at hfst hpath
  obtain ⟨x, t⟩ := r
  obtain rfl : x = _ := hfst
  exact ⟨t, _, hpath, walkRoute_ok g a w need _ up t⟩

/-- 09 R217: a page that does not permit the access. -/
theorem Walks.route_denied {g : Agent} {a : Word} {w : Nat} {s : State} (h : Walks g a w s) {need : Need}
    (hq : Calm s) {pte : Word} {at_ up : Nat} (hw : s.walk (s.rootOf g.gang) a = .leaf pte at_ up)
    (hp : permits pte need g.user = false) : ∃ t, route g a w need s = (.bad Cause.access, t) := by
  obtain ⟨t, d, -, ht⟩ := h.translate_leaf need hq hw
  rw [routeOf_denied (by rw [permits_marked, hp])] at ht
  exact ⟨t, by rw [route_eq_translate h.canonical h.aligned h.outside (by rw [ht]; nofun), ht]⟩

/-- 09 R217; 13 R317: a page that permits the access. -/
theorem Walks.route_permitted {g : Agent} {a : Word} {w : Nat} {s : State} (h : Walks g a w s) {need : Need}
    (hq : Calm s) {pte : Word} {at_ up : Nat} (hw : s.walk (s.rootOf g.gang) a = .leaf pte at_ up)
    (hp : permits pte need g.user = true) (hcol : g.col = none) (hd : s.inDram (physOf pte up a) = true) :
    ∃ t, route g a w need s = (s.pageRoute (physOf pte up a) pte, t) := by
  obtain ⟨t, d, hpath, ht⟩ := h.translate_leaf need hq hw
  rw [routeOf_permitted (by rw [permits_marked, hp]) hcol (by rw [physOf_marked, hpath.inDram, hd]), physOf_marked,
    State.pageRoute_marked, hpath.pageRoute] at ht
  refine ⟨t, ?_⟩
  rw [route_eq_translate h.canonical h.aligned h.outside, ht]
  rw [ht]
  exact fun x hx => State.pageRoute_dram hx

/-- Settles O59: the checks of an address and its windows from the branches of `route`, the walk level by level, and the
route of a walked address in a calm state, where nothing changes the tables between the walk's reads and its CAS. -/
theorem addressesAreRouted : Obligations.AddressesAreRouted := by
  unfold Obligations.AddressesAreRouted
  refine ⟨fun g a w need s h => route_misformed need s h,
    fun g o w need s cl sh hg hs hcl hn hf ho ha hw => route_own hg hs hcl hn hf ho ha hw,
    fun g k o w need s hk ho hs => route_window_bad (inWindow_rankAddr hk ho)
      (windowRoute_no_share w need (windowOf_rankAddr hk ho) hs),
    State.walk_levels, ?_, fun j at_ pte d s t => casEntry_none, fun j at_ pte d e s t => casEntry_some,
    fun s g a w need hc ha hw hm hn => Walks.route_contended ⟨hc, ha, hw, hm⟩ need hn⟩
  intro s g a w need x hc ha hw hx hm
  have h : Walks g a w s := ⟨hc, ha, hw, hm⟩
  have hroot : s.rootOf g.gang = x.root := by rw [State.rootOf, hx]
  rw [← hroot]
  refine ⟨h.route_poisoned need, fun hst hpo => ?_⟩
  have hq : Calm s := ⟨hst, hpo⟩
  refine ⟨fun c l hl => ⟨h.route_missed need hq hl, (hq.walkReads 4 _ 0).dram⟩,
    fun pte at_ up hl hp => h.route_denied hq hl hp, fun pte at_ up hl hp hcol => ?_⟩
  rw [← physOf]
  intro pa hd
  subst pa
  obtain ⟨t, ht⟩ := h.route_permitted hq hl hp hcol hd
  rw [State.pageRoute] at ht
  constructor
  · intro hf
    rw [if_pos hf] at ht
    exact ⟨t, ht⟩
  · intro hf
    rw [if_neg hf] at ht
    exact ⟨t, _, _, _, ht, rfl, rfl, rfl⟩

end Sys2Proof.Machine
end

section
/-!
PROOF. The words of the FPU and FMA classes and FCMP (O17, O18, O19): what the model's operations in a format come to for
one word, the two halves of a pair word, and each word's shape.
-/

namespace Sys2Proof.Machine

/-! ### Operations in a format (06 R150, R156) -/

theorem addIn_add (f : Fmt) (r : Rnd) (t : Thread) (x y : Nat) :
    addIn f r false t x y =
      addFp f (rndMode r t.fmode) t.ftz false (unpack f t.daz x) (unpack f t.daz y) := rfl

theorem addIn_sub (f : Fmt) (r : Rnd) (t : Thread) (x y : Nat) :
    addIn f r true t x y =
      addFp f (rndMode r t.fmode) t.ftz false (unpack f t.daz x) (unpack f t.daz y).neg := rfl

theorem mulIn_eq (f : Fmt) (r : Rnd) (t : Thread) (x y : Nat) :
    mulIn f r t x y = mulFp f (rndMode r t.fmode) t.ftz (unpack f t.daz x) (unpack f t.daz y) := rfl

theorem fmaIn_add (f : Fmt) (r : Rnd) (neg : Bool) (t : Thread) (x y z : Nat) :
    fmaIn f r false neg t x y z =
      fmaFp f (rndMode r t.fmode) t.ftz neg (unpack f t.daz x) (unpack f t.daz y) (unpack f t.daz z) := rfl

theorem fmaIn_sub (f : Fmt) (r : Rnd) (neg : Bool) (t : Thread) (x y z : Nat) :
    fmaIn f r true neg t x y z =
      fmaFp f (rndMode r t.fmode) t.ftz neg (unpack f t.daz x) (unpack f t.daz y) (unpack f t.daz z).neg := rfl

/-! ### Shapes whose value has a second form -/

theorem GivesFFF.congr {mk : Reg → Reg → Reg → Instr} {f g : Thread → Nat → Nat → FRes} (h : GivesFFF mk f)
    (hv : ∀ t x y, f t x y = g t x y) : GivesFFF mk g := by
  obtain rfl : f = g := funext fun t => funext fun x => funext fun y => hv t x y
  exact h

theorem GivesFFFF.congr {mk : Reg → Reg → Reg → Reg → Instr} {f g : Thread → Nat → Nat → Nat → FRes}
    (h : GivesFFFF mk f) (hv : ∀ t x y z, f t x y z = g t x y z) : GivesFFFF mk g := by
  obtain rfl : f = g := funext fun t => funext fun x => funext fun y => funext fun z => hv t x y z
  exact h

theorem GivesFX.congr {mk : Reg → Reg → Instr} {f g : Thread → Word → FRes} (h : GivesFX mk f)
    (hv : ∀ t x, f t x = g t x) : GivesFX mk g := by
  obtain rfl : f = g := funext fun t => funext fun x => hv t x
  exact h

/-! ### Pairs (06 R155, R156) -/

theorem pair2_eq_onPairs2 (op : Nat → Nat → FRes) : pair2 op = onPairs2 op := rfl

theorem pair3_eq_onPairs3 (op : Nat → Nat → Nat → FRes) : pair3 op = onPairs3 op := rfl

/-- A pair word does to each half what its operation does (06 R155). -/
theorem givesFFF_onPairs {mk : Reg → Reg → Reg → Instr} {op g : Thread → Nat → Nat → FRes}
    (hx : ∀ d a b s, exec (mk d a b) s = wordFFF (mk d a b) d a b (fun t => pair2 (op t)) s)
    (hv : ∀ t x y, op t x y = g t x y) : GivesFFF mk fun t => onPairs2 (g t) := by
  refine (givesFFF_of _ hx).congr fun t x y => ?_
  have hop : op t = g t := funext fun x => funext fun y => hv t x y
  rw [pair2_eq_onPairs2, hop]

/-- A fused pair word does to each half what its operation does (06 R156). -/
theorem givesFFFF_onPairs {mk : Reg → Reg → Reg → Reg → Instr} {op g : Thread → Nat → Nat → Nat → FRes}
    (hx : ∀ d a b c s, exec (mk d a b c) s = wordFFFF (mk d a b c) d a b c (fun t => pair3 (op t)) s)
    (hv : ∀ t x y z, op t x y z = g t x y z) : GivesFFFF mk fun t => onPairs3 (g t) := by
  refine (givesFFFF_of _ hx).congr fun t x y z => ?_
  have hop : op t = g t := funext fun x => funext fun y => funext fun z => hv t x y z
  rw [pair3_eq_onPairs3, hop]

/-! ### Function words, conversions and comparison (06 R152, R154, R157) -/

/-- 06 R152: a function word gives the approximation of its function. -/
theorem givesFF_fn {mk : Reg → Reg → Instr} (g : Fn) (r : Rnd)
    (hx : ∀ d a s, exec (mk d a) s = wordFF (mk d a) d a (fnIn g r) s) :
    GivesFF mk fun t x => fnBits g t.ver1 (rndMode r t.fmode) t.daz t.ftz x :=
  givesFF_of (fnIn g r) hx

/-- 06 R154: a conversion between formats takes the bits of its source format. -/
theorem givesFF_conv {mk : Reg → Reg → Instr} (g f : Fmt) (r : Rnd)
    (hx : ∀ d a s, exec (mk d a) s = wordFF (mk d a) d a (convIn g f r) s) :
    GivesFF mk fun t x => convF g f (rndMode r t.fmode) t.daz t.ftz (x % 2 ^ g.w) :=
  givesFF_of (convIn g f r) hx

/-- 06 R157: FCMP pops its operands, joins the flags and writes its predicate. -/
theorem completes_fcmp {p : Place} {s : State} {c : Fcc} {n : Pred} {a b : Reg} (h : Clear (.fcmp c n a b) p s)
    (hf : FReady (.fcmp c n a b) p s [a, b] []) :
    Completes (.fcmp c n a b) p s fun s₁ =>
      let s := readF p [a, b] s₁
      let r := fcmpBits c (s.thread p).daz (fBits p a s) (fBits p b s)
      putP p n r.1 (orFlags p r.2 (popAll p [a, b] s)) := by
  obtain ⟨hok, hpops⟩ := hf
  refine completes_of_ok (exec_fcmp c n a b s) h ?_
  rw [withF_ok hok hpops]
  simp only [setPred_ctx h.issues.context, fBits]

/-! ### The statements -/

/-- Settles O17: each word has its shape with the model's own operation, which is that of the statement. -/
theorem fpuArithmeticWritesRoundedResult : Obligations.FpuArithmeticWritesRoundedResult := by
  unfold Obligations.FpuArithmeticWritesRoundedResult
  refine ⟨fun r => ?fadd, fun r => ?fsub, fun r => ?fmul, fun r => ?fdiv, fun r => ?fsqrt, fun r => ?frcp,
    fun r => ?frsq, fun r => ?fexp2, fun r => ?flog2, fun r => ?fsin, fun r => ?fcos⟩
  case fadd => exact (givesFFF_of _ (exec_fadd r)).congr (addIn_add fp32 r)
  case fsub => exact (givesFFF_of _ (exec_fsub r)).congr (addIn_sub fp32 r)
  case fmul => exact (givesFFF_of _ (exec_fmul r)).congr (mulIn_eq fp32 r)
  case fdiv => exact givesFFF_of _ (exec_fdiv r)
  case fsqrt => exact givesFF_of _ (exec_fsqrt r)
  case frcp => exact givesFF_fn .rcp r (exec_frcp r)
  case frsq => exact givesFF_fn .rsq r (exec_frsq r)
  case fexp2 => exact givesFF_fn .exp2 r (exec_fexp2 r)
  case flog2 => exact givesFF_fn .log2 r (exec_flog2 r)
  case fsin => exact givesFF_fn .sin r (exec_fsin r)
  case fcos => exact givesFF_fn .cos r (exec_fcos r)

/-- Settles O18: each fused word has its shape with one rounding of the sum, and a pair word does its operation on each
half. -/
theorem fusedAndPairWordsRoundOnce : Obligations.FusedAndPairWordsRoundOnce := by
  unfold Obligations.FusedAndPairWordsRoundOnce
  refine ⟨fun r => ?fma, fun r => ?fms, fun r => ?fnma, fun r => ?fnms, fun r => ?hfma2, fun r => ?hfma2h,
    fun r => ?hadd2, fun r => ?hmul2, fun r => ?hmin2, fun r => ?hmax2⟩
  case fma => exact (givesFFFF_of _ (exec_fma r)).congr (fmaIn_add fp32 r false)
  case fms => exact (givesFFFF_of _ (exec_fms r)).congr (fmaIn_sub fp32 r false)
  case fnma => exact (givesFFFF_of _ (exec_fnma r)).congr (fmaIn_add fp32 r true)
  case fnms => exact (givesFFFF_of _ (exec_fnms r)).congr (fmaIn_sub fp32 r true)
  case hfma2 => exact givesFFFF_onPairs (exec_hfma2 r) (fmaIn_add bf16 r false)
  case hfma2h => exact givesFFFF_onPairs (exec_hfma2h r) (fmaIn_add fp16 r false)
  case hadd2 => exact givesFFF_onPairs (exec_hadd2 r) (addIn_add bf16 r)
  case hmul2 => exact givesFFF_onPairs (exec_hmul2 r) (mulIn_eq bf16 r)
  case hmin2 => exact givesFFF_onPairs (op := fun t => minmaxBits bf16 false t.daz t.ftz) (exec_hmin2 r) fun _ _ _ => rfl
  case hmax2 => exact givesFFF_onPairs (op := fun t => minmaxBits bf16 true t.daz t.ftz) (exec_hmax2 r) fun _ _ _ => rfl

/-- Settles O19: each word has its shape with the operation of the statement; I2F reads xa as a signed number. -/
theorem fpuSelectConvertMoveWriteStatedResult : Obligations.FpuSelectConvertMoveWriteStatedResult := by
  unfold Obligations.FpuSelectConvertMoveWriteStatedResult
  refine ⟨fun r => ?fmin, fun r => ?fmax, fun r => ?fabs, fun r => ?fneg, fun r => ?fsgnj, fun r => ?fclass,
    fun r => ?f2i, fun r => ?f2iu, fun r => ?i2f, fun r => ?iu2f, fun r => ?f2bf, fun r => ?bf2f, fun r => ?f2h,
    fun r => ?h2f, fun r => ?fmvXf, fun r => ?fmvFx, fun p s c n a b h hf => completes_fcmp h hf⟩
  case fmin => exact givesFFF_of _ (exec_fmin r)
  case fmax => exact givesFFF_of _ (exec_fmax r)
  case fabs => exact givesFF_of _ (exec_fabs r)
  case fneg => exact givesFF_of _ (exec_fneg r)
  case fsgnj => exact givesFFF_of _ (exec_fsgnj r)
  case fclass => exact givesXF_of _ (exec_fclass r)
  case f2i => exact givesXF_of _ (exec_f2i r)
  case f2iu => exact givesXF_of _ (exec_f2iu r)
  case i2f => exact (givesFX_of _ (exec_i2f r)).congr fun t x => by rw [sgn_eq]
  case iu2f => exact givesFX_of _ (exec_iu2f r)
  case f2bf => exact givesFF_conv fp32 bf16 r (exec_f2bf r)
  case bf2f => exact givesFF_conv bf16 fp32 r (exec_bf2f r)
  case f2h => exact givesFF_conv fp32 fp16 r (exec_f2h r)
  case h2f => exact givesFF_conv fp16 fp32 r (exec_h2f r)
  case fmvXf => exact givesXF_of _ (exec_fmvXf r)
  case fmvFx => exact givesFX_of _ (exec_fmvFx r)

end Sys2Proof.Machine
end

section
/-!
SUPPORT. What a word that a context issues comes to, with the releases, posts and target checks that the words of the
gatherer share.
-/

namespace Sys2Proof.Machine

/-! ### What a word comes to -/

/-- The word i, issued at p, comes to the result r. -/
def ComesTo (i : Instr) (p : Place) (s : State) (r : Res) : Prop :=
  ∃ body : Body, exec i s = issueWord i body s ∧ body { act := [p], pre := atIssue i p s } p (atIssue i p s) = r

section
variable {i : Instr} {p : Place} {s u : State}

theorem ComesTo.traps {c : Nat} {v : Word} {e : State → State} (h : ComesTo i p s (.trap u c v)) (hc : Clear i p s)
    (he : e (atIssue i p s) = u) : Traps i p s c v e := by
  obtain ⟨body, hx, hb⟩ := h
  exact traps_of_trap hx hc (hb.trans (by rw [he]))

theorem ComesTo.blocks {w : Wait} {e : State → State} (h : ComesTo i p s (.wait u w)) (hc : Clear i p s)
    (he : e (atIssue i p s) = u) : Blocks i p s w e := by
  obtain ⟨body, hx, hb⟩ := h
  exact blocks_of_wait hx hc (hb.trans (by rw [he]))

theorem ComesTo.completes {e : State → State} (h : ComesTo i p s (.ok u)) (hc : Clear i p s)
    (he : e (atIssue i p s) = u) : Completes i p s e := by
  obtain ⟨body, hx, hb⟩ := h
  exact completes_of_ok hx hc (hb.trans (by rw [he]))

theorem Hidden.leaves {t : State} (h : Hidden s t) (p : Place) : Leaves p s t := by
  obtain ⟨regs, pc, runs, count, -⟩ := h.threads p
  exact ⟨regs, pc, runs, count, h.beside p⟩

theorem ComesTo.completesAway {e : State → State} (h : ComesTo i p s (.left u)) (hc : Clear i p s)
    (he : e (atIssue i p s) = u) : CompletesAway i p s e := by
  obtain ⟨body, hx, hb⟩ := h
  obtain ⟨t, ht, hh⟩ := issueWord_of_clear i body p s hc
  rw [hb] at hh
  exact ⟨t, hx.trans ht, Hidden.leaves (he ▸ hh) p⟩

end

/-! ### Releases (09 R206; 10 R233) -/

theorem releaseThen_waits {p : Place} {sc : Scope} {m : Bool} {s : State} (k : State → Res)
    (h : ((pushAll p s).thread p).pushing = true) :
    releaseThen p sc m s k = .wait (pushAll p s) (.waiting 0 0) := by
  simp only [releaseThen, releaseOr, h, if_true]

theorem releaseThen_goes {p : Place} {sc : Scope} {m : Bool} {s : State} (k : State → Res)
    (h : ((pushAll p s).thread p).pushing = false) :
    releaseThen p sc m s k = k (releaseStores p sc m (pushAll p s)) := by
  simp only [releaseThen, releaseOr, h, Bool.false_eq_true, if_false]

/-! ### Posts: left to a later turn, taken by a bucket, or waiting for one (08 R183, R195) -/

theorem sendPost_split {cl : Nat} {q : Post} {s : State} (fin : State → Res) (h : s.split = true) :
    sendPost cl q s fin = .wait (s.modCluster cl fun c => { c with posts := c.posts ++ [q] }) (.posting 0) := by
  rw [sendPost, if_pos h]

theorem sendPost_enters {cl : Nat} {q : Post} {s t : State} (fin : State → Res) (h : s.split = false)
    (he : enterBucket cl q s = some t) : sendPost cl q s fin = fin (posted q t) := by
  rw [sendPost, h, if_neg Bool.false_ne_true, he]

theorem sendPost_queued {cl : Nat} {q : Post} {s : State} (fin : State → Res) (h : s.split = false)
    (he : enterBucket cl q s = none) : sendPost cl q s fin =
      .wait (s.modCluster cl fun c => { c with posts := c.posts ++ [{ q with queued := true }] }) (.posting 0) := by
  rw [sendPost, h, if_neg Bool.false_ne_true, he]

/-! ### Targets and registers -/

/-- No word can stand at the target: it is misaligned, or not canonical. -/
def Misplaced (pc : Word) : Prop := pc.toNat % 4 ≠ 0 ∨ canonical pc = false

theorem misplaced_iff (pc : Word) : (decide (pc.toNat % 4 ≠ 0) || !canonical pc) = true ↔ Misplaced pc := by
  simp [Misplaced]

theorem reg_ofNat (n : Nat) (h : n < 32) : Fin.ofNat 32 n = (⟨n, h⟩ : Reg) := Fin.ext (Nat.mod_eq_of_lt h)

end Sys2Proof.Machine
end

section
/-!
PROOF. The mailbox words (O44): what MBPOST, MBWAIT, GFLUSH and MGPT come to.
-/

namespace Sys2Proof.Machine

/-! ### MBPOST -/

/-- The post that an MBPOST of the thread at p makes, with the request's lane (08 R186). -/
def mailPost (p : Place) (d b : Reg) (pc : Word) (s : State) : Post :=
  let t := s.thread p
  let r : Reply := { core := p.coreNum, ctx := p.ctxNum, idx := d.val }
  { gang := t.gang, rank := t.rank, migr := false, pc := pc, queued := false,
    entry :=
      { place := p, n := s.reqCtr, thread := requestLane t pc (t.getX b) (t.getX (Fin.ofNat 32 (b.val + 1))) r } }

theorem mailPost_eq {p : Place} {d b : Reg} {pc : Word} {s : State} (hb : b.val + 1 < 32) :
    let t := s.thread p
    let r : Reply := { core := p.coreNum, ctx := p.ctxNum, idx := d.val }
    mailPost p d b pc s =
      { gang := t.gang, rank := t.rank, migr := false, pc := pc, queued := false,
        entry := { place := p, n := s.reqCtr, thread := { Thread.blank with
          gang := t.gang, rank := t.rank, x := (Thread.blank.x.set 2 (t.getX b)).set 3 (t.getX ⟨b.val + 1, hb⟩),
          pc := pc, run := .running, fmode := t.fmode, nbv := t.nbv, reply := some r } } } := by
  rw [mailPost, reg_ofNat (b.val + 1) hb]
  rfl

/-- What an MBPOST of the thread at p comes to from s, its target read: the checks in their order, the release and the
post (08 R195). -/
def mailRes (p : Place) (d b : Reg) (pc : Word) (s : State) : Res :=
  let t := s.thread p
  if pc.toNat % 4 ≠ 0 || !canonical pc then .trap s Cause.access pc
  else if b.val = 31 then .trap s Cause.mailbox 3
  else if (gangDesc t.gang s).1 = 0 then .trap s Cause.mailbox 2
  else if t.qpres.getLsbD d || t.qout.getLsbD d then .trap s Cause.mailbox 1
  else releaseThen p .cl true s fun s => sendPost (p.cluster?.getD 0) (mailPost p d b pc s) s .ok

theorem mbpost_comesTo {d a b : Reg} {p : Place} {s : State} (h : Clear (.mbpost d a b) p s) :
    ComesTo (.mbpost d a b) p s
      (mailRes p d b (getX p a (atIssue (.mbpost d a b) p s)) (atIssue (.mbpost d a b) p s)) := by
  refine ⟨_, exec_mbpost d a b s, ?_⟩
  dsimp only
  rw [atIssue_waitOf h.issues]
  rfl

section
variable {p : Place} {d b : Reg} {pc : Word} {s : State}

theorem mailRes_misplaced (h : Misplaced pc) : mailRes p d b pc s = .trap s Cause.access pc :=
  if_pos ((misplaced_iff pc).mpr h)

theorem mailRes_no_pair (h : ¬ Misplaced pc) (hb : b.val = 31) : mailRes p d b pc s = .trap s Cause.mailbox 3 := by
  rw [mailRes, if_neg (mt (misplaced_iff pc).mp h), if_pos hb]

theorem mailRes_no_waves (h : ¬ Misplaced pc) (hb : b.val ≠ 31) (hg : (gangDesc (s.thread p).gang s).1 = 0) :
    mailRes p d b pc s = .trap s Cause.mailbox 2 := by
  rw [mailRes, if_neg (mt (misplaced_iff pc).mp h), if_neg hb, if_pos hg]

theorem mailRes_busy (h : ¬ Misplaced pc) (hb : b.val ≠ 31) (hg : (gangDesc (s.thread p).gang s).1 ≠ 0)
    (hd : (s.thread p).qpres.getLsbD d = true ∨ (s.thread p).qout.getLsbD d = true) :
    mailRes p d b pc s = .trap s Cause.mailbox 1 := by
  rw [mailRes, if_neg (mt (misplaced_iff pc).mp h), if_neg hb, if_neg hg, if_pos (Bool.or_eq_true .. ▸ hd)]

theorem mailRes_posts (h : ¬ Misplaced pc) (hb : b.val ≠ 31) (hg : (gangDesc (s.thread p).gang s).1 ≠ 0)
    (hd : ¬ ((s.thread p).qpres.getLsbD d = true ∨ (s.thread p).qout.getLsbD d = true)) :
    mailRes p d b pc s =
      releaseThen p .cl true s fun s => sendPost (p.cluster?.getD 0) (mailPost p d b pc s) s .ok := by
  rw [mailRes, if_neg (mt (misplaced_iff pc).mp h), if_neg hb, if_neg hg, if_neg (Bool.or_eq_true .. ▸ hd)]

end

/-! ### GFLUSH -/

theorem gflush_closes (p : Place) (a : Reg) (s : State) (b : Bucket) :
    (if b.st == .opened && b.gang == (s.thread p).gang && (a == 0 || b.pc == (s.thread p).getX a)
      then b.closeNow s.clk else b) =
    if b.st = .opened ∧ b.gang = (s.thread p).gang ∧ (a = 0 ∨ b.pc = (s.thread p).getX a)
      then { b with tmo := min b.tmo (s.clk - b.t0) } else b := by
  simp only [Bool.and_eq_true, Bool.or_eq_true, beq_iff_eq, and_assoc, Bucket.closeNow]

/-! ### The statement -/

/-- Settles O44: MBPOST comes to its first failing check, or to its release and its post; the other words come to what
their meaning says. -/
theorem mailboxWordsPostAndWait : Obligations.MailboxWordsPostAndWait := by
  unfold Obligations.MailboxWordsPostAndWait
  refine ⟨fun p s d a b h => ?mbpost, fun p s d a b h => ?later, fun p s d q h => ?mbwait, fun p s a h => ?gflush,
    fun p s h => ?mgpt⟩
  case mbpost =>
    have e := mbpost_comesTo h
    refine ⟨fun ho => ?access, fun ho hl => ?pair, fun ho hl hg => ?gang, fun ho hl hg hb => ?busy,
      fun ho hn hg hb => ?posts⟩
    case access => exact (mailRes_misplaced ho ▸ e).traps h rfl
    case pair => exact (mailRes_no_pair ho hl ▸ e).traps h rfl
    case gang => exact (mailRes_no_waves ho hl hg ▸ e).traps h rfl
    case busy => exact (mailRes_busy ho hl hg hb ▸ e).traps h rfl
    case posts =>
      rw [mailRes_posts ho (by omega) hg hb] at e
      refine ⟨fun hp => (releaseThen_waits _ hp ▸ e).blocks h rfl, fun hp => ?_⟩
      rw [releaseThen_goes _ hp, mailPost_eq hn] at e
      exact ⟨fun hs => (sendPost_split _ hs ▸ e).blocks h rfl,
        fun s₃ hs he => (sendPost_enters _ hs he ▸ e).completes h rfl,
        fun hs he => (sendPost_queued _ hs he ▸ e).blocks h rfl⟩
  case later =>
    refine completesLater_of_ok (exec_mbpost d a b s) h ?_
    simp [waitOf, h.waits]
  case mbwait =>
    intro t
    refine ⟨fun hp => ?takes, fun hp ho => ?idle, fun hp ho => ?waits⟩
    case takes =>
      refine completes_of_ok (exec_mbwait d q s) h ?_
      rw [if_pos hp, setX_ctx h.issues.context]
    case idle =>
      refine traps_of_trap (e := id) (exec_mbwait d q s) h ?_
      rw [if_neg (Bool.eq_false_iff.mp hp), ho]
      rfl
    case waits =>
      refine blocks_of_wait (e := id) (exec_mbwait d q s) h ?_
      rw [if_neg (Bool.eq_false_iff.mp hp), ho]
      rfl
  case gflush =>
    refine completes_of_ok (exec_gflush a s) h ?_
    simp only [gflush_closes]
  case mgpt => exact completes_of_ok (exec_mgpt s) h rfl

end Sys2Proof.Machine
end

section
/-!
SUPPORT. A word of a wave whose one lane runs it: what the lane stands in before the word, and where a wait leaves it.
-/

namespace Sys2Proof.Machine

/-! ### The lanes of a wave that run (07 R162, R163) -/

theorem State.thread_of_key (s : State) {p q : Place} (h : p.key = q.key) : s.thread p = s.thread q := by
  rw [State.thread, State.thread?, h, ← State.thread?, ← State.thread]

theorem State.cluster_of_clusters {s t : State} (h : t.clusters = s.clusters) (cl : Nat) :
    t.cluster cl = s.cluster cl := by
  rw [State.cluster, h, State.cluster]

theorem State.cluster_modThread (s : State) (p : Place) (f : Thread → Thread) (cl : Nat) :
    (s.modThread p f).cluster cl = s.cluster cl := rfl

theorem exists_lane_of_mem_lanes {s : State} {cl e sl : Nat} {p : Place} (h : p ∈ s.lanes cl e sl) :
    ∃ ln, p = .lane cl e sl ln := by
  obtain ⟨ln, -, hln⟩ := List.mem_filterMap.mp h
  split at hln
  · exact ⟨ln, (Option.some.inj hln).symm⟩
  · cases hln

theorem mem_runners_of_mem_standing {s : State} {u : Crew} {p : Place} (h : p ∈ s.standing u) : p ∈ s.runners u := by
  unfold State.standing at h
  dsimp only at h
  split at h
  · exact (List.mem_filter.mp h).1
  · cases h

/-- A lane for which a wave issues is one of its lanes, and runs. -/
theorem lane_of_mem_standing {s : State} {cl e sl : Nat} {p : Place} (h : p ∈ s.standing (.wave cl e sl)) :
    (∃ ln, p = .lane cl e sl ln) ∧ (s.thread p).run = .running := by
  obtain ⟨hlane, hruns⟩ := List.mem_filter.mp (mem_runners_of_mem_standing h)
  exact ⟨exists_lane_of_mem_lanes hlane, eq_of_beq hruns⟩

theorem Settles.run {p : Place} {s t : State} (h : Settles p s t) (q : Place) :
    (t.thread q).run = (s.thread q).run := by
  by_cases hk : q.key = p.key
  · have hkept : (t.thread p).kept.run = (s.thread p).kept.run := congrArg Thread.run h.kept
    rw [t.thread_of_key hk, s.thread_of_key hk]
    exact hkept
  · rw [h.others q hk]

theorem run_modThread {f : Thread → Thread} (hf : ∀ t, (f t).run = t.run) (p q : Place) (s : State) :
    ((s.modThread p f).thread q).run = (s.thread q).run := by
  by_cases hk : q.key = p.key
  · rw [State.thread_of_key _ hk, s.thread_of_key hk, State.thread_modThread_self, hf]
  · rw [State.thread_modThread_of_ne _ _ _ _ hk]

/-- What the lanes do before a word leaves every thread in its condition. -/
theorem prepLanes_run (i : Instr) (ls : List Place) (s : State) (q : Place) :
    ((prepLanes i ls s).thread q).run = (s.thread q).run := by
  unfold prepLanes
  induction ls generalizing s with
  | nil => rfl
  | cons p ls ih =>
    rw [List.foldl_cons, ih]
    have hcount := run_modThread (f := fun t =>
      { t with entered := false, pace := if isPace i then t.pace else t.pace.tail }) (fun _ => rfl) p q s
    dsimp only
    split
    · exact hcount
    · exact ((settles_forceRegs i p _).run q).trans hcount

/-! ### A word of a wave's one lane (07 R165) -/

theorem wordFault_none {i : Instr} {p : Place} {s : State} (h : decodeFault i p (s.thread p) = none) :
    wordFault i { act := [p], pre := s } p = none := by
  cases p with
  | lane cl e sl ln => simp [wordFault, h]
  | ctx cl c k => exact h
  | lctx l c k => exact h

/-- The word of a wave whose one lane runs it waits: the lane is left in its wait, and the wave has issued. -/
theorem exec_of_lane_waits {i : Instr} {body : Body} {cl e sl : Nat} {p : Place} {s pre u : State} {w : Wait}
    (hx : exec i s = issueWord i body s) (h : WaveRuns i cl e sl [p] s pre)
    (hp : (landWave cl e sl s).standing (.wave cl e sl) = [p])
    (hb : body { act := [p], pre := pre } p pre = .wait u w) :
    exec i s = .next (waveIssued i cl e sl ((landWave cl e sl s).thread p).pc
      (u.modThread p fun t => { t with run := .wait i w })) := by
  obtain ⟨⟨⟨b, hturn⟩, hstands, hbefore, hact, hsound⟩, hearly⟩ := h
  rw [hp] at hbefore hact
  have hmem : p ∈ activeOf i [p] pre := hact ▸ List.mem_singleton_self p
  have hon : ((pre.thread p).off && !isControl i) = false :=
    (Bool.not_eq_true' _).mp (List.mem_filter.mp hmem).2
  have hone : runOne i body { act := [p], pre := pre } p pre = .wait u w := by
    simp [runOne, hon, wordFault_none (hsound p (List.mem_singleton_self p)),
      hearly p (List.mem_singleton_self p), hb]
  have hlanes : runLanes i body { act := [p], pre := pre } [p] pre =
      u.modThread p fun t => { t with run := .wait i w } := by
    simp only [runLanes, List.foldl_cons, List.foldl_nil, hone]
    rfl
  rw [hx]
  simp only [issueWord, hturn, List.isEmpty_eq_false_iff.mpr hstands, Bool.false_eq_true, if_false, issueWave, hp,
    ← hbefore, ← hact, hlanes]
  simp [Thread.runs]

theorem foldl_modWave_frame (cl e : Nat) (f : Wave → Wave) (l : List Nat) (s : State) :
    (l.foldl (fun s j => s.modWave cl e j f) s).threads = s.threads ∧
      (l.foldl (fun s j => s.modWave cl e j f) s).clusters = s.clusters := by
  induction l generalizing s with
  | nil => exact ⟨rfl, rfl⟩
  | cons j l ih => simpa using ih (s.modWave cl e j f)

theorem waveIssued_thread (i : Instr) (cl e sl : Nat) (pc : Word) (s : State) (q : Place) :
    (waveIssued i cl e sl pc s).thread q = s.thread q := by
  unfold waveIssued
  split
  · simp
  · refine (State.thread_of_threads (foldl_modWave_frame ..).1 q).trans ?_
    simp

theorem waveIssued_migOrder (i : Instr) (cl e sl : Nat) (pc : Word) (s : State) :
    ((waveIssued i cl e sl pc s).cluster cl).migOrder = (s.cluster cl).migOrder := by
  unfold waveIssued
  split
  · rw [State.cluster_of_clusters (State.modWave_clusters ..)]
  · dsimp only
    rw [State.cluster_of_clusters (foldl_modWave_frame ..).2, State.cluster_modCluster_self,
      State.cluster_of_clusters (State.modWave_clusters ..)]

end Sys2Proof.Machine
end

section
/-!
PROOF. Migration (O45): a scalar thread that leaves for a bucket with its record, a lane that waits for a context, and
the placement of such a lane.
-/

namespace Sys2Proof.Machine

/-! ### MIGR up to the state that it saves (08 R195) -/

/-- What MIGR of the thread at p comes to from s, its target read: it ends any GUARD range, checks its target and its
mode, lands what is under way, and goes on as the engine has it. -/
def migrRes (p : Place) (pc : Word) (s : State) : Res :=
  let s := s.modThread p fun t => { t with grem := 0, gcnd := false }
  if pc.toNat % 4 ≠ 0 || !canonical pc then .trap s Cause.access pc
  else if (s.thread p).mode then .trap s Cause.migrState 1
  else withTarget p pc s fun s =>
    let s := (forceLoads p s).modThread p (·.landAll)
    if p.engine = .lane then migrLane p s else migrScalar p pc s

theorem migr_comesTo {a : Reg} {p : Place} {s : State} (h : Clear (.migr a) p s) :
    ComesTo (.migr a) p s (migrRes p (getX p a (atIssue (.migr a) p s)) (atIssue (.migr a) p s)) := by
  refine ⟨_, exec_migr a s, ?_⟩
  dsimp only
  rw [atIssue_waitOf h.issues]
  rfl

section
variable {p : Place} {pc : Word} {s : State}

theorem migrRes_misplaced (h : Misplaced pc) :
    migrRes p pc s = .trap (s.modThread p fun t => { t with grem := 0, gcnd := false }) Cause.access pc :=
  if_pos ((misplaced_iff pc).mpr h)

theorem migrRes_supervisor (h : ¬ Misplaced pc)
    (hm : ((s.modThread p fun t => { t with grem := 0, gcnd := false }).thread p).mode = true) :
    migrRes p pc s = .trap (s.modThread p fun t => { t with grem := 0, gcnd := false }) Cause.migrState 1 := by
  rw [migrRes, if_neg (mt (misplaced_iff pc).mp h), if_pos hm]

theorem migrRes_target (h : ¬ Misplaced pc)
    (hm : ((s.modThread p fun t => { t with grem := 0, gcnd := false }).thread p).mode = false) :
    migrRes p pc s = withTarget p pc (s.modThread p fun t => { t with grem := 0, gcnd := false }) fun s =>
      let s := (forceLoads p s).modThread p (·.landAll)
      if p.engine = .lane then migrLane p s else migrScalar p pc s := by
  rw [migrRes, if_neg (mt (misplaced_iff pc).mp h), if_neg (Bool.eq_false_iff.mp hm)]

theorem withTarget_bad {c : Nat} {t : State} (k : State → Res) (h : fetchLine p pc s = (.bad c, t)) :
    withTarget p pc s k = .trap t c pc := by
  rw [withTarget, h]

theorem withTarget_no_mgpt {l : BitVec 1024} {t : State} (k : State → Res) (h : fetchLine p pc s = (.line l, t))
    (hw : lineWord l pc ≠ 0xE8000005) : withTarget p pc s k = .trap t Cause.migrTarget pc := by
  rw [withTarget, h]
  exact if_neg hw

theorem withTarget_mgpt {l : BitVec 1024} {t : State} (k : State → Res) (h : fetchLine p pc s = (.line l, t))
    (hw : lineWord l pc = 0xE8000005) : withTarget p pc s k = k t := by
  rw [withTarget, h]
  exact if_pos hw

end

/-! ### MIGR of a scalar thread (08 R192, R193) -/

/-- The post that the thread at p makes as it leaves for pc. -/
def leavingPost (p : Place) (pc : Word) (s : State) : Post :=
  let t := s.thread p
  { gang := t.gang, rank := t.rank, migr := true, pc := pc, queued := false,
    entry := { place := p, n := s.reqCtr, thread := migrantLane t pc } }

section
variable {p : Place} {pc : Word} {s : State}

theorem migrScalar_bound (h : (s.thread p).strm.any (·.isSome) = true) :
    migrScalar p pc s = .trap s Cause.migrState 2 := if_pos h

variable (hs : (s.thread p).strm.any (·.isSome) = false)
include hs

theorem migrScalar_present (hq : (s.thread p).qpres ≠ 0) : migrScalar p pc s = .trap s Cause.migrState 3 := by
  rw [migrScalar, if_neg (Bool.eq_false_iff.mp hs), if_pos hq]

variable (hq : (s.thread p).qpres = 0)
include hq

theorem migrScalar_outstanding (ho : (s.thread p).qout ≠ 0) : migrScalar p pc s = .trap s Cause.migrState 4 := by
  rw [migrScalar, if_neg (Bool.eq_false_iff.mp hs), if_neg (not_not_intro hq), if_pos ho]

variable (ho : (s.thread p).qout = 0)
include ho

theorem migrScalar_no_waves (hg : (gangDesc (s.thread p).gang s).1 = 0) :
    migrScalar p pc s = .trap s Cause.migrState 5 := by
  rw [migrScalar, if_neg (Bool.eq_false_iff.mp hs), if_neg (not_not_intro hq), if_neg (not_not_intro ho), if_pos hg]

variable (hg : (gangDesc (s.thread p).gang s).1 ≠ 0)
include hg

theorem migrScalar_bad_record (hr : (s.thread p).mgrec.toNat % 128 ≠ 0) :
    migrScalar p pc s = .trap s Cause.access (s.thread p).mgrec := by
  rw [migrScalar, if_neg (Bool.eq_false_iff.mp hs), if_neg (not_not_intro hq), if_neg (not_not_intro ho), if_neg hg,
    if_pos hr]

/-- Once its record, if one, is written, the thread's stores are performed and it posts. -/
theorem migrScalar_leaves {v : State} (hr : (s.thread p).mgrec.toNat % 128 = 0)
    (hv : if (s.thread p).mgrec = 0 then v = s else StoresAll p (recordWords (s.thread p)) (s.thread p).mgrec s v) :
    migrScalar p pc s =
      sendPost (p.cluster?.getD 0) (leavingPost p pc (settleStores p v)) (settleStores p v) .left := by
  rw [migrScalar, if_neg (Bool.eq_false_iff.mp hs), if_neg (not_not_intro hq), if_neg (not_not_intro ho), if_neg hg,
    if_neg (not_not_intro hr)]
  split at hv
  · next h0 => rw [if_pos h0, hv]; rfl
  · next h0 => rw [if_neg h0, hv]; rfl

end

/-! ### The record (08 Table 08-2) -/

theorem ofN_halves (lo hi : W32) : ofN (lo.toNat + hi.toNat * 2 ^ 32) = (hi ++ lo : Word) := by
  apply BitVec.eq_of_toNat_eq
  have hlo := lo.isLt
  have hhi := hi.isLt
  rw [BitVec.toNat_append, ← Nat.shiftLeft_add_eq_or_of_lt hlo, Nat.shiftLeft_eq, ofN, BitVec.toNat_ofNat]
  omega

theorem map_range_eq_finRange {α : Type} (n : Nat) (f : Nat → α) :
    (List.range n).map f = (List.finRange n).map fun i => f i.val := by
  refine List.ext_getElem (by simp only [List.length_map, List.length_range, List.length_finRange]) fun i h₁ h₂ => ?_
  simp only [List.getElem_map, List.getElem_range, List.getElem_finRange, Fin.val_cast]

theorem recordWords_eq (t : Thread) : recordWords t =
    (List.finRange 8).map (fun i => t.getX ⟨24 + i.val, by omega⟩) ++
    (List.finRange 4).map (fun i => (t.getF ⟨25 + 2 * i.val, by omega⟩ ++ t.getF ⟨24 + 2 * i.val, by omega⟩ : Word)) ++
    [1, 0, 0, 0] := by
  have hx : ∀ i : Fin 8, t.getX (Fin.ofNat 32 (24 + i.val)) = t.getX ⟨24 + i.val, by omega⟩ := fun i =>
    congrArg t.getX (reg_ofNat (24 + i.val) (by omega))
  have hf : ∀ i : Fin 4, ofN ((t.getF (Fin.ofNat 32 (24 + 2 * i.val))).toNat +
      (t.getF (Fin.ofNat 32 (25 + 2 * i.val))).toNat * 2 ^ 32) =
      (t.getF ⟨25 + 2 * i.val, by omega⟩ ++ t.getF ⟨24 + 2 * i.val, by omega⟩ : Word) := fun i => by
    rw [reg_ofNat (24 + 2 * i.val) (by omega), reg_ofNat (25 + 2 * i.val) (by omega), ofN_halves]
  rw [recordWords, map_range_eq_finRange, map_range_eq_finRange]
  simp only [hx, hf]

/-! ### MIGR of a lane (08 R191, R195) -/

theorem addIc_threads (p : Place) (x : Line) (s : State) : (addIc p x s).threads = s.threads := by
  cases p <;> rfl

theorem fetchLine_threads (p : Place) (va : Word) (s : State) : (fetchLine p va s).2.threads = s.threads := by
  unfold fetchLine
  dsimp only
  split
  · rfl
  · have hroute := (memPath_route (s.agent p) (va - ofN (va.toNat % 4)) 4 .exec s).threads
    split
    all_goals (rename_i hr; rw [hr] at hroute)
    · exact hroute
    · exact hroute
    · exact hroute
    · split
      · exact hroute
      · rw [addIc_threads]
        split
        · exact (memPath_sliceLine ..).threads.trans hroute
        · exact ((memPath_settleLine ..).trans (memPath_homeServe ..)).threads.trans hroute
    · exact hroute

/-- A GUARD range that has ended stays so while the target is fetched and what is under way lands. -/
theorem grem_of_fetchLine {p : Place} {pc : Word} {s t : State} {l : BitVec 1024}
    (h : fetchLine p pc s = (.line l, t)) :
    (((forceLoads p t).modThread p (·.landAll)).thread p).grem = (s.thread p).grem := by
  have hfetch : t.threads = s.threads := by
    have e := fetchLine_threads p pc s
    rwa [h] at e
  have hkept : ((forceLoads p t).thread p).kept.grem = (t.thread p).kept.grem :=
    congrArg Thread.grem (settles_forceLoads p t).kept
  rw [State.thread_modThread_self, Thread.landAll_grem, ← State.thread_of_threads hfetch]
  exact hkept

theorem migrLane_waits {cl e sl ln : Nat} {s : State}
    (hg : (gangDesc (s.thread (.lane cl e sl ln)).gang s).2 ≠ 0)
    (hr : (s.thread (.lane cl e sl ln)).mgrec.toNat % 128 = 0) :
    migrLane (.lane cl e sl ln) s =
      .wait (s.modCluster cl fun c => { c with migOrder := c.migOrder + 1 }) (.migrating (s.cluster cl).migOrder) := by
  rw [migrLane, if_neg hg, if_neg (not_not_intro hr)]
  rfl

theorem WaveRuns.waitOf_none {i : Instr} {cl e sl : Nat} {act : List Place} {s pre : State} {p : Place}
    (h : WaveRuns i cl e sl act s pre) (hp : p ∈ (landWave cl e sl s).standing (.wave cl e sl)) :
    waitOf p pre = none := by
  rw [waitOf, h.before, prepLanes_run, (lane_of_mem_standing hp).2]

theorem migr_lane_waits {a : Reg} {cl e sl : Nat} {p : Place} {s pre : State} {u : State} {w : Wait}
    (h : WaveRuns (.migr a) cl e sl [p] s pre) (hp : (landWave cl e sl s).standing (.wave cl e sl) = [p])
    (hw : migrRes p (getX p a pre) pre = .wait u w) :
    exec (.migr a) s = .next (waveIssued (.migr a) cl e sl ((landWave cl e sl s).thread p).pc
      (u.modThread p fun t => { t with run := .wait (.migr a) w })) := by
  refine exec_of_lane_waits (exec_migr a s) h hp ?_
  dsimp only
  rw [h.waitOf_none (hp ▸ List.mem_singleton_self p)]
  exact hw

/-! ### The lane placed (08 R191) -/

theorem mem_insertBy {α : Type} (key : α → Nat) (x y : α) (l : List α) : y ∈ insertBy key x l ↔ y = x ∨ y ∈ l := by
  induction l with
  | nil => simp [insertBy]
  | cons z l ih =>
    rw [insertBy]
    split
    · simp
    · rw [List.mem_cons, ih, List.mem_cons, or_left_comm]

theorem mem_sortBy {α : Type} (key : α → Nat) (y : α) (l : List α) : y ∈ sortBy key l ↔ y ∈ l := by
  suffices ∀ acc, y ∈ l.foldl (fun acc x => insertBy key x acc) acc ↔ y ∈ acc ∨ y ∈ l by simpa [sortBy] using this []
  induction l with
  | nil => simp
  | cons x l ih =>
    intro acc
    rw [List.foldl_cons, ih, mem_insertBy, List.mem_cons, or_assoc, or_left_comm]

/-- A migrating lane of a cluster is a lane, and waits in *migrating*. -/
theorem lane_of_mem_migrants {cl n : Nat} {p : Place} {a : Reg} {s : State} (h : (n, p, a) ∈ migrants cl s) :
    (∃ e sl ln, p = .lane cl e sl ln) ∧ (s.thread p).run = .wait (.migr a) (.migrating n) := by
  obtain ⟨q, hq, hsome⟩ := List.mem_filterMap.mp ((mem_sortBy _ _ _).mp h)
  obtain ⟨e, -, hq⟩ := List.mem_flatMap.mp hq
  obtain ⟨sl, -, hq⟩ := List.mem_flatMap.mp hq
  obtain ⟨ln, rfl⟩ := exists_lane_of_mem_lanes hq
  split at hsome
  · next hrun =>
    cases hsome
    exact ⟨⟨e, sl, ln, rfl⟩, hrun⟩
  · cases hsome

theorem idle_of_idleContext {sh : Share} {s : State} {q : Place} (h : idleContext sh s = some q) :
    (s.thread q).run = .idle := by
  obtain ⟨ck, -, hck⟩ := List.exists_of_findSome?_eq_some h
  split at hck
  · next hidle =>
    cases hck
    exact eq_of_beq (Bool.and_eq_true_iff.mp hidle).2
  · cases hck

theorem laneGone_threads (cl e sl ln : Nat) (s : State) :
    (laneGone (.lane cl e sl ln) s).threads = FMap.del s.threads (Place.lane cl e sl ln).key := by
  unfold laneGone
  dsimp only
  split <;> rfl

theorem thread?_of_laneGone (cl e sl ln : Nat) (s : State) :
    (laneGone (.lane cl e sl ln) s).thread? (.lane cl e sl ln) = none := by
  rw [State.thread?, laneGone_threads, FMap.get?_del_self]

theorem moveSenders_thread? (sel : Parcel → Bool) (f : Place → Place) (s : State) (q : Place) :
    (moveSenders sel f s).thread? q = s.thread? q := rfl

/-- A lane that is placed: its place is empty, and the context has its thread. -/
theorem placeMigrant_places {p q : Place} {a : Reg} {s u : State} {sh : Share} {ws : List Word}
    (hsh : s.shareOf? p = some sh) (hlive : s.live sh = true) (hq : idleContext sh s = some q)
    (hrec : takeRecord p (s.thread p).mgrec s = (.got ws, u)) :
    placeMigrant p a s =
      (moveSenders (fun _ => true) (fun r => if r = p then q else r) (laneGone p (settleStores p u))).setThread q
        (migrantScalar (s.thread p) (u.thread q) ((s.thread p).getX a) ws) := by
  simp only [placeMigrant, hsh, hlive, hq, hrec, Bool.not_true, Bool.false_eq_true, if_false]

theorem exec_migrationPlacement_one {cl n : Nat} {p : Place} {a : Reg} {s : State} (h : migrants cl s = [(n, p, a)]) :
    exec (.migrationPlacement cl) s = .next (placeMigrant p a s) := by
  rw [exec_migrationPlacement, execMigrationPlacement, h]
  rfl

/-! ### The registers of a placed lane (08 Table 08-3) -/

section
variable (t old : Thread) (pc : Word) (ws : List Word) (r : Reg)

theorem getX_migrantScalar_low (h : r.val < 24) : (migrantScalar t old pc ws).getX r = t.getX r := by
  simp [Thread.getX, migrantScalar, h]

theorem getF_migrantScalar_low (h : r.val < 24) : (migrantScalar t old pc ws).getF r = t.getF r := by
  simp [Thread.getF, migrantScalar, h]

theorem getX_migrantScalar_high (h : 24 ≤ r.val) :
    (migrantScalar t old pc ws).getX r = (ws[r.val - 24]?).getD 0 := by
  have h0 : r ≠ 0 := by rintro rfl; exact absurd h (by decide)
  simp [Thread.getX, migrantScalar, h0, Nat.not_lt.mpr h, recWord]

theorem getF_migrantScalar_high (h : 24 ≤ r.val) : (migrantScalar t old pc ws).getF r =
    (((ws[8 + (r.val - 24) / 2]?).getD 0) >>> (32 * (r.val % 2))).setWidth 32 := by
  simp only [Thread.getF, migrantScalar, Fin.getElem_fin, Vector.getElem_ofFn, if_neg (Nat.not_lt.mpr h), recWord]
  apply BitVec.eq_of_toNat_eq
  rw [BitVec.toNat_ofNat, BitVec.toNat_setWidth, BitVec.toNat_ushiftRight, Nat.shiftRight_eq_div_pow]

end

/-! ### The record of a placed lane (08 R193) -/

theorem takeRecord_not_valid {p : Place} {rec : Word} {s u : State} {ws : List Word} (h0 : rec ≠ 0)
    (hr : readRecord p 16 rec [] s = (.got ws, u)) (hv : (ws[12]?).getD 0 ≠ 1) :
    takeRecord p rec s = (.got [], u) := by
  rw [takeRecord, if_neg h0, hr]
  exact if_pos hv

theorem placeMigrant_stays {p : Place} {a : Reg} {s : State} {sh : Share} (hsh : s.shareOf? p = some sh)
    (hq : idleContext sh s = none) : placeMigrant p a s = s := by
  simp [placeMigrant, hsh, hq]

/-! ### The statement -/

/-- Settles O45: MIGR comes to its first failing check, or to its thread's post; a lane's comes to its wait; and the
placement of the one migrating lane is the model's, its registers those of the lane and of the record. -/
theorem migrLeavesForTheGatherer : Obligations.MigrLeavesForTheGatherer := by
  unfold Obligations.MigrLeavesForTheGatherer
  refine ⟨fun p s a h hp => ?scalar, recordWords_eq, fun cl e sl p s pre a s₂ l h hstand => ?lane,
    fun s cl n p a sh q ws u hm hsh hlive hq hrec => ?placed, fun s p rec ws u => takeRecord_not_valid,
    fun s cl n p a sh hm hsh hq => ?stays⟩
  case scalar =>
    have e := migr_comesTo h
    have hengine : ¬ p.engine = .lane := h.issues.context
    refine ⟨fun ho => ?access, fun ho hm => ?mode, fun s₂ c ho hm hf => ?fetch, fun s₂ l ho hm hf hw => ?target,
      fun s₂ l ho hm hf hw => ?saved⟩
    case access => exact (migrRes_misplaced ho ▸ e).traps h rfl
    case mode => exact (migrRes_supervisor ho hm ▸ e).traps h rfl
    all_goals rw [migrRes_target ho hm] at e
    case fetch => exact (withTarget_bad _ hf ▸ e).traps h rfl
    case target => exact (withTarget_no_mgpt _ hf hw ▸ e).traps h rfl
    case saved =>
      rw [withTarget_mgpt _ hf hw] at e
      simp only [if_neg hengine] at e
      refine ⟨fun hb => (migrScalar_bound hb ▸ e).traps h rfl,
        fun hb hq => (migrScalar_present hb hq ▸ e).traps h rfl,
        fun hb hq ho => (migrScalar_outstanding hb hq ho ▸ e).traps h rfl,
        fun hb hq ho hg => (migrScalar_no_waves hb hq ho hg ▸ e).traps h rfl,
        fun hb hq ho hg hr => (migrScalar_bad_record hb hq ho hg hr ▸ e).traps h rfl,
        fun v hb hq ho hg hr hv => ?_⟩
      rw [migrScalar_leaves hb hq ho hg hr hv] at e
      exact ⟨fun hs => (sendPost_split _ hs ▸ e).blocks h rfl,
        fun s₅ hs he => (sendPost_enters _ hs he ▸ e).completesAway h rfl⟩
  case lane =>
    intro pc s₁ halign hcanon hm hf hw s₃ hg hr
    obtain ⟨⟨ln, rfl⟩, -⟩ := lane_of_mem_standing (hstand ▸ List.mem_singleton_self p)
    have hplaced : ¬ Misplaced pc := by simp [Misplaced, halign, hcanon]
    have hwait : migrRes (.lane cl e sl ln) pc pre = _ :=
      (migrRes_target hplaced hm).trans ((withTarget_mgpt _ hf hw).trans ((if_pos rfl).trans (migrLane_waits hg hr)))
    refine ⟨_, migr_lane_waits h hstand hwait, ?_, ?_, ?_, ?_⟩
    · rw [waveIssued_thread, State.thread_modThread_self]
      rfl
    · rw [waveIssued_thread, State.thread_modThread_self]
    · rw [waveIssued_thread, State.thread_modThread_self]
      exact (grem_of_fetchLine hf).trans (by rw [State.thread_modThread_self])
    · rw [waveIssued_migOrder, State.cluster_modThread, State.cluster_modCluster_self]
  case placed =>
    intro old
    obtain ⟨⟨e, sl, ln, rfl⟩, hwait⟩ := lane_of_mem_migrants (hm ▸ List.mem_singleton_self (n, p, a))
    have hkey : (Place.lane cl e sl ln).key ≠ q.key := fun hk => by
      have hidle := idle_of_idleContext hq
      rw [← s.thread_of_key hk, hwait] at hidle
      cases hidle
    refine ⟨_, exec_migrationPlacement_one hm, ?_⟩
    rw [placeMigrant_places hsh hlive hq hrec, State.thread_setThread_self]
    refine ⟨?gone, fun r hr => ⟨getX_migrantScalar_low _ _ _ _ r hr, getF_migrantScalar_low _ _ _ _ r hr⟩,
      fun r hr => ⟨getX_migrantScalar_high _ _ _ _ r hr, getF_migrantScalar_high _ _ _ _ r hr⟩,
      by simp [migrantScalar, Thread.blank, old]⟩
    case gone =>
      rw [State.thread?_setThread_of_ne _ _ _ _ hkey, moveSenders_thread?, thread?_of_laneGone]
  case stays => rw [exec_migrationPlacement_one hm, placeMigrant_stays hsh hq]

end Sys2Proof.Machine
end

section
/-!
PROOF. The words of the memory path (O20, O21, O22): loads, stores, ordered accesses, fences, atomics and merges come to
what their access and their release come to.
-/

namespace Sys2Proof.Machine

/-! ### Addresses and the words of one shape (09 R216, R217, R222) -/

theorem memAddr_eq (p : Place) (a : Reg) (o : BitVec 12) (s : State) :
    memAddr p a o s = getX p a s + o.signExtend 64 := by
  rw [memAddr, sxI_eq]

/-- The loads into an x register, with their bytes and their extension (09 R216). -/
theorem exec_load {mk : Hint → Reg → Reg → BitVec 12 → Instr} {size : Nat} {signed : Bool}
    (hm : (mk, size, signed) ∈ [(Instr.ldB, 1, true), (.ldBu, 1, false), (.ldH, 2, true), (.ldHu, 2, false),
      (.ldW, 4, true), (.ldWu, 4, false), (.ldD, 8, false)]) (h : Hint) (d a : Reg) (o : BitVec 12) (s : State) :
    exec (mk h d a o) s = issueWord (mk h d a o) (loadBody size signed .x h d a o) s := by
  simp only [List.mem_cons, Prod.mk.injEq, List.not_mem_nil, or_false] at hm
  obtain ⟨rfl, rfl, rfl⟩ | ⟨rfl, rfl, rfl⟩ | ⟨rfl, rfl, rfl⟩ | ⟨rfl, rfl, rfl⟩ | ⟨rfl, rfl, rfl⟩ | ⟨rfl, rfl, rfl⟩ |
    ⟨rfl, rfl, rfl⟩ := hm
  · exact exec_ldB h d a o s
  · exact exec_ldBu h d a o s
  · exact exec_ldH h d a o s
  · exact exec_ldHu h d a o s
  · exact exec_ldW h d a o s
  · exact exec_ldWu h d a o s
  · exact exec_ldD h d a o s

/-- The stores from an x register, with their bytes (09 R216). -/
theorem exec_store {mk : Hint → Reg → Reg → BitVec 12 → Instr} {w : Nat}
    (hm : (mk, w) ∈ [(Instr.stB, 1), (.stH, 2), (.stW, 4), (.stD, 8)]) (h : Hint) (d a : Reg) (o : BitVec 12)
    (s : State) :
    exec (mk h d a o) s =
      issueWord (mk h d a o) (fun _ p s => storeTo p (memAddr p a o s) w (getX p d s).toNat h s .ok) s := by
  simp only [List.mem_cons, Prod.mk.injEq, List.not_mem_nil, or_false] at hm
  obtain ⟨rfl, rfl⟩ | ⟨rfl, rfl⟩ | ⟨rfl, rfl⟩ | ⟨rfl, rfl⟩ := hm
  · exact exec_stB h d a o s
  · exact exec_stH h d a o s
  · exact exec_stW h d a o s
  · exact exec_stD h d a o s

/-- The atomics, with the numbers that `atomNew` knows them by (09 R222). -/
theorem exec_atom {z : MemSize} {sc : Scope} {d a b : Reg} {i : Instr} {op : Nat}
    (hm : (i, op) ∈ [(Instr.atomAdd z sc d a b, 4), (.atomMin z sc d a b, 5), (.atomMax z sc d a b, 6),
      (.atomMinu z sc d a b, 7), (.atomMaxu z sc d a b, 8), (.atomAnd z sc d a b, 9), (.atomOr z sc d a b, 10),
      (.atomXor z sc d a b, 11), (.atomSwap z sc d a b, 12), (.cas z sc d a b, 13)]) (s : State) :
    exec i s = issueWord i (atomBody op z sc d a b) s := by
  simp only [List.mem_cons, Prod.mk.injEq, List.not_mem_nil, or_false] at hm
  obtain ⟨rfl, rfl⟩ | ⟨rfl, rfl⟩ | ⟨rfl, rfl⟩ | ⟨rfl, rfl⟩ | ⟨rfl, rfl⟩ | ⟨rfl, rfl⟩ | ⟨rfl, rfl⟩ | ⟨rfl, rfl⟩ |
    ⟨rfl, rfl⟩ | ⟨rfl, rfl⟩ := hm
  · exact exec_atomAdd z sc d a b s
  · exact exec_atomMin z sc d a b s
  · exact exec_atomMax z sc d a b s
  · exact exec_atomMinu z sc d a b s
  · exact exec_atomMaxu z sc d a b s
  · exact exec_atomAnd z sc d a b s
  · exact exec_atomOr z sc d a b s
  · exact exec_atomXor z sc d a b s
  · exact exec_atomSwap z sc d a b s
  · exact exec_cas z sc d a b s

/-! ### Loads (09 R216-R218) -/

/-- A load sends its access from the state in which the thread's atomics have landed. -/
theorem loadBody_eq (size : Nat) (signed : Bool) (file : RFile) (h : Hint) (r a : Reg) (o : BitVec 12) (c : Ctx)
    (p : Place) (s : State) :
    let s₁ := forceAtoms p s
    let va := getX p a s₁ + o.signExtend 64
    loadBody size signed file h r a o c p s = access p va size .read s₁ fun t s' =>
      .ok (sendAccess p { n := 0, kind := .load size signed, va := va, tgt := t, hint := h, file := file, reg := r,
                          opnd := 0, expect := 0, val := none } s') := by
  simp only [loadBody, memAddr_eq]

theorem accesses_load {mk : Hint → Reg → Reg → BitVec 12 → Instr} {size : Nat} {signed : Bool}
    (hm : (mk, size, signed) ∈ [(Instr.ldB, 1, true), (.ldBu, 1, false), (.ldH, 2, true), (.ldHu, 2, false),
      (.ldW, 4, true), (.ldWu, 4, false), (.ldD, 8, false)]) {p : Place} {s : State} {h : Hint} {d a : Reg}
    {o : BitVec 12} (hc : Clear (mk h d a o) p s) :
    let s₁ := forceAtoms p (atIssue (mk h d a o) p s)
    let va := getX p a s₁ + o.signExtend 64
    Accesses (mk h d a o) p s s₁ va size .read fun t s' =>
      Completes (mk h d a o) p s fun _ => sendAccess p
        { n := 0, kind := .load size signed, va := va, tgt := t, hint := h, file := .x, reg := d, opnd := 0,
          expect := 0, val := none } s' :=
  accesses_of (exec_load hm h d a o s) hc (loadBody_eq size signed .x h d a o _ p _) fun _ _ hb =>
    completes_of_ok (exec_load hm h d a o s) hc hb

theorem fldBody_unbound {h : Hint} {d a : Reg} {o : BitVec 12} {c : Ctx} {p : Place} {s : State}
    (hok : (s.thread p).fcheck [] [d] = .ok)
    (hp : (s.thread p).lastPops [] = [] ∨ ((pushAll p s).thread p).pushing = false)
    (hs : (s.thread p).strmOf d = none) : fldBody h d a o c p s = loadBody 4 false .f h d a o c p s := by
  rw [fldBody, withF_ok hok hp, readF_nil, hs]

theorem fldBody_bound {h : Hint} {d a : Reg} {o : BitVec 12} {c : Ctx} {p : Place} {s : State} {m : Strm}
    (hok : (s.thread p).fcheck [] [d] = .ok)
    (hp : (s.thread p).lastPops [] = [] ∨ ((pushAll p s).thread p).pushing = false)
    (hs : (s.thread p).strmOf d = some m) :
    let s₁ := forceAtoms p s
    let va := getX p a s₁ + o.signExtend 64
    fldBody h d a o c p s = access p va 4 .read s₁ fun t s' =>
      .ok (putF p 0 d (BitVec.ofNat 32 (threadRead p va t 4 h s').1) (threadRead p va t 4 h s').2) := by
  simp only [fldBody, withF_ok hok hp, readF_nil, hs, memAddr_eq]

/-- Settles O20: a load's body is its access, whose ends are those of every access. -/
theorem loadsSendTheirAccess : Obligations.LoadsSendTheirAccess := by
  unfold Obligations.LoadsSendTheirAccess
  refine ⟨fun mk size signed hm p s h d a o hc => accesses_load hm hc, fun p s h d a o hc hf hs => ?_,
    fun p s h d a o m hc hf hs => ?_⟩
  · obtain ⟨hok, hp⟩ := hf
    exact accesses_of (exec_fld h d a o s) hc
      ((fldBody_unbound hok hp hs).trans (loadBody_eq 4 false .f h d a o _ p _)) fun _ _ hb =>
        completes_of_ok (exec_fld h d a o s) hc hb
  · obtain ⟨hok, hp⟩ := hf
    exact accesses_of (exec_fld h d a o s) hc (fldBody_bound hok hp hs) fun _ _ hb =>
      completes_of_ok (exec_fld h d a o s) hc hb

/-! ### Stores (09 R216-R218) -/

/-- Settles O21: a store's body is its access, which makes the store. -/
theorem storesMakeTheirStore : Obligations.StoresMakeTheirStore := by
  unfold Obligations.StoresMakeTheirStore
  refine ⟨fun mk w hm p s h d a o hc => ?_, fun p s h d a o hc hf => ?_⟩
  · refine accesses_of (exec_store hm h d a o s) hc ?_ fun _ _ hb =>
      completes_of_ok (exec_store hm h d a o s) hc hb
    rw [memAddr_eq, storeTo]
  · obtain ⟨hok, hp⟩ := hf
    refine accesses_of (exec_fst h d a o s) hc ?_ fun _ _ hb => completes_of_ok (exec_fst h d a o s) hc hb
    rw [withF_ok hok hp, memAddr_eq, storeTo]
    rfl

/-! ### Ordered accesses, fences, atomics and merges (09 R219-R223) -/

theorem Target.exists_of_isLreg {t : Target} (h : t.isLreg = true) : ∃ l o, t = .lreg l o := by
  cases t with
  | lreg l o => exact ⟨l, o, rfl⟩
  | dram | spad | remote | hole => exact absurd h Bool.false_ne_true

/-- 09 R221: LDA refuses a landing's registers, and is else a load that is then an acquire. -/
theorem accesses_lda {p : Place} {s : State} {z : MemSize} {sc : Scope} {d a : Reg} {i : BitVec 5}
    (hc : Clear (.lda z sc d a i) p s) :
    let s₀ := atIssue (.lda z sc d a i) p s
    let va := getX p a s₀ + BitVec.ofNat 64 (i.toNat * sizeBytes z)
    Accesses (.lda z sc d a i) p s (settleMerges p (forceAtoms p s₀)) va (sizeBytes z) .read fun t s' =>
      if t.isLreg then Traps (.lda z sc d a i) p s Cause.access va fun _ => s'
      else Completes (.lda z sc d a i) p s fun _ =>
        let r := threadRead p va t (sizeBytes z) .normal (performTouching p va t (sizeBytes z) s')
        putX p d (BitVec.ofNat 64 r.1) (acquire p sc r.2) := by
  refine accesses_of (exec_lda z sc d a i s) hc rfl fun t s' hb => ?_
  split
  · rename_i ht
    obtain ⟨l, o, rfl⟩ := Target.exists_of_isLreg ht
    exact traps_of_trap (e := fun _ => s') (exec_lda z sc d a i s) hc hb
  · rename_i ht
    refine completes_of_ok (e := fun _ => _) (exec_lda z sc d a i s) hc (hb.trans ?_)
    rw [← setX_ctx hc.issues.context 0]
    cases t with
    | lreg => exact absurd rfl ht
    | dram | spad | remote | hole => rfl

/-- 09 R221: STREL refuses a landing's registers, and is else a release and then a store. -/
theorem accesses_strel {p : Place} {s : State} {z : MemSize} {sc : Scope} {b a : Reg} {i : BitVec 5}
    (hc : Clear (.strel z sc b a i) p s) :
    let s₀ := atIssue (.strel z sc b a i) p s
    let va := getX p a s₀ + BitVec.ofNat 64 (i.toNat * sizeBytes z)
    Accesses (.strel z sc b a i) p s s₀ va (sizeBytes z) .write fun t s' =>
      if t.isLreg then Traps (.strel z sc b a i) p s Cause.access va fun _ => s'
      else Releases (.strel z sc b a i) p s s' sc true fun s =>
        makeStore p va t (sizeBytes z) ((getX p b s).toNat % 2 ^ (8 * sizeBytes z)) .normal 0 s := by
  refine accesses_of (exec_strel z sc b a i s) hc rfl fun t s' hb => ?_
  split
  · rename_i ht
    obtain ⟨l, o, rfl⟩ := Target.exists_of_isLreg ht
    exact traps_of_trap (e := fun _ => s') (exec_strel z sc b a i s) hc hb
  · rename_i ht
    refine releases_of (exec_strel z sc b a i s) hc (hb.trans ?_) fun _ => rfl
    cases t with
    | lreg => exact absurd rfl ht
    | dram | spad | remote | hole => rfl

/-- 09 R221: FENCE is a release and then an acquire. -/
theorem releases_fence {p : Place} {s : State} {sc : Scope} (hc : Clear (.fence sc) p s) :
    Releases (.fence sc) p s (atIssue (.fence sc) p s) sc true (acquire p sc) :=
  releases_of (exec_fence sc s) hc rfl fun _ => rfl

/-- 09 R220, R222: an atomic refuses a target that Table 09-7 does not give it, and is else a release that then sends the
indivisible step. -/
theorem accesses_atom {i : Instr} {op : Nat} {p : Place} {s : State} {z : MemSize} {sc : Scope} {d a b : Reg}
    (hx : exec i s = issueWord i (atomBody op z sc d a b) s) (hc : Clear i p s) :
    let s₀ := atIssue i p s
    let va := getX p a s₀
    Accesses i p s s₀ va (sizeBytes z) .atomic fun t s' =>
      if atomAllowed false t then Releases i p s s' sc true fun s =>
        sendAccess p
          { n := 0, kind := .atom op (sizeBytes z), va := va, tgt := t, hint := .normal, file := .x, reg := d,
            opnd := getX p b s, expect := getX p d s, val := none, scope := sc } (forceAtoms p s)
      else Traps i p s Cause.access va fun _ => s' := by
  refine accesses_of hx hc rfl fun t s' hb => ?_
  split
  · rename_i ht
    exact releases_of hx hc (hb.trans (if_pos ht)) fun _ => rfl
  · rename_i ht
    exact traps_of_trap (e := fun _ => s') hx hc (hb.trans (if_neg ht))

/-- 09 R220, R223: a merge refuses a target that Table 09-7 does not give it; it is else a release of all but earlier
merges, and is queued. -/
theorem accesses_merge {i : Instr} {body : Body} {merge w : Nat} {sc : Scope} {va : Word} {v : Nat} {p : Place}
    {s s₀ : State} {k : State → State} (hx : exec i s = issueWord i body s) (hc : Clear i p s)
    (hb : body { act := [p], pre := atIssue i p s } p (atIssue i p s) =
      mergeBody merge w sc va v p s₀ fun s => .ok (k s)) :
    Accesses i p s (forceAtoms p s₀) va w .atomic fun t s' =>
      if atomAllowed true t then Releases i p s s' sc false fun s =>
        k (makeStore p va t w (v % 2 ^ (8 * w)) .normal merge s)
      else Traps i p s Cause.access va fun _ => s' := by
  refine accesses_of hx hc hb fun t s' hb => ?_
  split
  · rename_i ht
    exact releases_of hx hc (hb.trans (if_pos ht)) fun _ => rfl
  · rename_i ht
    exact traps_of_trap (e := fun _ => s') hx hc (hb.trans (if_neg ht))

theorem accesses_amergeI {p : Place} {s : State} {z : MemSize} {sc : Scope} {a b : Reg}
    (hc : Clear (.amergeI z sc a b) p s) :
    let s₀ := atIssue (.amergeI z sc a b) p s
    let va := getX p a s₀
    Accesses (.amergeI z sc a b) p s (forceAtoms p s₀) va (sizeBytes z) .atomic fun t s' =>
      if atomAllowed true t then Releases (.amergeI z sc a b) p s s' sc false
        (makeStore p va t (sizeBytes z) ((getX p b s₀).toNat % 2 ^ (8 * sizeBytes z)) .normal 1)
      else Traps (.amergeI z sc a b) p s Cause.access va fun _ => s' :=
  accesses_merge (k := id) (exec_amergeI z sc a b s) hc rfl

theorem accesses_amergeF {p : Place} {s : State} {sc : Scope} {a b : Reg} (hc : Clear (.amergeF sc a b) p s)
    (hf : FReady (.amergeF sc a b) p s [b] []) :
    let s₀ := readF p [b] (atIssue (.amergeF sc a b) p s)
    let va := getX p a s₀
    Accesses (.amergeF sc a b) p s (forceAtoms p s₀) va 4 .atomic fun t s' =>
      if atomAllowed true t then Releases (.amergeF sc a b) p s s' sc false fun s =>
        popAll p [b] (makeStore p va t 4 (fBits p b s₀ % 2 ^ 32) .normal 2 s)
      else Traps (.amergeF sc a b) p s Cause.access va fun _ => s' := by
  obtain ⟨hok, hp⟩ := hf
  exact accesses_merge (k := popAll p [b]) (exec_amergeF sc a b s) hc (withF_ok hok hp)

/-- Settles O22: the first clauses say what each word's access and release come to, the others what they come to where
the access leads to a target that the word may have. -/
theorem orderedAccessesReleaseAndAcquire : Obligations.OrderedAccessesReleaseAndAcquire := by
  unfold Obligations.OrderedAccessesReleaseAndAcquire
  refine ⟨fun p s z sc d a i hc => accesses_lda hc, fun p s z sc b a i hc => accesses_strel hc,
    fun p s sc hc => releases_fence hc, fun mk op hm p s z sc d a b hc => ?accesses,
    fun p s z sc a b hc => accesses_amergeI hc, fun p s sc a b hc hf => accesses_amergeF hc hf,
    fun p s z sc d a i t s' hc => ?lda, fun p s z sc b a i t s' hc => ?strel,
    fun p s sc hc => (releases_fence hc).goes, fun p s z sc d a b t s' i op hm hc => ?atom,
    fun p s z sc a b t s' hc => ?amergeI, fun p s sc a b t s' hc hf => ?amergeF⟩
  case accesses =>
    exact accesses_atom (exec_atom (List.mem_map_of_mem (f := fun x => (x.1 z sc d a b, x.2)) hm) s) hc
  case lda =>
    intro s₁ va s₂ hr hd ht
    have h := (accesses_lda hc).goes t s' hr (.inr hd)
    rw [if_neg (ht ▸ Bool.false_ne_true)] at h
    exact h
  case strel =>
    intro s₁ va hr ht hp
    have h := (accesses_strel hc).goes t s' hr (.inl rfl)
    rw [if_neg (ht ▸ Bool.false_ne_true)] at h
    exact h.goes hp
  case atom =>
    intro s₁ va hr hd ht hp
    have h := (accesses_atom (exec_atom hm s) hc).goes t s' hr (.inr hd)
    rw [if_pos ht] at h
    exact h.goes hp
  case amergeI =>
    intro s₁ va hr hd ht hp
    have h := (accesses_amergeI hc).goes t s' hr (.inr hd)
    rw [if_pos ht] at h
    exact h.goes hp
  case amergeF =>
    intro s₁ va hr hd ht hp
    have h := (accesses_amergeF hc hf).goes t s' hr (.inr hd)
    rw [if_pos ht] at h
    exact h.goes hp

end Sys2Proof.Machine
end

section
/-!
PROOF. The values of atomics and loads (O23, O24): the table of the indivisible steps, and what a performed access leaves
in memory and in its register.
-/

namespace Sys2Proof.Machine

/-! ### The table of the indivisible steps (09 R222) -/

theorem toNat_min {n : Nat} (a b : BitVec n) : min a.toNat b.toNat = (if a.ule b then a else b).toNat := by
  rw [apply_ite BitVec.toNat, Nat.min_def]
  simp only [BitVec.ule_eq_decide, decide_eq_true_eq]

theorem toNat_max {n : Nat} (a b : BitVec n) : max a.toNat b.toNat = (if b.ule a then a else b).toNat := by
  rw [apply_ite BitVec.toNat, Nat.max_comm, Nat.max_def]
  simp only [BitVec.ule_eq_decide, decide_eq_true_eq]

theorem toNat_of_sext_le {n : Nat} (a b c d : BitVec n) :
    (if sext c.toNat n ≤ sext d.toNat n then a.toNat else b.toNat) = (if c.sle d then a else b).toNat := by
  simp only [sext_eq_toInt, apply_ite BitVec.toNat, BitVec.sle_iff_toInt_le]

/-- The table of 09 R222 for operands of w bytes. -/
theorem atomNew_table (w : Nat) (a b x : BitVec (8 * w)) :
    atomNew 4 w a.toNat b.toNat x.toNat = some (a + b).toNat ∧
    atomNew 5 w a.toNat b.toNat x.toNat = some (if a.sle b then a else b).toNat ∧
    atomNew 6 w a.toNat b.toNat x.toNat = some (if b.sle a then a else b).toNat ∧
    atomNew 7 w a.toNat b.toNat x.toNat = some (if a.ule b then a else b).toNat ∧
    atomNew 8 w a.toNat b.toNat x.toNat = some (if b.ule a then a else b).toNat ∧
    atomNew 9 w a.toNat b.toNat x.toNat = some (a &&& b).toNat ∧
    atomNew 10 w a.toNat b.toNat x.toNat = some (a ||| b).toNat ∧
    atomNew 11 w a.toNat b.toNat x.toNat = some (a ^^^ b).toNat ∧
    atomNew 12 w a.toNat b.toNat x.toNat = some b.toNat ∧
    atomNew 13 w a.toNat b.toNat x.toNat = (if a = x then some b.toNat else none) := by
  refine ⟨congrArg some (BitVec.toNat_add a b).symm, congrArg some (toNat_of_sext_le a b a b),
    congrArg some (toNat_of_sext_le a b b a), congrArg some (toNat_min a b), congrArg some (toNat_max a b),
    congrArg some (BitVec.toNat_and a b).symm, congrArg some (BitVec.toNat_or a b).symm,
    congrArg some (BitVec.toNat_xor a b).symm, rfl, ?_⟩
  simp only [atomNew, BitVec.toNat_inj]

/-! ### An atomic performed on DRAM (09 R207, R222) -/

theorem copyKey_injective (line : Nat) : ∀ d e, copyKey line d = copyKey line e → d = e := by
  intro d e h
  simp only [copyKey] at h
  omega

/-- An atomic that writes leaves its value in the bytes of its operand, every other byte as it was, and no slice a copy
of the line. -/
theorem atomPerform_writes {s : State} {cl : Option Nat} {die gang op : Nat} {va : Word} {pa : Nat}
    {mca nc cmp : Bool} {w v x new : Nat} (hwf : Memory.wf s.dram = true) (hsl : FMap.wf s.slices = true)
    (hst : s.stores = []) (hn : atomNew op w (Memory.read s.dram pa w) v x = some new) (hlt : new < 2 ^ (8 * w)) :
    let t := (atomPerform cl die gang op va (.dram pa mca nc cmp) w v x s).2
    Memory.read t.dram pa w = new ∧
    (∀ a, a < pa ∨ pa + w ≤ a → Memory.byte t.dram a = Memory.byte s.dram a) ∧
    ∀ d < 4, FMap.get? t.slices (copyKey (pa / 128) d) = none := by
  obtain ⟨-, hdram, hslices⟩ := atomPerform_some s cl die gang op va pa mca nc cmp w v x new hst hn
  dsimp only
  rw [hdram, hslices]
  refine ⟨?_, fun a ha => Memory.byte_write_outside w _ _ _ a hwf ha,
    fun d hd => foldl_del_none (copyKey (pa / 128)) (copyKey_injective _) 4 d hd _ hsl⟩
  rw [Memory.read_write _ _ _ _ hwf, ← two_pow_mul_eight, Nat.mod_eq_of_lt hlt]

/-- Settles O23: the table holds at every width, and an atomic on DRAM is one write of its line or none. -/
theorem atomicsLeaveTableValueInOneStep : Obligations.AtomicsLeaveTableValueInOneStep := by
  unfold Obligations.AtomicsLeaveTableValueInOneStep
  refine ⟨fun w _ a b x => atomNew_table w a b x, ?_⟩
  intro s cl die gang op va pa mca nc cmp w v x hwf hsl hst _
  refine ⟨?_, fun new hn hlt => atomPerform_writes hwf hsl hst hn hlt,
    fun hn => (atomPerform_none s cl die gang op va pa mca nc cmp w v x hst hn).2⟩
  cases hn : atomNew op w (Memory.read s.dram pa w) v x with
  | none => exact (atomPerform_none s cl die gang op va pa mca nc cmp w v x hst hn).1
  | some new => exact (atomPerform_some s cl die gang op va pa mca nc cmp w v x new hst hn).1

/-! ### A thread's one access in flight (09 R217, R218) -/

section
variable {p : Place} {s : State} {a : Access}

/-- The only access of a thread has none before it to perform. -/
theorem performOlder_one (h : (s.thread p).loads = [a]) : performOlder p a s = s := by
  simp [performOlder, h]

/-- A load that is the thread's only access takes the bytes it reads, extended. -/
theorem performAccess_load {size : Nat} {signed : Bool} (hv : a.val = none) (hk : a.kind = .load size signed) :
    performAccess p a s = (threadRead p a.va a.tgt size a.hint s).2.modThread p fun t =>
      { t with loads := t.loads.map fun x => if x.n = a.n then
          { x with val := some (extend size signed (threadRead p a.va a.tgt size a.hint s).1) } else x } := by
  simp only [performAccess, hv, hk]

theorem loads_performAccess_load {size : Nat} {signed : Bool} (h : (s.thread p).loads = [a]) (hv : a.val = none)
    (hk : a.kind = .load size signed) : ((performAccess p a s).thread p).loads =
      [{ a with val := some (extend size signed (threadRead p a.va a.tgt size a.hint s).1) }] := by
  have hloads : ((threadRead p a.va a.tgt size a.hint s).2.thread p).loads = [a] := by
    rw [(memPath_threadRead p a.va a.tgt size a.hint s).thread, h]
  rw [performAccess_load hv hk, State.thread_modThread_self, hloads]
  simp

/-- A performed access of a context that is its only one lands in its x register. -/
theorem landAccess_x {d : Reg} {v : Word} (hp : p.engine ≠ .lane) (h : (s.thread p).loads = [a])
    (hv : a.val = some v) (hf : a.file = .x) (hr : a.reg = d.val) :
    landAccess p a.n s = putX p d v (s.modThread p fun t => { t with loads := [] }) := by
  have hfind : (s.thread p).loads.find? (·.n == a.n) = some a := by simp [h]
  have hland : s.modThread p (fun t => { t with loads := t.loads.filter (·.n != a.n) }) =
      s.modThread p fun t => { t with loads := [] } := by
    simp [State.modThread, h]
  simp only [landAccess, hfind, hv]
  rw [hland, hf, hr]
  exact setX_ctx hp 0 d v _

end

/-! ### The value of a load (09 R197, R198, R217, R218) -/

/-- What a thread loads leaves its x registers. -/
theorem getX_modThread_loads (p : Place) (f : List Access → List Access) (d : Reg) (s : State) :
    getX p d (s.modThread p fun t => { t with loads := f t.loads }) = getX p d s := by
  simp only [getX, State.thread_modThread_self, Thread.getX]

theorem getX_putX (p : Place) (d r : Reg) (v : Word) (s : State) :
    getX p r (putX p d v s) = if r = d ∧ d ≠ 0 then v else getX p r s := by
  simp only [getX, putX, State.thread_modThread_self, Thread.getX_setX]

/-- A load of a context that is its only access, performed and landed: the register holds the bytes it reads, extended,
and every other register what it held. -/
theorem getX_settleAccess_load {p : Place} {s : State} {a : Access} {d : Reg} {size : Nat} {signed : Bool}
    (hp : p.engine ≠ .lane) (h : (s.thread p).loads = [a]) (hv : a.val = none) (hk : a.kind = .load size signed)
    (hf : a.file = .x) (hr : a.reg = d.val) (r : Reg) : getX p r (settleAccess p a.n s) =
      if r = d ∧ d ≠ 0 then extend size signed (threadRead p a.va a.tgt size a.hint s).1 else getX p r s := by
  have hfind : (s.thread p).loads.find? (·.n == a.n) = some a := by simp [h]
  have hperf := loads_performAccess_load h hv hk
  have hregs : getX p r (performAccess p a s) = getX p r s := by
    rw [performAccess_load hv hk, getX_modThread_loads, getX, (memPath_threadRead p a.va a.tgt size a.hint s).thread]
    rfl
  simp only [settleAccess, hfind]
  rw [performOlder_one h, landAccess_x hp hperf rfl hf hr, getX_putX, getX_modThread_loads p (fun _ => []), hregs]

/-- A load sent at a turn that leaves nothing to later ones is performed and lands at once (log 81). -/
theorem sendAccess_load {p : Place} {s : State} {a : Access} {size : Nat} {signed : Bool} (hs : s.split = false)
    (hk : a.kind = .load size signed) : sendAccess p a s = settleAccess p s.reqCtr
      { s.modThread p fun t => { t with loads := t.loads ++ [{ a with n := s.reqCtr, clk := s.clk }] } with
        reqCtr := s.reqCtr + 1 } := by
  have hatom : a.atomic = false := by rw [Access.atomic, hk]
  unfold sendAccess
  exact if_neg (Bool.eq_false_iff.mp (by rw [hatom, Bool.or_false]; exact hs))

/-- A thread's load from DRAM that finds no store under way and no copy of the line on its path reads the home's bytes. -/
theorem threadRead_home {p : Place} {s : State} {va : Word} {pa w : Nat} {mca nc cmp : Bool} {h : Hint}
    (hst : s.stores = []) (hw : 0 < w) (ho : pa % 128 + w ≤ 128)
    (hl1 : ∀ cl, p.cluster? = some cl → ∀ l ∈ (s.cluster cl).l1, l.gang ≠ (s.thread p).gang ∨ l.tag ≠ va.toNat / 128)
    (hsl : FMap.get? s.slices (copyKey (pa / 128) p.die) = none) :
    (threadRead p va (.dram pa mca nc cmp) w h s).1 = Memory.read s.dram pa w ∧
    (threadRead p va (.dram pa mca nc cmp) w h s).2.dram = s.dram := by
  have hmiss : ∀ cl, (s.agent p).cl = some cl → (s.cluster cl).l1.find? (fun l => l.gang == (s.agent p).gang &&
      l.tag == va.toNat / 128 && untorn l.pats (va.toNat % 128) w) = none := by
    intro cl hcl
    rw [List.find?_eq_none]
    intro l hl
    have hother : l.gang ≠ (s.agent p).gang ∨ l.tag ≠ va.toNat / 128 := hl1 cl hcl l hl
    rcases hother with hg | ht
    · simp [hg]
    · simp [ht]
  obtain ⟨hval, hdram, hstores⟩ := dramLoad_home (s.agent p) va pa w nc h true s hst hw ho hmiss hsl
  simp only [threadRead, mendOwn_nil hst, readTarget, ownStores_nil hstores]
  exact ⟨hval, hdram⟩

/-- Bytes of a size that an access may have, aligned to it, lie within one line. -/
theorem within_line {pa w : Nat} (hw : w ∈ [1, 2, 4, 8]) (ha : pa % w = 0) : 0 < w ∧ pa % 128 + w ≤ 128 := by
  simp only [List.mem_cons, List.not_mem_nil, or_false] at hw
  rcases hw with rfl | rfl | rfl | rfl <;> omega

/-- Settles O24: a load performed at its word lands its extended bytes, and the path to DRAM with nothing on it gives the
home's. -/
theorem loadGivesExtendedHomeBytes : Obligations.LoadGivesExtendedHomeBytes := by
  unfold Obligations.LoadGivesExtendedHomeBytes
  constructor
  · intro p s d va tgt h size signed hp hs hl a s' d'
    have hs' : (s'.thread p).loads = [{ a with n := s.reqCtr, clk := s.clk }] := by
      have hthread : s'.thread p =
          (s.modThread p fun t => { t with loads := [{ a with n := s.reqCtr, clk := s.clk }] }).thread p := rfl
      rw [hthread, State.thread_modThread_self]
    have hregs : getX p d' s' = getX p d' s := getX_modThread_loads p (fun _ => _) d' s
    have hsent : sendAccess p a s = settleAccess p s.reqCtr s' := by
      rw [sendAccess_load hs rfl]
      simp only [s', State.modThread, hl, List.nil_append]
    rw [hsent, ← hregs]
    exact getX_settleAccess_load hp hs' rfl rfl rfl rfl d'
  · intro p s va pa mca nc cmp w h hst hw ha _ hl1 hsl
    obtain ⟨hpos, hline⟩ := within_line hw ha
    exact threadRead_home hst hpos hline (fun cl hcl => by rw [hcl] at hl1; exact hl1) hsl

end Sys2Proof.Machine
end

section
/-!
PROOF. The events of the memory path (O55): a store's way over its home's ordering point, its invalidations and its
acknowledgement, a performed load, writebacks and captured rows.
-/

namespace Sys2Proof.Machine

/-! ### One store in flight: what the path finds (09 R205, R207) -/

theorem performReq_one (s : State) (r : MemReq) : exec (.homeRequest [r]) s = .next (performReq s r) := rfl

section
variable {s : State} {e : Store}

/-- No store goes before the only one. -/
theorem mayMove_one (h : s.stores = [e]) : mayMove e.n e.stage s = true := by
  simp [mayMove, h, Store.before]

theorem homeStores_one (h : s.stores = [e]) {line : Nat} (hl : e.line? = some line) (hs : e.stage = .home) :
    homeStores s line = [e] := by
  simp [homeStores, h, hl, hs, sortBy, insertBy]

theorem homeStores_of_stage (h : s.stores = [e]) (line : Nat) (hs : e.stage ≠ .home) : homeStores s line = [] := by
  simp [homeStores, h, hs, sortBy]

theorem modStore_one (h : s.stores = [e]) (f : Store → Store) : (modStore e.n f s).stores = [f e] := by
  simp [modStore, h]

theorem modStore_dram (n : Nat) (f : Store → Store) (s : State) : (modStore n f s).dram = s.dram := rfl

theorem modStore_slices (n : Nat) (f : Store → Store) (s : State) : (modStore n f s).slices = s.slices := rfl

theorem nextSince_one (h : s.stores = [e]) : s.nextSince = e.since + 1 := by
  simp [State.nextSince, h]

/-- A home whose only store still waits for acknowledgements writes nothing. -/
theorem writeReady_waits (h : s.stores = [e]) {line : Nat} (hl : e.line? = some line) (hs : e.stage = .home)
    (hw : e.written = false) (hacks : e.acks ≠ []) (hm : (!e.mca && !e.nc) = false) : writeReady line s = s := by
  simp [writeReady, homeStores_one h hl hs, hw, writeAll, hacks, hm]

/-- A home writes its only store where it waits for nothing, or acts as MCA = 0. -/
theorem writeReady_writes (h : s.stores = [e]) {line : Nat} (hl : e.line? = some line) (hs : e.stage = .home)
    (hw : e.written = false) (hok : (e.acks.isEmpty || (!e.mca && !e.nc)) = true) :
    writeReady line s = writeStore e s := by
  simp only [writeReady, homeStores_one h hl hs, List.filter_cons, hw, Bool.not_false, if_true, List.filter_nil, writeAll,
    hok]

end

/-! ### What a home's write leaves (09 R205, R207) -/

theorem noteCmp_stores (t : Target) (s : State) : (noteCmp t s).stores = s.stores := by
  cases t <;> rfl

theorem cleanPoison_stores (a n : Nat) (s : State) : (cleanPoison a n s).stores = s.stores := by
  unfold cleanPoison; split <;> rfl

theorem homeWrite_stores (a n v : Nat) (s : State) : (homeWrite a n v s).stores = s.stores := by
  have h := cleanPoison_stores a n { s with dram := Memory.write s.dram a n v }
  unfold homeWrite
  extract_lets u
  split
  · exact (mscPut_stores _ _ _ _).trans h
  · exact h

/-- From s to t, a home has written the bytes of the store e at pa and no other, and the stores in flight are es. -/
structure WritesAlone (e : Store) (pa : Nat) (es : List Store) (s t : State) : Prop where
  bytes : Memory.read t.dram pa e.size = e.data % 2 ^ (8 * e.size)
  others : ∀ a, (a < pa ∨ pa + e.size ≤ a) → Memory.byte t.dram a = Memory.byte s.dram a
  stores : t.stores = es

theorem Store.pa_of_tgt {e : Store} {pa : Nat} {mca nc cmp : Bool} (h : e.tgt = .dram pa mca nc cmp) : e.pa = pa := by
  rw [Store.pa, h]

theorem Store.line?_of_tgt {e : Store} {pa : Nat} {mca nc cmp : Bool} (h : e.tgt = .dram pa mca nc cmp) :
    e.line? = some (pa / 128) := by
  rw [Store.line?, h]

theorem Store.mca_of_tgt {e : Store} {pa : Nat} {mca nc cmp : Bool} (h : e.tgt = .dram pa mca nc cmp) :
    e.mca = mca := by
  rw [Store.mca, h]

theorem Store.nc_of_tgt {e : Store} {pa : Nat} {mca nc cmp : Bool} (h : e.tgt = .dram pa mca nc cmp) : e.nc = nc := by
  rw [Store.nc, h]

theorem writeStore_eq {e : Store} (s : State) (hm : e.merge = 0) : writeStore e s =
    modStore e.n (fun e => { e with written := true }) (homeWrite e.pa e.size e.data (noteCmp e.tgt s)) := by
  unfold writeStore
  dsimp only
  rw [if_pos hm, if_neg (hm ▸ Nat.zero_ne_one), if_neg (hm ▸ (by decide : (0 : Nat) ≠ 2))]

/-- The home writes a store that is no merge: its bytes and no other, and no slice's copy changes. -/
theorem writeStore_writesAlone {e : Store} {s : State} {pa : Nat} {mca nc cmp : Bool} (h : s.stores = [e])
    (hwf : Memory.wf s.dram = true) (ht : e.tgt = .dram pa mca nc cmp) (hm : e.merge = 0) :
    WritesAlone e pa [{ e with written := true }] s (writeStore e s) ∧ (writeStore e s).slices = s.slices := by
  have hdram : (writeStore e s).dram = Memory.write s.dram pa e.size e.data := by
    rw [writeStore_eq s hm, modStore_dram, homeWrite_dram, noteCmp_dram, Store.pa_of_tgt ht]
  refine ⟨⟨?_, fun a ha => ?_, ?_⟩, ?_⟩
  · rw [hdram, Memory.read_write _ _ _ _ hwf, two_pow_mul_eight]
  · rw [hdram, Memory.byte_write_outside _ _ _ _ a hwf ha]
  · rw [writeStore_eq s hm]
    exact modStore_one ((homeWrite_stores _ _ _ _).trans ((noteCmp_stores _ _).trans h)) _
  · rw [writeStore_eq s hm, modStore_slices, homeWrite_slices, noteCmp_slices]

/-! ### A store taken at its home (09 R205, R207; 13 R304) -/

/-- The dies whose copies a store alone at its home is to invalidate: the sharers of its line but the own die of one that
its slice keeps a copy for (09 R205). -/
def invalidated (s : State) (e : Store) (line : Nat) (nc : Bool) : List Nat :=
  (s.sharersOf line).filter fun d => !(!(e.direct || nc) && d == e.die)

/-- The state in which the store e, alone in flight, stands at its home, and has its invalidations sent. -/
def takenAt (s : State) (e : Store) (line : Nat) (nc : Bool) : State :=
  let others := invalidated s e line nc
  { setSharers line ((s.sharersOf line).filter fun d => !others.contains d) s with
    stores := [{ e with stage := .home, since := e.since + 1, acks := others }] }

theorem invalidated_eq (s : State) (e : Store) (line : Nat) (nc : Bool) :
    ((List.range 4).filter fun d => !(!(e.direct || nc) && d == e.die) && (s.sharersOf line).contains d) =
      invalidated s e line nc := by
  rw [invalidated, State.sharersOf, List.filter_filter]
  refine List.filter_congr fun d hd => ?_
  congr 1
  rw [Bool.eq_iff_iff]
  simp [List.mem_range.mp hd]

theorem takeHome_one {s : State} {e : Store} {pa : Nat} {mca nc cmp : Bool} (h : s.stores = [e])
    (hs : e.stage = .slice) (ht : e.tgt = .dram pa mca nc cmp) (hm : e.merge = 0) :
    takeHome e.n s = writeReady (pa / 128) (takenAt s e (pa / 128) nc) := by
  have hfind : s.stores.find? (fun x => x.n == e.n && x.stage == .slice) = some e := by simp [h, hs]
  have hsent : homeStores s (pa / 128) = [] := homeStores_of_stage h _ (hs ▸ nofun)
  have hkeep : ∀ b : Bool, (!(b || e.merge != 0)) = !b := by simp [hm]
  unfold takeHome
  simp only [hfind, ht, hsent, List.flatMap_nil, List.contains_nil, Bool.or_false, hkeep, invalidated_eq]
  congr 1
  simp [takenAt, modStore, moveTo, setSharers, State.nextSince, h, invalidated]

theorem toHome_one {s : State} {e : Store} {line : Nat} (h : s.stores = [e]) (hs : e.stage = .slice)
    (hl : e.line? = some line) : toHome e.n s = takeHome e.n s := by
  have hfind : s.stores.find? (fun x => x.n == e.n && x.stage == .slice) = some e := by simp [h, hs]
  have hready : ackLine line (fun _ => true) s = s := by
    rw [ackLine, homeStores_of_stage h _ (hs ▸ nofun)]
    rfl
  simp only [toHome, hfind, hl, hready]

/-- The only store in flight, at its slice, is taken at its home with its request. -/
theorem homeRequest_store_one {s : State} {e : Store} {pa : Nat} {mca nc cmp : Bool} (h : s.stores = [e])
    (hs : e.stage = .slice) (ht : e.tgt = .dram pa mca nc cmp) (hm : e.merge = 0) :
    exec (.homeRequest [.store e.n]) s = .next (writeReady (pa / 128) (takenAt s e (pa / 128) nc)) := by
  have hmove : mayMove e.n .slice s = true := hs ▸ mayMove_one h
  rw [performReq_one, performReq, if_pos hmove, toHome_one h hs (Store.line?_of_tgt ht), takeHome_one h hs ht hm]

/-! ### Invalidations and the home's acknowledgement (09 R205; 13 R304) -/

/-- A die with no early store of its own to the line acknowledges its invalidation once it has dropped its copy. -/
theorem ackStore_one {s : State} {e : Store} {line d : Nat} (h : s.stores = [e]) (hs : e.stage = .home)
    (hl : e.line? = some line) (hd : d ∈ e.acks) (he : e.early = false) : ackStore e.n d s =
      writeReady line (modStore e.n (fun e => { e with acks := e.acks.filter (· != d) }) (dropCopy line d s)) := by
  have hfind : s.stores.find? (fun x => x.n == e.n && x.stage == .home && x.acks.contains d) = some e := by
    simp [h, hs, hd]
  have hnone : (dieStores s d line).isEmpty = true := by simp [dieStores, h, he, sortBy]
  simp only [ackStore, hfind, hl, hnone, if_true]

/-- With no store in flight, the path writes nothing at a line's home. -/
theorem writeReady_nil {s : State} (h : s.stores = []) (line : Nat) : writeReady line s = s := by
  simp [writeReady, homeStores_nil h, writeAll]

theorem ackDie_nil {s : State} (h : s.stores = []) (line d : Nat) :
    ackDie line d s = { s with aside := s.aside.filter (· != (line, d)) } := by
  rw [ackDie, writeReady_nil (by simp [h])]
  simp [h]

/-- What an acknowledgement that finds no other store does: memory stays, and no store is in flight. -/
structure Quiet (s t : State) : Prop where
  stores : t.stores = []
  dram : t.dram = s.dram

theorem asideDue_quiet {s : State} (h : s.stores = []) (line d : Nat) : Quiet s (asideDue line d s) := by
  have hdrop : (dropCopy line d s).stores = [] := h
  unfold asideDue
  split
  · rw [ackDie_nil hdrop]
    exact ⟨h, rfl⟩
  · exact ⟨h, rfl⟩

theorem ackCopy_quiet {s : State} (h : s.stores = []) (e : Store) (line : Nat) : Quiet s (ackCopy e line s) := by
  unfold ackCopy
  split
  · exact ⟨h, rfl⟩
  · split
    · split <;> exact ⟨h, rfl⟩
    · split
      · exact ⟨h, rfl⟩
      · exact ⟨(shareLine_stores _ _ _).trans ((putCopy_stores _ _ _ s).trans h),
          (shareLine_dram _ _ _).trans (putCopy_dram _ _ _ s)⟩

/-- The acknowledgement of the only store in flight ends it. -/
theorem ackOne_quiet {s : State} {e : Store} (h : s.stores = [e]) : Quiet s (ackOne e s) := by
  have hnone : s.stores.filter (·.n != e.n) = [] := by simp [h]
  unfold ackOne
  rw [hnone]
  cases e.line? with
  | none => exact ⟨rfl, rfl⟩
  | some line =>
    have hlate : (homeStores { s with stores := [] } line).any
        (fun x => decide (x.since < e.since) && x.acks.contains e.die) = false := by rw [homeStores_nil rfl]; rfl
    simp only [hlate, Bool.and_false, Bool.false_eq_true, if_false]
    obtain ⟨hstores, hdram⟩ := ackCopy_quiet (s := { s with stores := [] }) rfl e line
    obtain ⟨hnil, hsame⟩ := asideDue_quiet hstores line e.die
    exact ⟨hnil, hsame.trans hdram⟩

theorem acknowledge_one {s : State} {e : Store} (h : s.stores = [e]) (hr : e.ready = true) :
    acknowledge e.n s = ackOne e s := by
  have hfind : s.stores.find? (fun x => x.n == e.n && x.ready) = some e := by simp [h, hr]
  have hs : e.stage = .home := by
    simp only [Store.ready, Bool.and_eq_true, beq_iff_eq] at hr
    exact hr.1.1
  cases hl : e.line? with
  | none => simp only [acknowledge, hfind, hl]
  | some line => simp [acknowledge, hfind, hl, homeStores_one h hl hs, hr]

/-! ### A load performed at its home (09 R207, R218) -/

/-- A request of the only access under way in its crew waits for no lane's before it. -/
theorem performLanes_alone {p : Place} {s : State} (a : Access)
    (h : ∀ q, q.crew = p.crew → q ≠ p → (s.thread q).loads = []) : performLanes p a s = s := by
  have hnone : ((s.places.filter fun q => q.crew == p.crew && q != p).flatMap fun q =>
      ((s.thread q).loads.filter fun x => x.clk == a.clk && decide (x.n < a.n) && x.val.isNone &&
        x.touches a.va a.tgt a.size).map fun x => (q, x)) = [] := by
    rw [List.flatMap_eq_nil_iff]
    intro q hq
    simp only [List.mem_filter, Bool.and_eq_true, beq_iff_eq, bne_iff_ne] at hq
    obtain ⟨-, hcrew, hne⟩ := hq
    rw [h q hcrew hne]
    rfl
  rw [performLanes, hnone]
  rfl

theorem homeRequest_load_one {p : Place} {s : State} {a : Access} (h : (s.thread p).loads = [a])
    (hothers : ∀ q, q.crew = p.crew → q ≠ p → (s.thread q).loads = []) :
    exec (.homeRequest [.load p a.n]) s = .next (performAccess p a s) := by
  have hfind : (s.thread p).loads.find? (·.n == a.n) = some a := by simp [h]
  simp only [performReq_one, performReq, hfind, performLanes_alone a hothers, performOlder_one h]

theorem dram_performAccess_load {p : Place} {s : State} {a : Access} {size : Nat} {signed : Bool} (hv : a.val = none)
    (hk : a.kind = .load size signed) :
    (performAccess p a s).dram = (threadRead p a.va a.tgt size a.hint s).2.dram := by
  rw [performAccess_load hv hk, State.modThread_dram]

/-! ### Writebacks and captured rows (09 R209, R211) -/

theorem writeBack_changed {l line : Nat} {s : State} (h : FMap.get? (s.landing l).msc line = some true) :
    FMap.get? ((writeBack l line s).landing l).msc line = some false := by
  rw [writeBack, if_pos h, State.landing_modLanding_self, FMap.get?_put_self]

/-- What serving reads from the memory-side cache keeps of a landing: its captured rows and their count. -/
def Landing.captures (d : Landing) : List Nat × Word := (d.pinned, d.capt)

theorem captures_modLanding {f : Landing → Landing} (hf : ∀ d, (f d).captures = d.captures) (l k : Nat) (s : State) :
    ((s.modLanding l f).landing k).captures = (s.landing k).captures := by
  by_cases h : k = l
  · rw [h, State.landing_modLanding_self, hf]
  · rw [State.landing_modLanding_of_ne _ _ _ _ h]

theorem captures_writeBack (l line k : Nat) (s : State) :
    ((writeBack l line s).landing k).captures = (s.landing k).captures := by
  unfold writeBack
  split
  · exact captures_modLanding (by intro d; rfl) l k s
  · rfl

theorem captures_mscRoom (l line k : Nat) (s : State) :
    ((mscRoom l line s).landing k).captures = (s.landing k).captures := by
  unfold mscRoom
  dsimp only
  split
  · rfl
  · split
    · rfl
    · exact (captures_modLanding (by intro d; rfl) l k _).trans (captures_writeBack l _ k s)

theorem captures_mscPut (l line k : Nat) (b : Bool) (s : State) :
    ((mscPut l line b s).landing k).captures = (s.landing k).captures := by
  unfold mscPut
  exact (captures_modLanding (by intro d; rfl) l k _).trans (captures_mscRoom l line k s)

theorem captures_homeServe (line k : Nat) (s : State) :
    ((homeServe line s).2.2.landing k).captures = (s.landing k).captures := by
  unfold homeServe
  dsimp only
  split
  · rfl
  · exact (captures_mscPut _ _ k _ _).trans (captures_modLanding (by intro d; rfl) _ k s)

/-- A row's lines read into the memory-side cache leave the captured rows, and memory, as they were. -/
theorem foldl_homeServe (ls : List Nat) (k : Nat) (s : State) :
    ((ls.foldl (fun s n => (homeServe n s).2.2) s).landing k).captures = (s.landing k).captures ∧
      (ls.foldl (fun s n => (homeServe n s).2.2) s).dram = s.dram := by
  induction ls generalizing s with
  | nil => exact ⟨rfl, rfl⟩
  | cons n ls ih =>
    obtain ⟨hcapt, hdram⟩ := ih (homeServe n s).2.2
    exact ⟨hcapt.trans (captures_homeServe n k s), hdram.trans (homeServe_dram n s)⟩

/-- A row not captured yet, with room in the reserve, is captured: it is pinned and counted. -/
theorem captureRow_room {l row : Nat} {s : State} (hrow : row ∉ (s.landing l).pinned)
    (hroom : (s.landing l).pinned.length < 4096) :
    ((captureRow l row s).landing l).pinned = (s.landing l).pinned ++ [row] ∧
      ((captureRow l row s).landing l).capt = (s.landing l).capt + 1 ∧ (captureRow l row s).dram = s.dram := by
  let u := s.modLanding l fun d => { d with capt := d.capt + 1 }
  have hland : u.landing l = { s.landing l with capt := (s.landing l).capt + 1 } := State.landing_modLanding_self _ _ _
  have hnew : (u.landing l).pinned.contains row = false := by
    rw [hland]
    simpa using hrow
  have hfits : ¬ 4096 ≤ (u.landing l).pinned.length := by
    rw [hland]
    exact Nat.not_le.mpr hroom
  have hcapture : captureRow l row s = ((rowLines l row u).foldl (fun s n => (homeServe n s).2.2) u).modLanding l
      fun d => { d with pinned := d.pinned ++ [row] } := by
    unfold captureRow
    simp only [u, hnew, hfits, Bool.false_eq_true, if_false]
  obtain ⟨hcapt, hdram⟩ := foldl_homeServe (rowLines l row u) l u
  obtain ⟨hpinned, hcount⟩ := Prod.mk.inj hcapt
  rw [hcapture, State.landing_modLanding_self, hpinned, hcount, State.modLanding_dram, hdram, hland]
  exact ⟨rfl, rfl, rfl⟩

/-! ### The statement -/

/-- A store alone at its slice, whose home waits for no acknowledgement, is written with its request. -/
theorem homeRequest_store_writes {s : State} {e : Store} {pa : Nat} {mca nc cmp : Bool} (hwf : Memory.wf s.dram = true)
    (h : s.stores = [e]) (hs : e.stage = .slice) (ht : e.tgt = .dram pa mca nc cmp) (hm : e.merge = 0)
    (hw : e.written = false) (hnow : mca = false ∧ nc = false ∨ invalidated s e (pa / 128) nc = []) :
    ∃ t, exec (.homeRequest [.store e.n]) s = .next t ∧ WritesAlone e pa
      [{ e with stage := .home, since := e.since + 1, written := true, acks := invalidated s e (pa / 128) nc }] s t := by
  let u := takenAt s e (pa / 128) nc
  let e' : Store := { e with stage := .home, since := e.since + 1, acks := invalidated s e (pa / 128) nc }
  have hu : u.stores = [e'] := rfl
  have hok : (e'.acks.isEmpty || (!e'.mca && !e'.nc)) = true := by
    rw [Store.mca_of_tgt (e := e') ht, Store.nc_of_tgt (e := e') ht]
    rcases hnow with ⟨hmca, hnc⟩ | hnone
    · simp [hmca, hnc]
    · simp [e', hnone]
  obtain ⟨⟨hbytes, hothers, hstores⟩, -⟩ := writeStore_writesAlone (s := u) (e := e') hu hwf ht hm
  refine ⟨_, homeRequest_store_one h hs ht hm, ?_⟩
  rw [writeReady_writes hu (Store.line?_of_tgt (e := e') ht) rfl hw hok]
  exact ⟨hbytes, hothers, hstores⟩

/-- A store alone at its slice, whose home waits for acknowledgements, stands at its home with its request. -/
theorem homeRequest_store_waits {s : State} {e : Store} {pa : Nat} {mca nc cmp : Bool} (h : s.stores = [e])
    (hs : e.stage = .slice) (ht : e.tgt = .dram pa mca nc cmp) (hm : e.merge = 0) (hw : e.written = false)
    (hmca : ¬ (mca = false ∧ nc = false)) (hsome : invalidated s e (pa / 128) nc ≠ []) :
    exec (.homeRequest [.store e.n]) s = .next (takenAt s e (pa / 128) nc) := by
  let e' : Store := { e with stage := .home, since := e.since + 1, acks := invalidated s e (pa / 128) nc }
  have hlate : (!e'.mca && !e'.nc) = false := by
    rw [Store.mca_of_tgt (e := e') ht, Store.nc_of_tgt (e := e') ht]
    simpa using hmca
  rw [homeRequest_store_one h hs ht hm,
    writeReady_waits (e := e') rfl (Store.line?_of_tgt (e := e') ht) rfl hw hsome hlate]

/-- The last acknowledgement of a store's invalidations writes its bytes, and the die holds no copy. -/
theorem invalidationAcknowledge_last {s : State} {e : Store} {pa : Nat} {nc cmp : Bool} {d : Fin 4}
    (hwf : Memory.wf s.dram = true) (h : s.stores = [e]) (hs : e.stage = .home) (ht : e.tgt = .dram pa true nc cmp)
    (hm : e.merge = 0) (hw : e.written = false) (ha : e.acks = [d.val]) :
    ∃ t, exec (.invalidationAcknowledge e.n d) s = .next t ∧
      WritesAlone e pa [{ e with acks := [], written := true }] s t ∧
      FMap.get? t.slices (copyKey (pa / 128) d.val) = none := by
  let e' : Store := { e with acks := [] }
  let u := modStore e.n (fun e => { e with acks := e.acks.filter (· != d.val) }) (dropCopy (pa / 128) d.val s)
  have hline : e.line? = some (pa / 128) := Store.line?_of_tgt ht
  have hearly : e.early = false := by rw [Store.early, Store.mca_of_tgt ht]; rfl
  have hdrop : (dropCopy (pa / 128) d.val s).stores = [e] := h
  have hu : u.stores = [e'] := by
    rw [modStore_one hdrop, ha]
    simp [e']
  have hwrites : ackStore e.n d.val s = writeStore e' u := by
    rw [ackStore_one h hs hline (ha ▸ List.mem_singleton_self _) hearly]
    exact writeReady_writes hu hline hs hw rfl
  obtain ⟨⟨hbytes, hothers, hstores⟩, hslices⟩ := writeStore_writesAlone (s := u) (e := e') hu hwf ht hm
  refine ⟨writeStore e' u, congrArg Host.Outcome.next hwrites, ⟨hbytes, hothers, hstores⟩, ?_⟩
  rw [hslices]
  exact FMap.get?_del_self _ _

/-- An activation that does not bring its row's count to 512 is counted. -/
theorem rowCapture_counts {s : State} {l : Fin 8} {row : Nat}
    (hn : FMap.getD (s.landing l.val).rows row 0 + 1 ≠ 512) : exec (.rowCapture l row) s =
      .next (s.modLanding l.val fun d =>
        { d with rows := FMap.put d.rows row (FMap.getD (s.landing l.val).rows row 0 + 1) }) := by
  simp only [exec_rowCapture, execRowCapture, if_neg hn]

/-- The activation that brings its row's count to 512 captures it, where the reserve has room. -/
theorem rowCapture_captures {s : State} {l : Fin 8} {row : Nat}
    (hn : FMap.getD (s.landing l.val).rows row 0 + 1 = 512) (hrow : row ∉ (s.landing l.val).pinned)
    (hroom : (s.landing l.val).pinned.length < 4096) :
    ∃ t, exec (.rowCapture l row) s = .next t ∧ (t.landing l.val).pinned = (s.landing l.val).pinned ++ [row] ∧
      (t.landing l.val).capt = (s.landing l.val).capt + 1 ∧ t.dram = s.dram := by
  let u := s.modLanding l.val fun d =>
    { d with rows := FMap.put d.rows row (FMap.getD (s.landing l.val).rows row 0 + 1) }
  have hcapt : (u.landing l.val).captures = (s.landing l.val).captures := captures_modLanding (by intro d; rfl) _ _ s
  obtain ⟨hpinned, hcount⟩ := Prod.mk.inj hcapt
  refine ⟨captureRow l.val row u, ?_, ?_⟩
  · simp only [exec_rowCapture, execRowCapture, if_pos hn, u]
  · rw [← hpinned, ← hcount]
    exact captureRow_room (hpinned ▸ hrow) (hpinned ▸ hroom)

/-- Settles O55: with one store or one load under way, each event of the path does what its own lemma says. -/
theorem storesAndLoadsArePerformed : Obligations.StoresAndLoadsArePerformed := by
  unfold Obligations.StoresAndLoadsArePerformed
  refine ⟨?request, ?invalidation, ?acknowledgement, ?landing, ?load, ?writeback, ?row, fun _ _ => rfl⟩
  case request =>
    intro s e pa mca nc cmp hcan h hs ht hm hw others
    constructor
    · intro hnow
      obtain ⟨t, hx, hbytes, hothers, hstores⟩ := homeRequest_store_writes hcan.dram h hs ht hm hw hnow
      exact ⟨t, hx, hbytes, hothers, hstores⟩
    · intro hmca hsome
      exact ⟨_, homeRequest_store_waits h hs ht hm hw hmca hsome, rfl, rfl⟩
  case invalidation =>
    intro s e pa nc cmp d hcan h hs ht hm hw ha
    obtain ⟨t, hx, ⟨hbytes, hothers, hstores⟩, hcopy⟩ := invalidationAcknowledge_last hcan.dram h hs ht hm hw ha
    exact ⟨t, hx, hbytes, hothers, hcopy, hstores⟩
  case acknowledgement =>
    intro s e h hs hw ha
    have hready : e.ready = true := by simp [Store.ready, hs, hw, ha]
    obtain ⟨hstores, hdram⟩ := ackOne_quiet h
    exact ⟨ackOne e s, congrArg Host.Outcome.next (acknowledge_one h hready), hstores, hdram⟩
  case landing =>
    intro s p a d v hp h hv hf hr
    exact congrArg Host.Outcome.next (landAccess_x hp h hv hf hr)
  case load =>
    intro s p a size signed h hv hk _ hothers
    exact ⟨performAccess p a s, _, _, rfl, homeRequest_load_one h hothers, loads_performAccess_load h hv hk,
      dram_performAccess_load hv hk⟩
  case writeback =>
    intro s l line hl hd
    exact ⟨writeBack l.val line s, congrArg Host.Outcome.next (if_pos hl), writeBack_dram _ _ _, writeBack_changed hd⟩
  case row =>
    intro s l row n
    exact ⟨rowCapture_counts, rowCapture_captures⟩

end Sys2Proof.Machine
end

section
/-!
SUPPORT. The doublewords that a word loads as a record, and the wait for a tile's seal of a thread that does not yet
wait: what the words of streams and of copies share.
-/

namespace Sys2Proof.Machine

/-! ### A record loaded (10 R245, R247) -/

/-- An access that goes on leaves the memory path changed at most. -/
theorem access_ok {p : Place} {va : Word} {w : Nat} {need : Need} {s t : State} {k : Target → State → Res}
    (h : access p va w need s k = .ok t) : ∃ tg u, Settles p s u ∧ k tg u = .ok t := by
  have hroute := (memPath_route (s.agent p) va w need s).settles p
  unfold access at h
  dsimp only at h
  cases e : route (s.agent p) va w need s with
  | mk r u =>
    rw [e] at h hroute
    cases r with
    | bad c => cases h
    | missed r l => cases h
    | held => cases h
    | _ tg =>
      dsimp only at h
      split at h
      · cases h
      · exact ⟨tg, u, hroute, h⟩

theorem loadNow_ok {p : Place} {va : Word} {w : Nat} {s t : State} {k : Nat → State → Res}
    (h : loadNow p va w s k = .ok t) : ∃ v u, Settles p s u ∧ k v u = .ok t := by
  obtain ⟨tg, u, hu, hk⟩ := access_ok h
  exact ⟨_, _, hu.trans ((memPath_threadRead p va tg w .normal u).settles p), hk⟩

theorem settles_of_loadWords_ok {p : Place} {n : Nat} {va : Word} {acc : List Word} {s t : State}
    (h : loadWords p n va acc s (fun _ u => .ok u) = .ok t) : Settles p s t := by
  induction n generalizing va acc s with
  | zero =>
    cases h
    exact Settles.refl p _
  | succ n ih =>
    obtain ⟨v, u, hu, hk⟩ := loadNow_ok h
    exact hu.trans (ih hk)

/-- The loads of a record leave the memory path and accesses in flight changed at most. -/
theorem Loaded.settles {p : Place} {n : Nat} {va : Word} {s s' : State} {ws : List Word}
    (h : Loaded p n va s ws s') : Settles p s s' := settles_of_loadWords_ok (h fun _ u => .ok u)

/-! ### What a thread finds that has begun no wait -/

theorem waitOf_of_running {p : Place} {s : State} (h : (s.thread p).run = .running) : waitOf p s = none := by
  unfold waitOf
  rw [h]

theorem Settles.gang {p : Place} {s t : State} (h : Settles p s t) : (t.thread p).gang = (s.thread p).gang := by
  have hkept : (t.thread p).kept.gang = (s.thread p).kept.gang := congrArg Thread.gang h.kept
  exact hkept

section
variable {p : Place} {h : Word} {s : State} (onFault : State → State) (told k : State → Res)

theorem sealWait_sealed (hw : waitOf p s = none) (hl : handleLive (s.thread p).gang h s = true)
    (hs : handleSlot (s.thread p).gang h s = some (.sealed, false)) : sealWait p h s onFault told k = k s := by
  simp [sealWait, hw, hl, hs]

/-- A tile whose share is saved, or that is being filled, is waited for (11 R251, R261). -/
theorem sealWait_unsealed (hw : waitOf p s = none)
    (hs : handleLive (s.thread p).gang h s = false ∨ handleSlot (s.thread p).gang h s = some (.filling, false)) :
    sealWait p h s onFault told k = .wait { s with reqCtr := s.reqCtr + 1 } (.waiting 1 s.reqCtr) := by
  cases hl : handleLive (s.thread p).gang h s with
  | false => simp [sealWait, hw, hl, unsealed]
  | true =>
    have hfill := hs.resolve_left (by rw [hl]; exact Bool.noConfusion)
    simp [sealWait, hw, hl, hfill, unsealed]

end

end Sys2Proof.Machine
end

section
/-!
PROOF. The stream words (O26): SBIND through its record, its tile and its wait for the seal, SCLOSE and SSTAT.
-/

namespace Sys2Proof.Machine

/-! ### SBIND (10 R229, R245) -/

/-- What SBIND comes to once the stores that its stream must observe are under way: the register is bound, and a read
stream of a tile waits for the seal. -/
def bindSettled (p : Place) (i : Fin 4) (m : Strm) (s : State) : Res :=
  if m.hvalid && !m.writes then
    sbindWait p i m.handle (modStrm p i.val (fun _ => some { m with sealed := false }) s)
  else .ok (modStrm p i.val (fun _ => some m) s)

/-- What SBIND of a thread of gang g comes to with the record r read: its checks and those of its handle. -/
def bindRecord (p : Place) (i : Fin 4) (g : Nat) (r : List Word) (s : State) : Res :=
  match strmBad g r s with
  | some o => .trap s Cause.streamRecord (ofN o)
  | none =>
    match (if (freshStrm r true).hvalid then handleSlot g (freshStrm r true).handle s else none) with
    | some (_, true) => .trap s Cause.overRead (freshStrm r true).handle
    | _ => bindSettled p i (freshStrm r true) (settleBind p s)

/-- What SBIND of the record at va comes to from s, in which its thread waits for no seal (10 R245). -/
def bindRes (p : Place) (i : Fin 4) (va : Word) (s : State) : Res :=
  if (strmAt p i.val s).isSome then .trap s Cause.stream 1
  else if !canonical va || va.toNat % 64 ≠ 0 then .trap s Cause.access va
  else loadWords p 8 va [] (forceAtoms p s) (bindRecord p i (s.thread p).gang)

theorem sbind_comesTo {p : Place} {s : State} {i : Fin 4} {a : Reg} (h : Clear (.sbind i a) p s) :
    ComesTo (.sbind i a) p s (bindRes p i (getX p a (atIssue (.sbind i a) p s)) (atIssue (.sbind i a) p s)) := by
  refine ⟨_, exec_sbind i a s, ?_⟩
  have hstage : sealStage p (atIssue (.sbind i a) p s) = false := by rw [sealStage, atIssue_waitOf h.issues]
  dsimp only
  rw [hstage, if_neg Bool.false_ne_true]
  rfl

section
variable {p : Place} {s : State} {i : Fin 4} {va : Word}

theorem bindRes_bound (h : (strmAt p i.val s).isSome = true) : bindRes p i va s = .trap s Cause.stream 1 := if_pos h

theorem bindRes_misplaced (h : strmAt p i.val s = none) (ha : canonical va = false ∨ va.toNat % 64 ≠ 0) :
    bindRes p i va s = .trap s Cause.access va := by
  rw [bindRes, h, if_neg (by simp), if_pos (by simpa using ha)]

theorem bindRes_loaded {r : List Word} {s' : State} (h : strmAt p i.val s = none) (hc : canonical va = true)
    (ha : va.toNat % 64 = 0) (hl : Loaded p 8 va (forceAtoms p s) r s') :
    bindRes p i va s = bindRecord p i (s.thread p).gang r s' := by
  rw [bindRes, h, if_neg (by simp), if_neg (by simp [hc, ha])]
  exact hl _

end

section
variable {p : Place} {s : State} {i : Fin 4} {g : Nat} {r : List Word}

theorem bindRecord_bad {o : Nat} (h : strmBad g r s = some o) :
    bindRecord p i g r s = .trap s Cause.streamRecord (ofN o) := by
  rw [bindRecord, h]

theorem bindRecord_stale {st : SlotSt} (h : strmBad g r s = none) (hv : (freshStrm r true).hvalid = true)
    (hs : handleSlot g (freshStrm r true).handle s = some (st, true)) :
    bindRecord p i g r s = .trap s Cause.overRead (freshStrm r true).handle := by
  simp only [bindRecord, h, hv, if_true, hs]

/-- A record without a handle, or whose handle is not stale, is bound. -/
theorem bindRecord_binds (h : strmBad g r s = none)
    (hs : (freshStrm r true).hvalid = true → ∀ st, handleSlot g (freshStrm r true).handle s ≠ some (st, true)) :
    bindRecord p i g r s = bindSettled p i (freshStrm r true) (settleBind p s) := by
  simp only [bindRecord, h]
  split
  · rename_i st e
    split at e
    · rename_i hv
      exact absurd e (hs hv st)
    · cases e
  · rfl

theorem bindSettled_now {m : Strm} (h : m.hvalid = false ∨ m.writes = true) :
    bindSettled p i m s = .ok (modStrm p i.val (fun _ => some m) s) :=
  if_neg (by rcases h with h | h <;> simp [h])

theorem bindSettled_waits (hv : (freshStrm r true).hvalid = true) (hw : (freshStrm r true).writes = false) :
    bindSettled p i (freshStrm r true) s =
      sbindWait p i (freshStrm r true).handle (modStrm p i.val (fun _ => some (freshStrm r false)) s) :=
  if_pos (by simp [hv, hw])

end

theorem modStrm_thread (p : Place) (i : Nat) (f : Option Strm → Option Strm) (s : State) :
    (modStrm p i f s).thread p = { s.thread p with strm := (s.thread p).strm.modify i f } :=
  State.thread_modThread_self s p _

theorem settles_settleBind (p : Place) (s : State) : Settles p s (settleBind p s) :=
  (memPath_drain _ _ s).settles p

/-- The thread of an SBIND, its record read and its register bound, has begun no wait and is of the gang it was of. -/
theorem waitOf_and_gang_of_bound {i : Instr} {p : Place} {s s' : State} {n : Nat} {va : Word} {r : List Word} {k : Nat}
    {f : Option Strm → Option Strm} (h : Issues s p)
    (hl : Loaded p n va (forceAtoms p (atIssue i p s)) r s') :
    waitOf p (modStrm p k f (settleBind p s')) = none ∧
      ((modStrm p k f (settleBind p s')).thread p).gang = ((atIssue i p s).thread p).gang := by
  have hset := ((settles_forceAtoms p (atIssue i p s)).trans hl.settles).trans (settles_settleBind p s')
  rw [modStrm_thread]
  refine ⟨waitOf_of_running ?_, hset.gang⟩
  rw [modStrm_thread]
  exact (hset.run p).trans (atIssue_run h)

/-! ### SCLOSE (10 R245) -/

/-- What SCLOSE comes to with the stream m, once its pushes have been tried: s₂ with the register still bound, s₃ with
it unbound. -/
def closeRes (m : Strm) (s₂ s₃ : State) : Res :=
  if !m.push.isEmpty || m.counting then .wait s₂ (.waiting 1 0)
  else match m.failAt with
    | some f => .trap s₃ f.1 f.2
    | none => if m.stale then .trap s₃ Cause.overRead m.handle else .ok s₃

section
variable {m : Strm} {s₂ s₃ : State}

theorem closeRes_waits (h : m.push ≠ [] ∨ m.counting = true) : closeRes m s₂ s₃ = .wait s₂ (.waiting 1 0) :=
  if_pos (by simpa using h)

theorem closeRes_failed {c : Nat} {v : Word} (hp : m.push = []) (hc : m.counting = false)
    (hf : m.failAt = some (c, v)) : closeRes m s₂ s₃ = .trap s₃ c v := by
  simp [closeRes, hp, hc, hf]

theorem closeRes_stale (hp : m.push = []) (hc : m.counting = false) (hf : m.failAt = none) (hs : m.stale = true) :
    closeRes m s₂ s₃ = .trap s₃ Cause.overRead m.handle := by
  simp [closeRes, hp, hc, hf, hs]

theorem closeRes_closed (hp : m.push = []) (hc : m.counting = false) (hf : m.failAt = none) (hs : m.stale = false) :
    closeRes m s₂ s₃ = .ok s₃ := by
  simp [closeRes, hp, hc, hf, hs]

end

theorem sclose_unbound {p : Place} {s : State} {i : Fin 4} (h : strmAt p i.val (atIssue (.sclose i) p s) = none) :
    ComesTo (.sclose i) p s (.ok (atIssue (.sclose i) p s)) := by
  refine ⟨_, exec_sclose i s, ?_⟩
  rw [strmAt] at h
  simp only [h]

theorem sclose_bound {p : Place} {s : State} {i : Fin 4} {o m : Strm}
    (ho : strmAt p i.val (atIssue (.sclose i) p s) = some o)
    (hm : strmAt p i.val (settleOwn p (pushMany p i.val 64 (atIssue (.sclose i) p s))) = some m) :
    let s₂ := settleOwn p (pushMany p i.val 64 (atIssue (.sclose i) p s))
    ComesTo (.sclose i) p s
      (closeRes m s₂ (dropMiss (.stream p i.val) (modStrm p i.val (fun _ => none) s₂))) := by
  refine ⟨_, exec_sclose i s, ?_⟩
  rw [strmAt] at ho hm
  simp only [ho, hm]
  rfl

/-! ### SSTAT (10 R246) -/

theorem statusWord_eq (b : Bool) (n : Nat) :
    1 + b2n b * 2 + n * 2 ^ 16 = 1 + (if b then 2 else 0) + n * 65536 := by cases b <;> rfl

/-! ### The statement -/

/-- Settles O26: SBIND comes to its first failing check or to the register bound, SCLOSE to what its stream has left
to do or to report. -/
theorem streamWordsBindCloseAndReport : Obligations.StreamWordsBindCloseAndReport := by
  unfold Obligations.StreamWordsBindCloseAndReport
  refine ⟨fun p s i a h => ⟨fun hb => ?bound, fun hb ha => ?misplaced, fun r s' hb hc ha hl => ?record⟩,
    fun p s i h => ⟨fun hn => ?unbound, fun o m ho hm => ?close⟩, fun p s d i h => ⟨fun hn => ?free, fun m hm => ?bind⟩⟩
  case bound => exact (bindRes_bound hb ▸ sbind_comesTo h).traps h rfl
  case misplaced => exact (bindRes_misplaced hb ha ▸ sbind_comesTo h).traps h rfl
  case record =>
    have e := sbind_comesTo h
    rw [bindRes_loaded hb hc ha hl] at e
    refine ⟨fun o ho => ?bad, fun ho hv => ?plain, fun ho hv st hs => ?stale, fun ho hv hw hs => ?write,
      fun ho hv hw hs => ?read⟩
    case bad => exact (bindRecord_bad ho ▸ e).traps h rfl
    case plain =>
      rw [bindRecord_binds ho fun hv' => absurd (hv.symm.trans hv') Bool.false_ne_true, bindSettled_now (.inl hv)] at e
      exact e.completes h rfl
    case stale => exact (bindRecord_stale ho hv hs ▸ e).traps h rfl
    case write =>
      rw [bindRecord_binds ho fun _ => hs, bindSettled_now (.inr hw)] at e
      exact e.completes h rfl
    case read =>
      obtain ⟨hwait, hgang⟩ := waitOf_and_gang_of_bound (f := fun _ => some (freshStrm r false)) h.issues hl
      rw [bindRecord_binds ho fun _ => hs, bindSettled_waits hv hw, sbindWait] at e
      constructor
      · intro hlive hslot
        rw [← hgang] at hlive hslot
        exact (sealWait_sealed _ _ _ hwait hlive hslot ▸ e).completes h rfl
      · intro hslot
        rw [← hgang] at hslot
        exact (sealWait_unsealed _ _ _ hwait hslot ▸ e).blocks h rfl
  case unbound => exact (sclose_unbound hn).completes h rfl
  case close =>
    have e : ComesTo (.sclose i) p s (closeRes m _ _) := sclose_bound ho hm
    exact ⟨fun hp => (closeRes_waits hp ▸ e).blocks h rfl,
      fun c v hp hc hf => (closeRes_failed hp hc hf ▸ e).traps h rfl,
      fun hp hc hf hs => (closeRes_stale hp hc hf hs ▸ e).traps h rfl,
      fun hp hc hf hs => (closeRes_closed hp hc hf hs ▸ e).completes h rfl⟩
  case free =>
    refine completes_of_ok (exec_sstat d i s) h ?_
    rw [strmAt] at hn
    simp only [hn]
    exact congrArg Res.ok (setX_ctx h.issues.context 0 d _ _)
  case bind =>
    refine completes_of_ok (exec_sstat d i s) h ?_
    rw [strmAt] at hm
    simp only [hm]
    exact congrArg Res.ok ((setX_ctx h.issues.context 0 d _ _).trans
      (congrArg (fun n => putX p d (ofN n) _) (statusWord_eq m.writes _)))

end Sys2Proof.Machine
end

section
/-!
PROOF. TCOPY (O27): its address, its record, and its entry into the engine's queue.
-/

namespace Sys2Proof.Machine

/-! ### The checks of TCOPY (10 R237, R247) -/

/-- What TCOPY comes to with the record r read. -/
def copyRecord (p : Place) (d : Reg) (r : List Word) (s : State) : Res :=
  match copyBad p r s with
  | some o => .trap s Cause.layoutRecord (ofN o)
  | none => enterReleased p d r s

/-- What TCOPY of the record at va comes to from s, in which its thread does not wait for the queue. -/
def copyRes (p : Place) (d : Reg) (va : Word) (s : State) : Res :=
  if !canonical va || va.toNat % 64 ≠ 0 then .trap s Cause.access va
  else if p.engine != .landing && !ownRaw p va s then .trap s Cause.access va
  else loadWords p 32 va [] (forceAtoms p s) (copyRecord p d)

theorem tcopy_comesTo {p : Place} {s : State} {d a : Reg} (h : Clear (.tcopy d a) p s) :
    ComesTo (.tcopy d a) p s (copyRes p d (getX p a (atIssue (.tcopy d a) p s)) (atIssue (.tcopy d a) p s)) := by
  refine ⟨_, exec_tcopy d a s, ?_⟩
  dsimp only
  rw [atIssue_waitOf h.issues]
  rfl

/-- TCOPY takes a record at va: aligned, and of a cluster's thread in the RAW view of the own share's window. -/
def RecordAddress (p : Place) (va : Word) (s : State) : Prop :=
  canonical va = true ∧ va.toNat % 64 = 0 ∧ (p.engine = .landing ∨ ownRaw p va s = true)

section
variable {p : Place} {d : Reg} {va : Word} {r : List Word} {s : State}

theorem copyRes_refused (h : ¬ RecordAddress p va s) : copyRes p d va s = .trap s Cause.access va := by
  unfold copyRes
  by_cases hform : canonical va = true ∧ va.toNat % 64 = 0
  · obtain ⟨hc, ha⟩ := hform
    obtain ⟨hland, hraw⟩ := not_or.mp fun hview => h ⟨hc, ha, hview⟩
    rw [if_neg (by simp [hc, ha]), if_pos (by simp [hland, hraw])]
  · exact if_pos (by simpa using Decidable.not_and_iff_not_or_not.mp hform)

theorem copyRes_loaded {s' : State} (h : RecordAddress p va s) (hl : Loaded p 32 va (forceAtoms p s) r s') :
    copyRes p d va s = copyRecord p d r s' := by
  obtain ⟨hc, ha, hview⟩ := h
  rw [copyRes, if_neg (by simp [hc, ha]), if_neg (by rcases hview with hview | hview <;> simp [hview])]
  exact hl _

theorem copyRecord_bad {o : Nat} (h : copyBad p r s = some o) :
    copyRecord p d r s = .trap s Cause.layoutRecord (ofN o) := by
  rw [copyRecord, h]

/-! ### The release and the queue (10 R239, R247) -/

/-- A pushed element that must stay holds up the release: the record is kept with one doubleword more. -/
theorem copyRecord_pushing (h : copyBad p r s = none) (hp : ((pushAll p s).thread p).pushing = true) :
    copyRecord p d r s = .wait (pushAll p s) (.queuing (r ++ [1])) := by
  simp only [copyRecord, h, enterReleased, releaseOr, hp, if_true]

theorem copyRecord_released (h : copyBad p r s = none) (hp : ((pushAll p s).thread p).pushing = false) :
    copyRecord p d r s = enterCopy p d r (releaseStores p .die true (pushAll p s)) := by
  simp only [copyRecord, h, enterReleased, releaseOr, hp, Bool.false_eq_true, if_false]

theorem enterCopy_enters {g k i : Nat} (ht : tlRef p (cpTl r) s = some (g, k, i))
    (hroom : copyRoom (copyUnitOf p) s = true) (hlive : s.shareLive g k = true) :
    enterCopy p d r s = .ok (setX p 0 d (ofN (tlRegister g k i s).1.n)
      (modCopies (copyUnitOf p) (· ++ [newCopy p (s.thread p) r (tlRegister g k i s).1]) (tlRegister g k i s).2)) := by
  simp only [enterCopy, ht, hroom, hlive, Bool.not_true, Bool.or_self, Bool.false_eq_true, if_false]
  rfl

theorem enterCopy_waits {g k i : Nat} (ht : tlRef p (cpTl r) s = some (g, k, i))
    (h : copyRoom (copyUnitOf p) s = false ∨ s.shareLive g k = false) :
    enterCopy p d r s = .wait s (.queuing r) := by
  simp only [enterCopy, ht]
  exact if_pos (by simpa using h)

end

/-! ### The statement -/

/-- Settles O27: TCOPY comes to its first failing check, or to its release and its copy's entry into the queue. -/
theorem tcopyRegistersAndQueues : Obligations.TcopyRegistersAndQueues := by
  unfold Obligations.TcopyRegistersAndQueues
  intro p s d a h s₁ va ok
  have e := tcopy_comesTo h
  refine ⟨fun hno => (copyRes_refused hno ▸ e).traps h rfl, fun r s' hok hl => ?_⟩
  rw [copyRes_loaded hok hl] at e
  refine ⟨fun o ho => (copyRecord_bad ho ▸ e).traps h rfl, fun ho hp => (copyRecord_pushing ho hp ▸ e).blocks h rfl, ?_⟩
  intro ho s₂ g k i hp ht
  rw [copyRecord_released ho hp] at e
  refine ⟨fun hroom hlive => ?_, fun hfull => (enterCopy_waits ht hfull ▸ e).blocks h rfl⟩
  rw [enterCopy_enters ht hroom hlive, setX_ctx h.issues.context] at e
  exact e.completes h rfl

end Sys2Proof.Machine
end

section
/-!
PROOF. Timelines (O28): the words TLWAIT, TLREAD and TLARM, and how V advances.
-/

namespace Sys2Proof.Machine

/-! ### A timeline reference (10 R241) -/

section
variable {p : Place} {a : Word} {s : State} (k : Nat → Nat → Nat → Timeline → State → Res)

theorem withTl_unnamed (h : tlRef p a s = none) : withTl p a s k = .trap s Cause.timeline 1 := by
  rw [withTl, h]

theorem withTl_saved {g r n : Nat} (h : tlRef p a s = some (g, r, n)) (hl : s.shareLive g r = false) :
    withTl p a s k = .wait s (.waiting 0 0) := by
  simp only [withTl, h, hl, Bool.not_false, if_true]

theorem withTl_goes {g r n : Nat} {t : Timeline} (h : tlRef p a s = some (g, r, n)) (hl : s.shareLive g r = true)
    (ht : s.tl? g r n = some t) : withTl p a s k = k g r n t s := by
  simp only [withTl, h, hl, ht, Bool.not_true, Bool.false_eq_true, if_false]

end

/-- The words that name a timeline in xa: each begins with the check of that reference. -/
theorem timelineWord_comesTo {i : Instr} {sc : Scope} {a b : Reg} (p : Place) (s : State)
    (hi : i = .tlwait sc a b ∨ (∃ k, i = .tlread k b a) ∨ i = .tlarm a b) :
    ∃ k, ComesTo i p s (withTl p (getX p a (atIssue i p s)) (atIssue i p s) k) := by
  obtain rfl | ⟨k, rfl⟩ | rfl := hi
  · exact ⟨_, _, exec_tlwait sc a b s, rfl⟩
  · exact ⟨_, _, exec_tlread k b a s, rfl⟩
  · exact ⟨_, _, exec_tlarm a b s, rfl⟩

/-! ### TLWAIT (10 R243, R248) -/

/-- What TLWAIT for number n comes to at the timeline t. -/
def tlwaitRes (p : Place) (sc : Scope) (n : Nat) (t : Timeline) (s : State) : Res :=
  if t.f ≠ 0 ∧ t.f ≤ n then .trap s t.fcause (ofN t.f)
  else if n ≤ t.v then .ok (acquire p sc s)
  else .wait s (.waiting 0 0)

theorem comesTo_tlwait {p : Place} {s : State} {sc : Scope} {a b : Reg} {g r n : Nat} {t : Timeline}
    (h : tlRef p (getX p a (atIssue (.tlwait sc a b) p s)) (atIssue (.tlwait sc a b) p s) = some (g, r, n))
    (hl : (atIssue (.tlwait sc a b) p s).shareLive g r = true)
    (ht : (atIssue (.tlwait sc a b) p s).tl? g r n = some t) :
    ComesTo (.tlwait sc a b) p s
      (tlwaitRes p sc (getX p b (atIssue (.tlwait sc a b) p s)).toNat t (atIssue (.tlwait sc a b) p s)) :=
  ⟨_, exec_tlwait sc a b s, withTl_goes _ h hl ht⟩

section
variable {p : Place} {sc : Scope} {n : Nat} {t : Timeline} {s : State}

theorem tlwaitRes_failed (h : t.f ≠ 0 ∧ t.f ≤ n) : tlwaitRes p sc n t s = .trap s t.fcause (ofN t.f) := if_pos h

theorem tlwaitRes_reached (h : ¬ (t.f ≠ 0 ∧ t.f ≤ n)) (hn : n ≤ t.v) :
    tlwaitRes p sc n t s = .ok (acquire p sc s) := by
  rw [tlwaitRes, if_neg h, if_pos hn]

theorem tlwaitRes_before (h : ¬ (t.f ≠ 0 ∧ t.f ≤ n)) (hn : t.v < n) :
    tlwaitRes p sc n t s = .wait s (.waiting 0 0) := by
  rw [tlwaitRes, if_neg h, if_neg (Nat.not_le.mpr hn)]

end

/-! ### TLARM (10 R244, R248) -/

/-- The header of a TLARM is not that of a message of at most one payload word. -/
def BadArming (h : Word) : Prop := badHeader h = true ∨ hKind h ≠ 0 ∨ 1 < hCount h

/-- What TLARM of the trigger x, with the header x.hdr, comes to at timeline n of share (g, r), which is t. -/
def armRes (p : Place) (x : Trig) (g r n : Nat) (t : Timeline) (s : State) : Res :=
  if badHeader x.hdr || hKind x.hdr != 0 || decide (1 < hCount x.hdr) then .trap s Cause.messageFormat x.hdr
  else match sendFault p x.hdr s with
    | some c => .trap s c x.hdr
    | none =>
      if 4 ≤ t.trigs.length then .trap s Cause.timeline 3
      else .ok (fireTriggers g r n (modTl g r n (fun t => { t with trigs := t.trigs ++ [x] }) s))

/-- The trigger that TLARM of the registers from b makes: the threshold, the header and the payload. -/
def armedTrig (p : Place) (b : Reg) (hb : b.val + 2 < 32) (s : State) : Trig :=
  let h := getX p ⟨b.val + 1, by omega⟩ s
  { thr := (getX p b s).toNat, hdr := h, pay := getX p ⟨b.val + 2, hb⟩ s, src := p, srcId := srcOf p s,
    rank := destRank p h s }

theorem nregs_ctx {e : Engine} (h : e ≠ .lane) : e.nregs = 32 := by
  cases e with
  | lane => exact absurd rfl h
  | scalar => rfl
  | landing => rfl

theorem comesTo_tlarm {p : Place} {s : State} {a b : Reg} {g r n : Nat} {t : Timeline} (hc : Clear (.tlarm a b) p s)
    (hb : b.val + 2 < 32)
    (h : tlRef p (getX p a (atIssue (.tlarm a b) p s)) (atIssue (.tlarm a b) p s) = some (g, r, n))
    (hl : (atIssue (.tlarm a b) p s).shareLive g r = true) (ht : (atIssue (.tlarm a b) p s).tl? g r n = some t) :
    ComesTo (.tlarm a b) p s
      (armRes p (armedTrig p b hb (atIssue (.tlarm a b) p s)) g r n t (atIssue (.tlarm a b) p s)) := by
  refine ⟨_, exec_tlarm a b s, (withTl_goes _ h hl ht).trans ?_⟩
  dsimp only
  rw [nregs_ctx hc.issues.context, if_pos (show b.val + 1 < 32 by omega), if_neg (show ¬ 32 ≤ b.val + 2 by omega),
    reg_ofNat (b.val + 1) (by omega), reg_ofNat (b.val + 2) hb]
  rfl

section
variable {p : Place} {x : Trig} {g r n : Nat} {t : Timeline} {s : State}

theorem badArming_iff (h : Word) :
    (badHeader h || hKind h != 0 || decide (1 < hCount h)) = true ↔ BadArming h := by
  simp [BadArming, or_assoc]

theorem armRes_bad (h : BadArming x.hdr) : armRes p x g r n t s = .trap s Cause.messageFormat x.hdr :=
  if_pos ((badArming_iff x.hdr).mpr h)

theorem armRes_unsendable {c : Nat} (h : ¬ BadArming x.hdr) (hs : sendFault p x.hdr s = some c) :
    armRes p x g r n t s = .trap s c x.hdr := by
  rw [armRes, if_neg (mt (badArming_iff x.hdr).mp h), hs]

theorem armRes_full (h : ¬ BadArming x.hdr) (hs : sendFault p x.hdr s = none) (hf : 4 ≤ t.trigs.length) :
    armRes p x g r n t s = .trap s Cause.timeline 3 := by
  rw [armRes, if_neg (mt (badArming_iff x.hdr).mp h), hs]
  exact if_pos hf

theorem armRes_arms (h : ¬ BadArming x.hdr) (hs : sendFault p x.hdr s = none) (hf : t.trigs.length < 4) :
    armRes p x g r n t s =
      .ok (fireTriggers g r n (modTl g r n (fun t => { t with trigs := t.trigs ++ [x] }) s)) := by
  rw [armRes, if_neg (mt (badArming_iff x.hdr).mp h), hs]
  exact if_neg (Nat.not_le.mpr hf)

end

/-! ### How V advances (10 R242) -/

/-- u is t with V advanced over what completed early, as far as that goes, and over nothing else. -/
structure Advanced (t u : Timeline) : Prop where
  rises : t.v ≤ u.v
  passed : ∀ k, t.v < k → k ≤ u.v → k ∈ t.early
  stops : u.v + 1 ∉ u.early
  keeps : ∀ k, k ∈ u.early ↔ u.v < k ∧ k ∈ t.early
  issued : u.i = t.i
  failed : u.f = t.f
  triggers : u.trigs = t.trigs

/-- With nothing early left at or below V, a V that no early number follows stays. -/
theorem Advanced.refl {t : Timeline} (hlow : ∀ e ∈ t.early, t.v < e) (hstop : t.v + 1 ∉ t.early) : Advanced t t where
  rises := Nat.le_refl _
  passed _ hlt hle := absurd hle (Nat.not_le.mpr hlt)
  stops := hstop
  keeps k := ⟨fun hk => ⟨hlow k hk, hk⟩, fun hk => hk.2⟩
  issued := rfl
  failed := rfl
  triggers := rfl

/-- The timeline with V over the early number that follows it. -/
def Timeline.next (t : Timeline) : Timeline := { t with v := t.v + 1, early := t.early.filter (· != t.v + 1) }

theorem mem_next_early {t : Timeline} {k : Nat} : k ∈ t.next.early ↔ k ∈ t.early ∧ k ≠ t.v + 1 := by
  simp [Timeline.next]

theorem Advanced.of_next {t u : Timeline} (hnext : t.v + 1 ∈ t.early) (h : Advanced t.next u) : Advanced t u where
  rises := Nat.le_of_succ_le h.rises
  passed k hlt hle := by
    by_cases hk : k = t.v + 1
    · exact hk ▸ hnext
    · exact (mem_next_early.mp (h.passed k (show t.v + 1 < k by omega) hle)).1
  stops := h.stops
  keeps k := by
    have hrise : t.v + 1 ≤ u.v := h.rises
    rw [h.keeps k, mem_next_early]
    constructor
    · rintro ⟨hlt, hk, -⟩
      exact ⟨hlt, hk⟩
    · rintro ⟨hlt, hk⟩
      exact ⟨hlt, hk, by omega⟩
  issued := h.issued
  failed := h.failed
  triggers := h.triggers

/-- Fuel for every early number is enough to advance V as far as it goes. -/
theorem advanced_advance {fuel : Nat} {t : Timeline} (hlow : ∀ e ∈ t.early, t.v < e)
    (hfuel : t.early.length ≤ fuel) : Advanced t (t.advance fuel) := by
  induction fuel generalizing t with
  | zero =>
    have hnone : t.early = [] := List.length_eq_zero_iff.mp (Nat.le_zero.mp hfuel)
    exact Advanced.refl hlow (by simp [hnone])
  | succ fuel ih =>
    by_cases hnext : t.v + 1 ∈ t.early
    · have hstep : t.advance (fuel + 1) = t.next.advance fuel := if_pos (List.contains_iff_mem.mpr hnext)
      have hless : t.next.early.length < t.early.length :=
        List.length_filter_lt_length_iff_exists.mpr ⟨t.v + 1, hnext, by simp⟩
      rw [hstep]
      refine Advanced.of_next hnext (ih (fun e he => ?_) (by omega))
      obtain ⟨hmem, hne⟩ := mem_next_early.mp he
      have := hlow e hmem
      show t.v + 1 < e
      omega
    · have hstep : t.advance (fuel + 1) = t := if_neg (mt List.contains_iff_mem.mp hnext)
      rw [hstep]
      exact Advanced.refl hlow hnext

/-! ### The statement -/

/-- Settles O28: each word comes to what its reference and then its own checks say; V advances by induction on the
numbers that completed early. -/
theorem timelinesWaitReadArmAndAdvance : Obligations.TimelinesWaitReadArmAndAdvance := by
  unfold Obligations.TimelinesWaitReadArmAndAdvance
  refine ⟨⟨fun p s a b sc i hi h => ?reference, fun p s sc a b h g r n t href hl ht => ?wait,
    fun p s k d a h g r n t href hl ht => ?read, fun p s a b h g r n t hb href hl ht => ?arm⟩,
    fun t n _ hlow hn _ => ?advance⟩
  case reference =>
    obtain ⟨k, e⟩ := timelineWord_comesTo p s hi
    exact ⟨fun hr => (withTl_unnamed k hr ▸ e).traps h rfl,
      fun g r n hr hl => (withTl_saved k hr hl ▸ e).blocks h rfl⟩
  case wait =>
    have e := comesTo_tlwait href hl ht
    exact ⟨fun hf => (tlwaitRes_failed hf ▸ e).traps h rfl,
      fun hf hn => (tlwaitRes_reached hf hn ▸ e).completes h rfl,
      fun hf hn => (tlwaitRes_before hf hn ▸ e).blocks h rfl⟩
  case read =>
    refine completes_of_ok (exec_tlread k d a s) h ((withTl_goes _ href hl ht).trans ?_)
    cases k <;> simp only [setX_ctx h.issues.context]
  case arm =>
    have e := comesTo_tlarm h hb href hl ht
    let x := armedTrig p b hb (atIssue (.tlarm a b) p s)
    exact ⟨fun hbad => (armRes_bad (x := x) hbad ▸ e).traps h rfl,
      fun c hbad hs => (armRes_unsendable (x := x) hbad hs ▸ e).traps h rfl,
      fun hbad hs hf => (armRes_full (x := x) hbad hs hf ▸ e).traps h rfl,
      fun hbad hs hf => (armRes_arms (x := x) hbad hs hf ▸ e).completes h rfl⟩
  case advance =>
    have hall : ∀ k, k ∈ t.early ++ [n] ↔ k = n ∨ k ∈ t.early := by simp [or_comm]
    obtain ⟨hrise, hover, hstop, hkeep, hi, hf, htrigs⟩ :=
      advanced_advance (fuel := t.early.length + 1) (t := { t with early := t.early ++ [n] })
        (fun e he => ((hall e).mp he).elim (fun heq => heq ▸ hn) (hlow e)) (by simp)
    simp only [hall] at hover hkeep
    refine ⟨hrise, hover, ?_, hkeep, hi, hf, htrigs⟩
    rw [hkeep] at hstop
    exact not_or.mp fun hmem => hstop ⟨Nat.lt_succ_self _, hmem⟩

end Sys2Proof.Machine
end

section
/-!
SUPPORT. The bays and the engines' queues after an update: what a bay of a share is then, and when two updates come to
the same.
-/

namespace Sys2Proof.Machine

/-! ### Lists of what may be there -/

theorem getElem?_of_getD_none {α : Type} {l : List (Option α)} {i : Nat} {a : α} (h : (l[i]?).getD none = some a) :
    l[i]? = some (some a) := by
  cases hl : l[i]? with
  | none => rw [hl] at h; cases h
  | some o => rw [hl] at h; exact congrArg some h

/-- What an entry of a list becomes depends on that entry alone. -/
theorem modify_congr {α : Type} {l : List α} {i : Nat} {a : α} {f f' : α → α} (h : l[i]? = some a) (hf : f a = f' a) :
    l.modify i f = l.modify i f' := by
  refine List.ext_getElem? fun j => ?_
  by_cases hj : i = j
  · subst hj
    simp [h, hf]
  · simp [hj]

/-! ### Shares, bays and streams -/

@[simp] theorem State.share?_modShare_self (s : State) (g r : Nat) (f : Share → Share) :
    (s.modShare g r f).share? g r = (s.share? g r).map f := by
  unfold State.modShare
  cases h : s.share? g r with
  | none => exact h
  | some x => exact FMap.get?_put_self ..

theorem State.bayAt_of_shares {s t : State} (h : t.shares = s.shares) (g r b : Nat) :
    t.bayAt g r b = s.bayAt g r b := by
  rw [State.bayAt, State.share?, h, ← State.share?, ← State.bayAt]

theorem exists_share_of_bayAt {s : State} {g r b : Nat} {y : Bay} (h : s.bayAt g r b = some y) :
    ∃ sh, s.share? g r = some sh ∧ sh.bays[b]? = some (some y) := by
  obtain ⟨sh, hsh, hy⟩ := Option.bind_eq_some_iff.mp h
  exact ⟨sh, hsh, getElem?_of_getD_none hy⟩

@[simp] theorem bayAt_modBay_self (g r b : Nat) (f : Bay → Bay) (s : State) :
    (modBay g r b f s).bayAt g r b = (s.bayAt g r b).map f := by
  rw [State.bayAt, modBay, State.share?_modShare_self, State.bayAt]
  cases s.share? g r with
  | none => rfl
  | some sh => cases h : sh.bays[b]? <;> simp [Share.bay?, h]

theorem bayAt_modBay_of_ne {b j : Nat} (h : j ≠ b) (g r : Nat) (f : Bay → Bay) (s : State) :
    (modBay g r b f s).bayAt g r j = s.bayAt g r j := by
  rw [State.bayAt, modBay, State.share?_modShare_self, State.bayAt]
  cases s.share? g r with
  | none => rfl
  | some sh => simp [Share.bay?, h.symm]

theorem modBay_congr {g r b : Nat} {f f' : Bay → Bay} {s : State} {y : Bay} (h : s.bayAt g r b = some y)
    (hf : f y = f' y) : modBay g r b f s = modBay g r b f' s := by
  obtain ⟨sh, hsh, hy⟩ := exists_share_of_bayAt h
  have hbays : sh.bays.modify b (Option.map f) = sh.bays.modify b (Option.map f') :=
    modify_congr hy (congrArg some hf)
  simp only [modBay, State.modShare, hsh, hbays]

theorem modStrm_congr {p : Place} {i : Nat} {f f' : Option Strm → Option Strm} {s : State} {m : Strm}
    (h : strmAt p i s = some m) (hf : f (some m) = f' (some m)) : modStrm p i f s = modStrm p i f' s := by
  rw [modStrm, State.modThread, modify_congr (getElem?_of_getD_none h) hf]
  rfl

theorem MemPath.strmAt {s t : State} (h : MemPath s t) (p : Place) (i : Nat) : strmAt p i t = strmAt p i s := by
  rw [Machine.strmAt, h.thread, Machine.strmAt]

/-- An engine's read changes the memory path at most. -/
theorem memPath_engineRead (g : Agent) (va : Word) (w : Nat) (s : State) : MemPath s (engineRead g va w s).2 := by
  have hroute := memPath_route g va w .read s
  have hread : ∀ t u, MemPath s u → MemPath s
      (if dataBad u t then (Got.bad Cause.dataError, u)
       else (Got.val (readTarget g va t w .nl false u).1, (readTarget g va t w .nl false u).2)).2 := by
    intro t u hu
    split
    · exact hu
    · exact hu.trans (memPath_readTarget g va t w .nl false u)
  unfold engineRead
  split <;> rename_i e <;> rw [e] at hroute
  case h_5 => exact hread _ _ hroute
  all_goals exact hroute

@[simp] theorem answerWait_shares (p : Place) (w : Wait) (s : State) : (answerWait p w s).shares = s.shares := rfl

@[simp] theorem answerWait_clk (p : Place) (w : Wait) (s : State) : (answerWait p w s).clk = s.clk := rfl

@[simp] theorem recordFault_shares (p : Place) (epc eval : Word) (c : Nat) (s : State) :
    (recordFault p epc eval c s).shares = s.shares := State.modGang_shares ..

@[simp] theorem recordFault_clk (p : Place) (epc eval : Word) (c : Nat) (s : State) :
    (recordFault p epc eval c s).clk = s.clk := State.modGang_clk ..

/-- The watchdog of a bay has nothing to do with its FIFO. -/
@[simp] theorem Bay.watch_fifo (y : Bay) (clk : Nat) (b : Bool) : (y.watch clk b).fifo = y.fifo := by
  unfold Bay.watch
  split
  · rfl
  · split <;> rfl

@[simp] theorem Bay.modSlot_fifo (y : Bay) (n : Nat) (f : Slot → Slot) : (y.modSlot n f).fifo = y.fifo := rfl

/-! ### Clusters, landings and queues -/

theorem FMap.put_put {α : Type} (m : FMap α) (k : Nat) (v w : α) : FMap.put (FMap.put m k v) k w = FMap.put m k w := by
  induction m with
  | nil => simp [FMap.put]
  | cons c m ih =>
    obtain ⟨j, x⟩ := c
    by_cases hlt : k < j
    · simp [FMap.put, hlt]
    · by_cases heq : k = j
      · simp [FMap.put, heq]
      · simp [FMap.put, hlt, heq, ih]

theorem State.modCluster_modCluster (s : State) (cl : Nat) (f g : Cluster → Cluster) :
    (s.modCluster cl f).modCluster cl g = s.modCluster cl fun c => g (f c) := by
  rw [State.modCluster, State.cluster_modCluster_self]
  simp only [State.modCluster, FMap.put_put]

theorem State.modLanding_modLanding (s : State) (l : Nat) (f g : Landing → Landing) :
    (s.modLanding l f).modLanding l g = s.modLanding l fun d => g (f d) := by
  rw [State.modLanding, State.landing_modLanding_self]
  simp only [State.modLanding, FMap.put_put]

theorem modCopies_modCopies (u : CopyUnit) (f g : List Copy → List Copy) (s : State) :
    modCopies u g (modCopies u f s) = modCopies u (fun cs => g (f cs)) s := by
  cases u with
  | cluster cl => simp only [modCopies, State.modCluster_modCluster]
  | landing l => simp only [modCopies, State.modLanding_modLanding]

end Sys2Proof.Machine
end

section
/-!
PROOF. The engines (O56): elements and pushes of streams, sectors and ends of copies, and what the gallery unit takes,
hands out and watches.
-/

namespace Sys2Proof.Machine

/-! ### Streams (10 R230-R233) -/

/-- The element that an engine's read at the address a gives a stream of format f, if it ends. -/
def Got.elem? (f : Nat) (a : Word) : Got → Option Elem
  | .val v => some (.val (fmtPop f v))
  | .bad c => some (.bad c a)
  | .missed _ _ => none
  | .held => none

/-- Whether the last element fetched ahead has failed: no further one is fetched (10 R231). -/
def Strm.failedAhead (m : Strm) : Bool :=
  match m.ahead.getLast? with
  | some (.bad _ _) => true
  | some (.val _) => false
  | none => false

theorem Strm.failedAhead_eq_false {m : Strm} (h : ∀ c a, m.ahead.getLast? ≠ some (.bad c a)) :
    m.failedAhead = false := by
  unfold Strm.failedAhead
  split
  · rename_i c a e
    exact absurd e (h c a)
  · rfl
  · rfl

/-- A read stream whose next element is to be fetched takes what the fetch comes to. -/
theorem streamElementArrival_takes {s s' : State} {p : Place} {i : Fin 4} {m : Strm} {r : Got} {e : Elem}
    (hm : strmAt p i.val s = some m) (hw : m.writes = false) (hsealed : m.sealed = true)
    (hlast : ∀ c a, m.ahead.getLast? ≠ some (.bad c a)) (hroom : m.ahead.length < 64)
    (hmore : m.pos + m.ahead.length < strmLen m.record) (hmiss : s.missOf (.stream p i.val) = none)
    (hr : engineRead (s.agent p) (m.addr (s.thread p).gang (m.pos + m.ahead.length) s) (fmtSize m.fmt) s = (r, s'))
    (he : r.elem? m.fmt (m.addr (s.thread p).gang (m.pos + m.ahead.length) s) = some e) :
    exec (.streamElementArrival p i) s =
      .next (modStrm p i.val (fun o => o.map fun m => { m with ahead := m.ahead ++ [e] }) s') := by
  have hgoes : ¬ (m.writes || !m.sealed || m.failedAhead || decide (64 ≤ m.ahead.length) ||
      decide (strmLen m.record ≤ m.pos + m.ahead.length)) = true := by
    simp [hw, hsealed, Strm.failedAhead_eq_false hlast, hroom, hmore]
  rw [strmAt] at hm
  rw [exec_streamElementArrival, execStreamElementArrival]
  simp only [hm]
  refine congrArg Host.Outcome.next ((if_neg hgoes).trans ?_)
  rw [hmiss, hr]
  cases r with
  | val v => cases he; rfl
  | bad c => cases he; rfl
  | missed | held => cases he

/-- A pushed element that follows no other, and whose address leads to a target, becomes a store there. -/
theorem pushOne_stores {s s' : State} {p : Place} {i : Nat} {m : Strm} {clk : Nat} {v : W32} {vs : List (Nat × W32)}
    {tg : Target} (hm : strmAt p i s = some m) (hpush : m.push = (clk, v) :: vs)
    (hmiss : s.missOf (.stream p i) = none)
    (hfirst : pushedAt p (m.addr (s.thread p).gang m.base s) (fmtSize m.fmt) clk s = false)
    (hroute : route (s.agent p) (m.addr (s.thread p).gang m.base s) (fmtSize m.fmt) .write s = (.to tg, s')) :
    pushOne p i s = (true, modStrm p i (fun o => o.map fun m => { m with push := vs, base := m.base + 1 })
      (makeStore p (m.addr (s.thread p).gang m.base s) tg (fmtSize m.fmt) (fmtPush m.fmt v) .normal 0
        (drain (fun e => e.place == p && e.stage == .issued) (fun _ => 1) s'))) := by
  rw [strmAt] at hm
  simp only [pushOne, hm, hpush, hfirst, hmiss, hroute, Bool.false_eq_true, if_false]

/-! ### Copies (10 R238-R240, R243; 17 R377) -/

section
variable {s : State} {u : CopyUnit} {c : Copy}

/-- The current copy, started and with nothing to report, moves on by a sector. -/
theorem copySectorComplete_moves (hc : currentCopy (s.copies u) = some c) (hfin : c.fin = none)
    (hmiss : s.missOf (.copy u) = none) (hreport : c.report = false) (hstarted : c.started = true)
    (hmore : c.done < cpTotal c.record) : exec (.copySectorComplete u) s = .next (doSector u c s) := by
  rw [exec_copySectorComplete, execCopySectorComplete]
  simp only [hc, hfin, withCopyMiss, hmiss, hreport, hstarted, if_neg (Nat.not_le.mpr hmore), Option.isSome_none,
    Bool.false_eq_true, if_false, if_true]

theorem doSector_source_gone (h : srcGone c s = true) : doSector u c s = setCopy u c
    (fun c => { c with started := true, fin := some (Cause.overRead, cpSrcHdl c.record) }) s := if_pos h

theorem doSector_dest_gone (hsrc : srcGone c s = false) (h : dstGone c s = true) : doSector u c s = setCopy u c
    (fun c => { c with started := true, fin := some (Cause.overRead, cpDstHdl c.record) }) s := by
  rw [doSector, hsrc, if_neg Bool.false_ne_true, if_pos h]

/-- All reads of a sector come before all its writes; its frames leave once it has been written. -/
theorem doSector_done {vs : List Nat} {s₁ s₂ : State} (hsrc : srcGone c s = false) (hdst : dstGone c s = false)
    (hread : readSector (copyAgent u c s) c (copyTable u c s)
      (min (cpSector c.record) (cpCount c.record - c.done * cpSector c.record)) (c.done * cpSector c.record) [] s =
      .done vs s₁)
    (hwrite : writeSector (copyAgent u c s) c vs (c.done * cpSector c.record) s₁ = .done () s₂) :
    doSector u c s = setCopy u c
      (fun c => { c with started := true, done := c.done + 1, report := cpProg c.record != 0 })
      (leaveFrames c.reg s₂) := by
  rw [doSector, hsrc, if_neg Bool.false_ne_true, hdst, if_neg Bool.false_ne_true]
  dsimp only
  rw [hread, copyStop, hwrite, Ran.leave, copyStop]

theorem allAcked_iff (x : TlReg) : allAcked x s = true ↔ ∀ f ∈ s.pkg.novilo, f.reg = some x → f.acked = true := by
  rw [allAcked, List.all_eq_true]
  constructor
  · intro h f hf hreg
    simpa [hreg] using h f hf
  · intro h f hf
    by_cases hreg : f.reg = some x
    · simp [h f hf hreg]
    · simp [hreg]

/-- A copy whose sectors are done and acknowledged, and that asks nothing of a bay, completes on its timeline. -/
theorem copyComplete_completes (hc : currentCopy (s.copies u) = some c) (hfin : c.fin = none)
    (hdone : cpTotal c.record ≤ c.done) (hreport : c.report = false) (hseal : cpSeal c.record = false)
    (hsrch : cpSrch c.record = false) (hprog : cpProg c.record = 0) (hack : allAcked c.reg s = true) :
    let c' := { c with fin := some (0, 0) }
    exec (.copyComplete u) s = .next (tlComplete c.reg
      (modCopies u (fun cs => (cs.map fun x => if x = c then c' else x).filter (· != c')) s)) := by
  intro c'
  have hsectors : sectorsDone c s = true := by simp [sectorsDone, hdone, hreport, hack]
  have hasks : copyAsks c s = none := by simp [copyAsks, hseal, hsrch]
  rw [exec_copyComplete, execCopyComplete]
  simp only [hc, hfin, hsectors, hasks, Bool.not_true, Option.isSome_none, Bool.or_self, Bool.false_eq_true, if_false]
  rw [copyFinish, if_pos (by simp [hprog]), copyReport, if_pos rfl, setCopy, modCopies_modCopies]

/-- A copy waits for its peers' acknowledgements. -/
theorem copyComplete_waits (hc : currentCopy (s.copies u) = some c) (hfin : c.fin = none)
    (hack : allAcked c.reg s = false) : exec (.copyComplete u) s = .next s := by
  have hsectors : sectorsDone c s = false := by simp [sectorsDone, hack]
  rw [exec_copyComplete, execCopyComplete]
  simp only [hc, hfin, hsectors, Bool.not_false, Bool.true_or, if_true]

end

/-! ### Requests at the gallery unit (11 R258) -/

theorem flatMap_eq_of_unique {α β : Type} {f : α → List β} {l : List α} {a : α} (hnodup : l.Nodup) (ha : a ∈ l)
    (hf : ∀ b ∈ l, b ≠ a → f b = []) : l.flatMap f = f a := by
  obtain ⟨l₁, l₂, rfl⟩ := List.append_of_mem ha
  obtain ⟨-, htail, hbefore⟩ := List.nodup_append.mp hnodup
  obtain ⟨hafter, -⟩ := List.nodup_cons.mp htail
  have h₁ : l₁.flatMap f = [] := List.flatMap_eq_nil_iff.mpr fun b hb =>
    hf b (List.mem_append_left _ hb) (hbefore b hb a List.mem_cons_self)
  have h₂ : l₂.flatMap f = [] := List.flatMap_eq_nil_iff.mpr fun b hb =>
    hf b (List.mem_append_right _ (List.mem_cons_of_mem a hb)) fun h => hafter (h ▸ hb)
  rw [List.flatMap_append, List.flatMap_cons, h₁, h₂, List.nil_append, List.append_nil]

/-- The port pointer passes every port once: a lone request is taken. -/
theorem portOrder_singleton (ptr : Nat) {q : UnitReq} (h : q.port < 35) : portOrder ptr [q] = [q] := by
  have hturn : q.port = (ptr + (q.port + 35 - ptr % 35) % 35) % 35 := by omega
  rw [portOrder, flatMap_eq_of_unique (a := (q.port + 35 - ptr % 35) % 35) List.nodup_range
    (List.mem_range.mpr (Nat.mod_lt _ (by decide)))]
  · exact List.filter_eq_self.mpr fun x hx => by rw [List.mem_singleton.mp hx, ← hturn, beq_self_eq_true]
  · intro j hj hne
    have hj35 := List.mem_range.mp hj
    have hother : q.port ≠ (ptr + j) % 35 := by omega
    simp [hother]

section
variable {s : State} {cl : Nat} {q : GReq}

theorem dropTaken_only (h : (s.cluster cl).gal = [q]) :
    dropTaken cl [.thread q] s = s.modCluster cl fun c => { c with gal := [] } := by
  simp [dropTaken, State.modCluster, h]

/-- Where the one request that reaches a unit is the only one queued there, it is performed after the clk's hand-outs,
and answered. -/
theorem galleryRequest_performs {n : Nat} {a : GalAns} {s' : State} (hgal : (s.cluster cl).gal = [q])
    (hport : q.port < 35)
    (hq : ownReqs cl s ++ (if n = 0 then [] else ((meshReqs cl s)[n - 1]?).toList) = [.thread q])
    (hp : galPerform q (clusterHandOuts cl (s.modCluster cl fun c => { c with gal := [] })) = (a, s')) :
    exec (.galleryRequest cl n) s = .next (galAnswer q.place a s') := by
  rw [exec_galleryRequest, execGalleryRequest]
  dsimp only
  rw [hq, portOrder_singleton _ (show (UnitReq.thread q).port < 35 from hport), dropTaken_only hgal]
  simp only [List.foldl_cons, List.foldl_nil, unitPerform, hp]

theorem ownReqs_own (hgal : (s.cluster cl).gal = [q]) (hport : q.port < 34) (hclk : q.clk < s.clk) :
    ownReqs cl s = [.thread q] := by
  simp [ownReqs, hgal, Nat.ne_of_lt hport, hclk]

theorem ownReqs_mesh (hgal : (s.cluster cl).gal = [q]) (hport : q.port = 34) : ownReqs cl s = [] := by
  simp [ownReqs, hgal, hport]

theorem meshReqs_first (hgal : (s.cluster cl).gal = [q]) (hport : q.port = 34) :
    (meshReqs cl s)[0]? = some (.thread q) := by
  simp [meshReqs, hgal, hport]

end

/-! ### Hand-outs (11 R259) -/

section
variable {g r b : Nat} {s : State}

theorem handOne_no_bay (h : s.bayAt g r b = none) : handOne g r b s = s := by
  unfold handOne
  rw [h]
  split
  · rename_i hy
    cases hy
  · rfl

theorem handOne_no_waiter {y : Bay} (h : s.bayAt g r b = some y) (hf : y.fifo = []) : handOne g r b s = s := by
  obtain ⟨sh, hsh, -⟩ := exists_share_of_bayAt h
  simp only [handOne, hsh, h, hf]

theorem handOne_no_slot {y : Bay} (h : s.bayAt g r b = some y) (hf : y.freeSlot? s.clk = none) :
    handOne g r b s = s := by
  obtain ⟨sh, hsh, -⟩ := exists_share_of_bayAt h
  rw [handOne, hsh, h]
  dsimp only
  rw [hf]
  split
  · rename_i hn
    cases hn
  · rfl

theorem handOne_gives {sh : Share} {y : Bay} {w : Waiter} {ws : List Waiter} {n : Nat} {x : Slot}
    (hsh : s.share? g r = some sh) (hy : s.bayAt g r b = some y) (hf : y.fifo = w :: ws)
    (hn : y.freeSlot? s.clk = some n) (hx : y.slots[n]? = some x) (hw : waiterHere w s = true) :
    handOne g r b s = answerWait w.place (.allocating (handleOf sh b n x.gen).toNat)
      (fillSlot g r b n w.cnt (modBay g r b (fun y => { y with fifo := ws }) s)) := by
  simp only [handOne, hsh, hy, hf, hn, hx, hw, if_true]

theorem handOuts_idle (h : handOne g r b s = s) (n : Nat) : handOuts g r b n s = s := by
  induction n with
  | zero => rfl
  | succ n ih => rw [handOuts, h, ih]

end

theorem foldl_eq_of_mem {σ α : Type} {f : σ → α → σ} {s u : σ} {a : α} (ha : f s a = u)
    (hs : ∀ b, b ≠ a → f s b = s) (hu : ∀ b, f u b = u) {l : List α} (h : a ∈ l) : l.foldl f s = u := by
  have hstay : ∀ l : List α, l.foldl f u = u := fun l => by
    induction l with
    | nil => rfl
    | cons b l ih => rw [List.foldl_cons, hu, ih]
  induction l with
  | nil => cases h
  | cons b l ih =>
    rw [List.foldl_cons]
    by_cases hb : b = a
    · rw [hb, ha, hstay]
    · rw [hs b hb]
      exact ih ((List.mem_cons.mp h).resolve_left (Ne.symm hb))

/-- A cluster whose one live share has one bay, with one waiter and an available slot, makes that one hand-out. -/
theorem clusterHandOuts_one {cl b k : Nat} {s : State} {sh : Share} {y : Bay} {w : Waiter} {x : Slot}
    (hlive : (FMap.vals s.shares).filter (fun sh => sh.cl == cl && s.live sh) = [sh]) (hb : b < 8)
    (hsh : s.share? sh.gang sh.rank = some sh) (hy : s.bayAt sh.gang sh.rank b = some y)
    (hothers : ∀ j, j ≠ b → s.bayAt sh.gang sh.rank j = none) (hf : y.fifo = [w]) (hk : y.freeSlot? s.clk = some k)
    (hx : y.slots[k]? = some x) (hw : waiterHere w s = true) :
    clusterHandOuts cl s = answerWait w.place (.allocating (handleOf sh b k x.gen).toNat)
      (fillSlot sh.gang sh.rank b k w.cnt (modBay sh.gang sh.rank b (fun y => { y with fifo := [] }) s)) := by
  have hgive := handOne_gives hsh hy hf hk hx hw
  generalize hu : answerWait w.place _ _ = u at hgive ⊢
  have hshares : u.shares =
      (fillSlot sh.gang sh.rank b k w.cnt (modBay sh.gang sh.rank b (fun y => { y with fifo := [] }) s)).shares :=
    hu ▸ answerWait_shares ..
  have hdone : ∀ j, handOne sh.gang sh.rank j u = u := by
    intro j
    by_cases hj : j = b
    · subst hj
      have hbay := State.bayAt_of_shares hshares sh.gang sh.rank j
      rw [fillSlot, bayAt_modBay_self, bayAt_modBay_self, hy, Option.map_some, Option.map_some] at hbay
      exact handOne_no_waiter hbay (by simp)
    · have hbay := State.bayAt_of_shares hshares sh.gang sh.rank j
      rw [fillSlot, bayAt_modBay_of_ne hj, bayAt_modBay_of_ne hj, hothers j hj] at hbay
      exact handOne_no_bay hbay
  have hgiven : handOuts sh.gang sh.rank b 256 s = u := by rw [handOuts, hgive, handOuts_idle (hdone b)]
  have hidle : ∀ j, j ≠ b → handOuts sh.gang sh.rank j 256 s = s := fun j hj =>
    handOuts_idle (handOne_no_bay (hothers j hj)) 256
  have hafter : ∀ j, handOuts sh.gang sh.rank j 256 u = u := fun j => handOuts_idle (hdone j) 256
  rw [clusterHandOuts, hlive, List.foldl_cons, List.foldl_nil]
  exact foldl_eq_of_mem (f := fun s j => handOuts sh.gang sh.rank j 256 s) hgiven hidle hafter (List.mem_range.mpr hb)

/-! ### The bay watchdog (11 R262) -/

/-- A bay whose one waiter has stood for 65,536 clk gives it bay-stall fault. -/
theorem bayWatchdogExpiry_stalls {s : State} {g r : Nat} {b : Fin 8} {y : Bay} {c : Nat} {w : Waiter}
    (hy : s.bayAt g r b.val = some y) (hfree : y.freeSlot? s.clk = none) (hwd : y.wd = some c)
    (hdue : c + 65536 ≤ s.clk) (hlive : s.shareLive g r = true) (hf : y.fifo = [w]) (hw : waiterHere w s = true) :
    exec (.bayWatchdogExpiry g r b) s = .next (modBay g r b.val (fun y => ({ y with fifo := [] }).watch s.clk true)
      (answerWait w.place (.answered false (ofN Cause.bayStall) w.ref)
        (recordFault w.place w.pc w.ref Cause.bayStall s))) := by
  have hstalled : stalled g r b.val s = [w] := by
    simp [stalled, hy, hwd, Nat.not_lt.mpr hdue, hlive, hfree, hf, hw]
  rw [exec_bayWatchdogExpiry, execBayWatchdogExpiry]
  simp only [hlive, if_true, handOuts_idle (handOne_no_slot hy hfree), hstalled, List.foldl_cons, List.foldl_nil,
    answerWait_clk, recordFault_clk]
  congr 1
  refine modBay_congr ((State.bayAt_of_shares ?_ g r b.val).trans hy) ?_
  · rw [answerWait_shares, recordFault_shares]
  · simp [hf]

/-! ### The statement -/

/-- Settles O56: each event does what the lemma on its own part says. -/
theorem enginesMoveElementsAndTiles : Obligations.EnginesMoveElementsAndTiles := by
  unfold Obligations.EnginesMoveElementsAndTiles
  refine ⟨?element, ?push, ?sector, ?source, ?destination, ?completes, ?unacknowledged, ?request, ?handout, ?watchdog⟩
  case element =>
    intro s p i m hm hw hsealed hlast hroom hmore hmiss a
    refine ⟨fun v s' hr => ?_, fun c s' hr => streamElementArrival_takes hm hw hsealed hlast hroom hmore hmiss hr rfl⟩
    have hpath := memPath_engineRead (s.agent p) a (fmtSize m.fmt) s
    rw [hr] at hpath
    exact (streamElementArrival_takes hm hw hsealed hlast hroom hmore hmiss hr rfl).trans
      (congrArg Host.Outcome.next (modStrm_congr ((hpath.strmAt p i.val).trans hm) rfl))
  case push =>
    intro s p i m clk v vs tg s' hm hpush hmiss a hfirst hroute
    rw [exec_streamPushPerform, execStreamPushPerform, pushOne_stores hm hpush hmiss hfirst hroute]
  case sector =>
    intro s u c vs s₁ s₂ hc hfin hmiss hreport hstarted hmore hsrc hdst j hread hwrite
    rw [copySectorComplete_moves hc hfin hmiss hreport hstarted hmore, doSector_done hsrc hdst hread hwrite]
  case source =>
    intro s u c hc hfin hmiss hreport hstarted hmore hsrc
    rw [copySectorComplete_moves hc hfin hmiss hreport hstarted hmore, doSector_source_gone hsrc]
  case destination =>
    intro s u c hc hfin hmiss hreport hstarted hmore hsrc hdst
    rw [copySectorComplete_moves hc hfin hmiss hreport hstarted hmore, doSector_dest_gone hsrc hdst]
  case completes =>
    intro s u c hc hfin hdone hreport hseal hsrch hprog hack
    exact copyComplete_completes hc hfin hdone hreport hseal hsrch hprog ((allAcked_iff c.reg).mpr hack)
  case unacknowledged =>
    intro s u c hc hfin ⟨x, hx, hreg, hopen⟩
    refine copyComplete_waits hc hfin (Bool.eq_false_iff.mpr fun hall => ?_)
    exact Bool.eq_false_iff.mp hopen ((allAcked_iff c.reg).mp hall x hx hreg)
  case request =>
    intro s cl q a s' hgal hp
    constructor
    · intro hport hclk
      exact galleryRequest_performs hgal (by omega) (by simp [ownReqs_own hgal hport hclk]) hp
    · intro hport
      exact galleryRequest_performs hgal (by omega) (by simp [ownReqs_mesh hgal hport, meshReqs_first hgal hport]) hp
  case handout =>
    intro s cl sh b y w k x hlive hsh hy hothers hf hk hx hw
    rw [exec_galleryHandout, execGalleryHandout, clusterHandOuts_one hlive b.isLt hsh hy hothers hf hk hx hw]
  case watchdog =>
    intro s g r b y c w hy hfree hwd hdue hlive hf hw
    exact bayWatchdogExpiry_stalls hy hfree hwd hdue hlive hf hw

end Sys2Proof.Machine
end

section
/-!
SUPPORT. A waiting word that its thread looks at again and that faults or stays, and the clk after a thread's pushes and
release: a wait's other ends beside its completion, and when a request sent after a release was sent.
-/

namespace Sys2Proof.Machine

/-! ### A waiting word looked at again -/

section
variable {i : Instr} {body : Body} {p : Place} {s : State} {w : Wait}

theorem Looks.waitOf_eq (h : Looks i w p s) : waitOf p s = some w := by
  unfold waitOf
  rw [h.waits]

/-- A word that waits, looked at again, whose body faults, takes the trap. -/
theorem trapsLater_of_trap {c : Nat} {v : Word} (hx : exec i s = issueWord i body s) (h : Looks i w p s)
    (hb : body { act := [p], pre := s } p s = .trap s c v) (hd : (info i).div = 0) : TrapsLater i p s c v := by
  intro hv
  refine ⟨_, ?_, trapped_enter p c v (s.thread p).pc (forceLoads p s) hv⟩
  rw [hx]
  simp [issueWord, h.turn, h.here, resumeWord, h.waits, hb, divReady, hd, finishAt, finish, markBusy, Res.completes]

/-- A word that waits, looked at again, whose body waits, goes on waiting. -/
theorem stays_of_wait {w' : Wait} (hx : exec i s = issueWord i body s) (h : Looks i w p s)
    (hb : body { act := [p], pre := s } p s = .wait s w') (hd : (info i).div = 0) : Stays i p s w' := by
  refine ⟨_, ?_, waits_finish p i (s.thread p).pc (s.thread p).grem s s w'⟩
  rw [hx]
  simp [issueWord, h.turn, h.here, resumeWord, h.waits, hb, divReady, hd, finishAt, markBusy, Res.completes]

end

/-! ### The clk (10 R233; 09 R206) -/

/-- A pushed element performed, failed or kept: the clk stays. -/
theorem pushOne_clk (p : Place) (i : Nat) (s : State) : (pushOne p i s).2.clk = s.clk := by
  unfold pushOne
  dsimp only
  split
  · rfl
  split
  · rfl
  split
  · rfl
  split
  · split <;> rfl
  · split <;> rename_i e <;> have hclk := (congrArg (·.2.clk) e).symm.trans (memPath_route ..).clk
    case h_4 => exact ((settles_makeStore ..).clk.trans (memPath_drain ..).clk).trans hclk
    all_goals exact hclk

theorem pushOldest_clk (p : Place) (n : Nat) (s : State) : (pushOldest p n s).clk = s.clk := by
  induction n generalizing s with
  | zero => rfl
  | succ n ih =>
    unfold pushOldest
    split
    · rfl
    · dsimp only
      split
      · exact (ih _).trans (pushOne_clk ..)
      · exact pushOne_clk ..

theorem released_clk (p : Place) (sc : Scope) (m : Bool) (s : State) :
    (releaseStores p sc m (pushAll p s)).clk = s.clk :=
  (settles_releaseStores ..).clk.trans (pushOldest_clk p 256 s)

end Sys2Proof.Machine
end

section
/-!
SUPPORT. The form that the nine gallery words share: a thread that has not sent its request checks and sends it; one
that has goes on with what its unit answers (11 R258, R261).
-/

namespace Sys2Proof.Machine

/-! ### A thread at its gallery word -/

section
variable {p : Place} {s : State} {fin : Word → State → Res} {first : Res}

theorem galWord_first (h : waitOf p s = none) : galWord p s fin first = first := by rw [galWord, h]

theorem galWord_answered {v : Word} {w : Word} (h : waitOf p s = some (.answered true v w)) :
    galWord p s fin first = fin v s := by rw [galWord, h]

theorem galWord_refused {c v : Word} (h : waitOf p s = some (.answered false c v)) :
    galWord p s fin first = .trap s c.toNat v := by rw [galWord, h]

theorem galWord_handed {n : Nat} (h : waitOf p s = some (.allocating n)) (hn : n ≠ 0) :
    galWord p s fin first = fin (ofN n) s := by
  rw [galWord, h]
  exact if_neg hn

theorem galWord_queued (h : waitOf p s = some (.allocating 0)) :
    galWord p s fin first = .wait s (.allocating 0) := by
  rw [galWord, h]
  exact if_pos rfl

end

/-! ### The words' form -/

/-- The word i at p is a gallery word: before its wait it comes to `first`; with the value that its unit answers, or
that it is handed, it ends with `fin`. -/
structure IsGalleryWord (i : Instr) (p : Place) (fin : Word → State → State) (first : State → Res) : Prop where
  form : ∃ body : Body, (∀ s, exec i s = issueWord i body s) ∧
    ∀ c s, stageOf p s = 0 → body c p s = galWord p s (fun v s => .ok (fin v s)) (first s)
  undivided : (info i).div = 0

section
variable {i : Instr} {p : Place} {fin : Word → State → State} {first : State → Res}

theorem IsGalleryWord.comesTo (h : IsGalleryWord i p fin first) {s : State} (hc : Clear i p s) :
    ComesTo i p s (first (atIssue i p s)) := by
  obtain ⟨body, hx, hb⟩ := h.form
  exact ⟨body, hx s, (hb _ _ (atIssue_stageOf hc.issues)).trans (galWord_first (atIssue_waitOf hc.issues))⟩

theorem IsGalleryWord.ends (h : IsGalleryWord i p fin first) {s : State} {v w : Word}
    (hl : Looks i (.answered true v w) p s) : CompletesLater i p s (fin v) := by
  obtain ⟨body, hx, hb⟩ := h.form
  have hw := hl.waitOf_eq
  exact completesLater_of_ok (hx s) hl ((hb _ s (by rw [stageOf, hw])).trans (galWord_answered hw)) h.undivided

theorem IsGalleryWord.faults (h : IsGalleryWord i p fin first) {s : State} {c v : Word}
    (hl : Looks i (.answered false c v) p s) : TrapsLater i p s c.toNat v := by
  obtain ⟨body, hx, hb⟩ := h.form
  have hw := hl.waitOf_eq
  exact trapsLater_of_trap (hx s) hl ((hb _ s (by rw [stageOf, hw])).trans (galWord_refused hw)) h.undivided

theorem IsGalleryWord.endsHanded (h : IsGalleryWord i p fin first) {s : State} {n : Nat} (hn : n ≠ 0)
    (hl : Looks i (.allocating n) p s) : CompletesLater i p s (fin (ofN n)) := by
  obtain ⟨body, hx, hb⟩ := h.form
  have hw := hl.waitOf_eq
  exact completesLater_of_ok (hx s) hl ((hb _ s (by rw [stageOf, hw])).trans (galWord_handed hw hn)) h.undivided

theorem IsGalleryWord.staysQueued (h : IsGalleryWord i p fin first) {s : State} (hl : Looks i (.allocating 0) p s) :
    Stays i p s (.allocating 0) := by
  obtain ⟨body, hx, hb⟩ := h.form
  have hw := hl.waitOf_eq
  exact stays_of_wait (hx s) hl ((hb _ s (by rw [stageOf, hw])).trans (galWord_queued hw)) h.undivided

/-- A gallery word that comes to its request sends it, and waits for its answer. -/
theorem IsGalleryWord.sendsGallery (h : IsGalleryWord i p fin first) {s s₁ : State} (hc : Clear i p s) {a b : Word}
    {cl : Nat} (hs : first (atIssue i p s) = galSend p i a b cl s₁) (hclk : s₁.clk = s.clk) :
    SendsGallery i p s s₁ cl { place := p, port := galPort p cl, op := i, a := a, b := b, clk := s.clk } fin where
  sends := by
    have e := h.comesTo hc
    rw [hs, galSend, hclk] at e
    exact e.blocks hc rfl
  ends _ _ _ := h.ends
  faults _ _ _ := h.faults

end

end Sys2Proof.Machine
end

section
/-!
PROOF. What each gallery word does before its request and with its answer (O29, O30).
-/

namespace Sys2Proof.Machine

/-! ### GALLOC and GTRY (11 R265) -/

theorem setXNext_ctx {p : Place} (h : p.engine ≠ .lane) (lat : Nat) (d : Reg) (v : Word) (s : State) :
    setXNext p lat d v s = if hd : d.val + 1 < 32 then putX p ⟨d.val + 1, hd⟩ v s else s := by
  rw [setXNext, nregs_ctx h]
  split
  · exact setX_ctx h lat ⟨d.val + 1, _⟩ v s
  · rfl

theorem allocFin_eq {p : Place} (h : p.engine ≠ .lane) (d : Reg) (v : Word) (s : State) :
    allocFin p d v s = .ok (giveTile p d v s) := by
  rw [allocFin, giveTile]
  by_cases hv : v = 0
  · simp only [hv, if_true, setX_ctx h, setXNext_ctx h, putPair]
  · simp only [hv, if_false, setX_ctx h, setXNext_ctx h, putPair]

/-- What an allocation op with a bay reference and a count comes to before its wait. -/
def allocFirst (op : Instr) (p : Place) (ref n : Word) (s : State) : Res :=
  if bayRef p ref s = .bad then .trap s Cause.gallery 1
  else if n = 0 ∨ 255 < n.toNat then .trap s Cause.gallery 3
  else galSend p op ref n (refCluster (bayRef p ref s) p s) s

theorem isGalleryWord_alloc {mk : Reg → Reg → Reg → Instr} (hmk : mk ∈ [Instr.galloc, .gtry]) {p : Place}
    (hp : p.engine ≠ .lane) (d a b : Reg) :
    IsGalleryWord (mk d a b) p (giveTile p d) fun s => allocFirst (mk d a b) p (getX p a s) (getX p b s) s := by
  have hfin : (fun v s => Res.ok (giveTile p d v s)) = allocFin p d := by
    funext v s
    exact (allocFin_eq hp d v s).symm
  simp only [List.mem_cons, List.not_mem_nil, or_false] at hmk
  obtain rfl | rfl := hmk
  · exact ⟨⟨_, exec_galloc d a b, fun _ _ _ => by rw [hfin]; rfl⟩, rfl⟩
  · exact ⟨⟨_, exec_gtry d a b, fun _ _ _ => by rw [hfin]; rfl⟩, rfl⟩

section
variable {op : Instr} {p : Place} {ref n : Word} {s : State}

theorem allocFirst_unnamed (h : bayRef p ref s = .bad) : allocFirst op p ref n s = .trap s Cause.gallery 1 := if_pos h

theorem allocFirst_miscounted (h : bayRef p ref s ≠ .bad) (hn : n = 0 ∨ 255 < n.toNat) :
    allocFirst op p ref n s = .trap s Cause.gallery 3 := by
  rw [allocFirst, if_neg h, if_pos hn]

theorem allocFirst_sends (h : bayRef p ref s ≠ .bad) (h0 : n ≠ 0) (hn : n.toNat ≤ 255) :
    allocFirst op p ref n s = galSend p op ref n (refCluster (bayRef p ref s) p s) s := by
  rw [allocFirst, if_neg h, if_neg (not_or.mpr ⟨h0, Nat.not_lt.mpr hn⟩)]

end

/-! ### The words that name a tile (11 R253, R266-R269) -/

section
variable {p : Place} {h : Word} {s : State} (k : Nat → State → Res)

theorem withHandle_unnamed (hr : handleRef (s.thread p).gang h s = .bad) :
    withHandle p h s k = .trap s Cause.gallery 4 := if_pos hr

theorem withHandle_goes (hr : handleRef (s.thread p).gang h s ≠ .bad) :
    withHandle p h s k = k (refCluster (handleRef (s.thread p).gang h s) p s) s := if_neg hr

end

/-- The request of op for h and n to the unit of cl, after a release where `rel` says that op performs one (11 R260). -/
def sendOf (rel : Bool) (op : Instr) (p : Place) (h n : Word) (cl : Nat) (s : State) : Res :=
  if rel then releaseThen p (galScope p cl) true s fun s => galSend p op h n cl s else galSend p op h n cl s

theorem isGalleryWord_gseal (p : Place) (a : Reg) : IsGalleryWord (.gseal a) p (fun _ s => s) fun s =>
    withHandle p (getX p a s) s (sendOf true (.gseal a) p (getX p a s) 0) :=
  ⟨⟨_, exec_gseal a, fun _ _ _ => rfl⟩, rfl⟩

theorem isGalleryWord_gtake {p : Place} (hp : p.engine ≠ .lane) (d a : Reg) :
    IsGalleryWord (.gtake d a) p (fun v s => putX p d v (acquire p .die s)) fun s =>
      withHandle p (getX p a s) s (sendOf false (.gtake d a) p (getX p a s) 0) := by
  refine ⟨⟨_, exec_gtake d a, fun _ s hs => ?_⟩, rfl⟩
  simp only [hs, setX_ctx hp]
  rfl

theorem isGalleryWord_gdone (p : Place) (a : Reg) : IsGalleryWord (.gdone a) p (fun _ s => s) fun s =>
    withHandle p (getX p a s) s (sendOf true (.gdone a) p (getX p a s) 0) := by
  refine ⟨⟨_, exec_gdone a, fun _ s hs => ?_⟩, rfl⟩
  simp only [hs]
  rfl

theorem isGalleryWord_gstatTile {p : Place} (hp : p.engine ≠ .lane) (d a : Reg) :
    IsGalleryWord (.gstatTile d a) p (putX p d) fun s =>
      withHandle p (getX p a s) s (sendOf false (.gstatTile d a) p (getX p a s) 0) := by
  refine ⟨⟨_, exec_gstatTile d a, fun _ s hs => ?_⟩, rfl⟩
  simp only [setX_ctx hp]
  rfl

/-- What GDROP of n comes to before its wait, with a handle h that names a tile at the unit of cl (11 R268). -/
def dropFirst (op : Instr) (p : Place) (h n : Word) (cl : Nat) (s : State) : Res :=
  if n = 0 ∨ 255 < n.toNat then .trap s Cause.gallery 3 else sendOf true op p h n cl s

theorem isGalleryWord_gdrop (p : Place) (a b : Reg) : IsGalleryWord (.gdrop a b) p (fun _ s => s) fun s =>
    withHandle p (getX p a s) s (dropFirst (.gdrop a b) p (getX p a s) (getX p b s)) :=
  ⟨⟨_, exec_gdrop a b, fun _ _ _ => rfl⟩, rfl⟩

section
variable {op : Instr} {p : Place} {h n : Word} {cl : Nat} {s : State}

theorem sendOf_waits (hp : ((pushAll p s).thread p).pushing = true) :
    sendOf true op p h n cl s = .wait (pushAll p s) (.waiting 0 0) := releaseThen_waits _ hp

theorem sendOf_released (hp : ((pushAll p s).thread p).pushing = false) :
    sendOf true op p h n cl s = galSend p op h n cl (releaseStores p (galScope p cl) true (pushAll p s)) :=
  releaseThen_goes _ hp

theorem dropFirst_miscounted (hn : n = 0 ∨ 255 < n.toNat) :
    dropFirst op p h n cl s = .trap s Cause.gallery 3 := if_pos hn

theorem dropFirst_sends (h0 : n ≠ 0) (hn : n.toNat ≤ 255) : dropFirst op p h n cl s = sendOf true op p h n cl s :=
  if_neg (not_or.mpr ⟨h0, Nat.not_lt.mpr hn⟩)

end

/-! ### GSTAT.BAY and GBAY (11 R269, R270) -/

theorem isGalleryWord_gstatBay {p : Place} (hp : p.engine ≠ .lane) (d a : Reg) :
    IsGalleryWord (.gstatBay d a) p (putX p d) fun s =>
      if bayRef p (getX p a s) s = .bad then .trap s Cause.gallery 1
      else galSend p (.gstatBay d a) (getX p a s) 0 (refCluster (bayRef p (getX p a s) s) p s) s := by
  refine ⟨⟨_, exec_gstatBay d a, fun _ s _ => ?_⟩, rfl⟩
  simp only [setX_ctx hp]

theorem isGalleryWord_gbay {p : Place} (hp : p.engine ≠ .lane) (d a b : Reg) :
    IsGalleryWord (.gbay d a b) p (putX p d) fun s =>
      if 192 ≤ wbits (getX p a s) 15 8 then .trap s Cause.gallery 1
      else galSend p (.gbay d a b) (getX p a s) (getX p b s) (wbits (getX p a s) 15 8) s := by
  refine ⟨⟨_, exec_gbay d a b, fun _ s _ => ?_⟩, rfl⟩
  simp only [setX_ctx hp]

/-! ### Requests -/

/-- Settles O29: each word's form gives its checks, its release and its request, and the ends of its wait. -/
theorem galleryWordsSendTheirRequest : Obligations.GalleryWordsSendTheirRequest := by
  unfold Obligations.GalleryWordsSendTheirRequest
  refine ⟨fun mk hmk p s d a b h => ?alloc, fun mk rel fin hmk p s d a h => ?tile, fun p s a b h => ?drop,
    fun p s d a h => ?statBay, fun p s d a b h => ?bay⟩
  case alloc =>
    have hw := isGalleryWord_alloc hmk h.issues.context d a b
    have e := hw.comesTo h
    exact ⟨fun hr => (allocFirst_unnamed hr ▸ e).traps h rfl,
      fun hr hn => (allocFirst_miscounted hr hn ▸ e).traps h rfl,
      fun hr h0 hn => hw.sendsGallery h (allocFirst_sends hr h0 hn) (atIssue_clk ..)⟩
  case tile =>
    have hw : IsGalleryWord (mk d a) p (fin p d) fun s =>
        withHandle p (getX p a s) s (sendOf rel (mk d a) p (getX p a s) 0) := by
      simp only [List.mem_cons, List.not_mem_nil, or_false, Prod.mk.injEq] at hmk
      obtain ⟨rfl, rfl, rfl⟩ | ⟨rfl, rfl, rfl⟩ | ⟨rfl, rfl, rfl⟩ | ⟨rfl, rfl, rfl⟩ := hmk
      · exact isGalleryWord_gseal p a
      · exact isGalleryWord_gtake h.issues.context d a
      · exact isGalleryWord_gdone p a
      · exact isGalleryWord_gstatTile h.issues.context d a
    have e := hw.comesTo h
    refine ⟨fun hr => (withHandle_unnamed _ hr ▸ e).traps h rfl, fun hr hrel => ?sends, fun hr hrel hp => ?waits,
      fun hr hrel hp => ?releases⟩
    case sends =>
      subst hrel
      exact hw.sendsGallery h (withHandle_goes _ hr) (atIssue_clk ..)
    case waits =>
      subst hrel
      exact (((withHandle_goes _ hr).trans (sendOf_waits hp)) ▸ e).blocks h rfl
    case releases =>
      subst hrel
      exact hw.sendsGallery h ((withHandle_goes _ hr).trans (sendOf_released hp))
        ((released_clk ..).trans (atIssue_clk ..))
  case drop =>
    have hw := isGalleryWord_gdrop p a b
    have e := hw.comesTo h
    refine ⟨fun hr => (withHandle_unnamed _ hr ▸ e).traps h rfl, fun hr hn => ?count, fun hr h0 hn hp => ?sends⟩
    case count => exact (((withHandle_goes _ hr).trans (dropFirst_miscounted hn)) ▸ e).traps h rfl
    case sends =>
      exact hw.sendsGallery h ((withHandle_goes _ hr).trans ((dropFirst_sends h0 hn).trans (sendOf_released hp)))
        ((released_clk ..).trans (atIssue_clk ..))
  case statBay =>
    have hw := isGalleryWord_gstatBay h.issues.context d a
    have e := hw.comesTo h
    exact ⟨fun hr => ((if_pos hr) ▸ e).traps h rfl, fun hr => hw.sendsGallery h (if_neg hr) (atIssue_clk ..)⟩
  case bay =>
    have hw := isGalleryWord_gbay h.issues.context d a b
    have e := hw.comesTo h
    exact ⟨fun hcl => ((if_pos hcl) ▸ e).traps h rfl,
      fun hcl => hw.sendsGallery h (if_neg (Nat.not_le.mpr hcl)) (atIssue_clk ..)⟩

/-! ### Answers -/

/-- A wait for a seal that has been told of it ends. -/
theorem sealWait_told {p : Place} {s : State} {n : Nat} (h : Word) (onFault : State → State) (told k : State → Res)
    (hw : waitOf p s = some (.waiting 3 n)) : sealWait p h s onFault told k = told s := by
  simp only [sealWait, hw]

/-- Settles O30: the form of each word gives what it does with its answer; GTAKE and GDONE end a wait for a seal that
has been told of it. -/
theorem galleryAnswersEndTheWord : Obligations.GalleryAnswersEndTheWord := by
  unfold Obligations.GalleryAnswersEndTheWord
  refine ⟨fun p s d a b v w hp h => ?galloc, fun p s d a b n hp hn _ h => ?handed, fun p s d a b v w hp h => ?gtry,
    fun p s a v w h => (isGalleryWord_gseal p a).ends h, fun p s d a v w hp h => (isGalleryWord_gtake hp d a).ends h,
    fun p s a v w h => (isGalleryWord_gdone p a).ends h, fun p s a b v w h => (isGalleryWord_gdrop p a b).ends h,
    fun p s d a v w hp h => (isGalleryWord_gstatBay hp d a).ends h,
    fun p s d a v w hp h => (isGalleryWord_gstatTile hp d a).ends h,
    fun p s d a b v w hp h => (isGalleryWord_gbay hp d a b).ends h, fun p s d a n hp h => ?took,
    fun p s a n h => ?counted, fun i p s hi h => ?stays⟩
  case galloc => exact (isGalleryWord_alloc (by simp) hp d a b).ends h
  case handed => exact (isGalleryWord_alloc (by simp) hp d a b).endsHanded hn h
  case gtry => exact (isGalleryWord_alloc (by simp) hp d a b).ends h
  case took =>
    have hstage : stageOf p s = 3 := by rw [stageOf, h.waitOf_eq]
    refine completesLater_of_ok (exec_gtake d a s) h ?_
    dsimp only
    rw [if_pos (by simp [hstage]), sealWait_told _ _ _ _ h.waitOf_eq, setX_ctx hp]
  case counted =>
    have hstage : stageOf p s = 3 := by rw [stageOf, h.waitOf_eq]
    refine completesLater_of_ok (exec_gdone a s) h ?_
    dsimp only
    rw [if_pos (by simp [hstage]), sealWait_told _ _ _ _ h.waitOf_eq]
  case stays =>
    obtain ⟨d, a, b, rfl⟩ := hi
    exact stays_of_wait (exec_galloc d a b s) h (galWord_queued h.waitOf_eq) rfl

end Sys2Proof.Machine
end

section
/-!
PROOF. What a gallery unit does with the operations on its bays and slots (O31).
-/

namespace Sys2Proof.Machine

/-! ### Allocations (11 R259, R265) -/

section
variable {p : Place} {ref : Word} {s : State} {g r b x y n : Nat} {sh : Share} {bay : Bay}
  (href : bayRef p ref s = .ok g r b x y) (hsh : s.share? g r = some sh) (hlive : s.live sh = true)
  (hbay : s.bayAt g r b = some bay)
include href hsh hlive hbay

theorem allocAt_gives {k : Nat} {sl : Slot} (try_ : Bool) (hfifo : bay.fifo = []) (hk : bay.freeSlot? s.clk = some k)
    (hsl : bay.slots[k]? = some sl) :
    allocAt try_ p ref n s = (.done (handleOf sh b k sl.gen), fillSlot g r b k n s) := by
  simp [allocAt, href, hsh, hlive, hbay, hfifo, hk, hsl]

/-- With a FIFO or no available slot, GTRY has its 0 and GALLOC joins the FIFO's end. -/
theorem allocAt_none (try_ : Bool) (h : bay.fifo ≠ [] ∨ bay.freeSlot? s.clk = none) :
    allocAt try_ p ref n s =
      if try_ then (.done 0, s)
      else (.queued, modBay g r b (fun y => { y with fifo := y.fifo ++
        [({ place := p, ref := ref, cnt := n, pc := (s.thread p).pc } : Waiter)] }.watch s.clk false) s) := by
  have hnone : (if bay.fifo.isEmpty then bay.freeSlot? s.clk else none) = none := by
    rcases h with h | h <;> simp [h]
  simp only [allocAt, href, hsh, hlive, hbay, hnone, Bool.not_true, Bool.false_eq_true, if_false]

end

/-! ### Operations on a handle (11 R253, R266-R268) -/

section
variable {p : Place} {h : Word} {s : State} {g r b k gen : Nat} {sl : Slot}
  (href : handleRef (s.thread p).gang h s = .ok g r b k gen) (hlive : s.shareLive g r = true)
  (hsl : s.slotAt g r b k = some sl)
include href hlive hsl

theorem atSlot_eq (f : Nat → Nat → Nat → Nat → Slot → Bool → State → GalAns × State) :
    atSlot p h s f = f g r b k sl (sl.gen != gen) s := by
  simp only [atSlot, href, hlive, hsl, Bool.not_true, Bool.false_eq_true, if_false]

theorem sealAt_seals (hgen : sl.gen = gen) (hst : sl.st = .filling) : sealAt p h s = (.done 0, sealNow g r b k s) := by
  rw [sealAt, atSlot_eq href hlive hsl]
  exact if_neg (by simp [hgen, hst])

theorem sealAt_faults (hbad : sl.gen ≠ gen ∨ sl.st ≠ .filling) : sealAt p h s = (.fault Cause.gallery 5, s) := by
  rw [sealAt, atSlot_eq href hlive hsl]
  exact if_pos (by simpa using hbad)

theorem takeAt_stale (counts : Bool) (hgen : sl.gen ≠ gen) : takeAt counts p h s = (.fault Cause.overRead h, s) := by
  rw [takeAt, atSlot_eq href hlive hsl]
  exact if_pos (by simpa using hgen)

theorem takeAt_unsealed (counts : Bool) (hgen : sl.gen = gen) (hst : sl.st ≠ .sealed) :
    takeAt counts p h s = (.unsealed, s) := by
  rw [takeAt, atSlot_eq href hlive hsl]
  simp [hgen, hst]

theorem takeAt_sealed (counts : Bool) (hgen : sl.gen = gen) (hst : sl.st = .sealed) :
    takeAt counts p h s = (.done (handleAddr g h s), if counts then takeSlot g r b k 1 s else s) := by
  rw [takeAt, atSlot_eq href hlive hsl]
  simp [hgen, hst]

theorem dropAt_faults {n : Nat} (hbad : sl.gen ≠ gen ∨ sl.cnt < n) :
    dropAt p h n s = (.fault Cause.overRead h, s) := by
  rw [dropAt, atSlot_eq href hlive hsl]
  exact if_pos (by simpa using hbad)

theorem dropAt_drops {n : Nat} (hgen : sl.gen = gen) (hn : n ≤ sl.cnt) :
    dropAt p h n s = (.done 0, takeSlot g r b k n s) := by
  rw [dropAt, atSlot_eq href hlive hsl]
  exact if_neg (by simp [hgen, hn])

end

/-! ### A seal and those that wait for it (11 R255, R261) -/

/-- The watchdog of a bay has nothing to do with its slots. -/
@[simp] theorem Bay.watch_slots (y : Bay) (clk : Nat) (b : Bool) : (y.watch clk b).slots = y.slots := by
  unfold Bay.watch
  split
  · rfl
  · split <;> rfl

theorem slotAt_sealSlot {s : State} {g r b k : Nat} {sl : Slot} (h : s.slotAt g r b k = some sl) :
    (sealSlot g r b k s).slotAt g r b k = some { sl with st := .sealed } := by
  obtain ⟨y, hy, hsl⟩ := Option.bind_eq_some_iff.mp h
  rw [State.slotAt, sealSlot, bayAt_modBay_self, hy]
  simp [Bay.modSlot, hsl]

section
variable {s : State} {g r b k : Nat} {sl : Slot} (hsl : s.slotAt g r b k = some sl)
include hsl

theorem sealNow_eq : sealNow g r b k s =
    (sealWaiters g r b k sl.gen (sealSlot g r b k s)).foldl (tellSeal g r b k sl.gen) (sealSlot g r b k s) := by
  simp [sealNow, hsl]

theorem tellSeal_sealSlot (n : Nat) (p : Place) (h : Word) :
    tellSeal g r b k sl.gen (sealSlot g r b k s) (n, p, h, false) =
      answerWait p (.waiting 3 0) (sealSlot g r b k s) := by
  simp [tellSeal, slotAt_sealSlot hsl]

end

/-! ### Counts (11 R252, R255, R256) -/

theorem Slot.take_part {x : Slot} {n : Nat} (clk : Nat) (h : n < x.cnt) :
    x.take clk n = { x with cnt := x.cnt - n } := if_neg (Nat.not_le.mpr h)

theorem Slot.take_all {x : Slot} {n : Nat} (clk : Nat) (h : x.cnt ≤ n) : x.take clk n = x.free clk := if_pos h

/-! ### The statement -/

/-- Settles O31: each operation does what the lemma on its own case says. -/
theorem galleryUnitPerformsOperations : Obligations.GalleryUnitPerformsOperations := by
  unfold Obligations.GalleryUnitPerformsOperations
  refine ⟨fun p ref n s g r b x y try_ sh href hsh hlive bay hbay => ?alloc,
    fun p h s g r b k gen sl href hlive hsl => ?handle, fun s g r b k sl hsl => ?sealing, fun x clk n => ?counts⟩
  case alloc =>
    refine ⟨fun k sl hf hk hsl => allocAt_gives href hsh hlive hbay try_ hf hk hsl,
      fun hn => allocAt_none href hsh hlive hbay true hn, fun hn => ?_⟩
    exact ⟨_, allocAt_none href hsh hlive hbay false hn, by rw [bayAt_modBay_self, hbay, Option.map_some]⟩
  case handle =>
    exact ⟨sealAt_seals href hlive hsl, sealAt_faults href hlive hsl, takeAt_stale href hlive hsl,
      takeAt_unsealed href hlive hsl, takeAt_sealed href hlive hsl false, takeAt_sealed href hlive hsl true,
      fun _ => dropAt_faults href hlive hsl, fun _ => dropAt_drops href hlive hsl⟩
  case sealing =>
    rw [sealNow_eq hsl]
    constructor
    · intro hw
      rw [hw, List.foldl_nil]
    · intro n p h hw
      rw [hw, List.foldl_cons, List.foldl_nil, tellSeal_sealSlot hsl]
  case counts =>
    refine ⟨Slot.take_part clk, fun h => ?_⟩
    rw [Slot.take_all clk h]
    exact ⟨rfl, rfl, fun hlow => if_neg (Nat.not_le.mpr hlow), fun hlast => if_pos hlast⟩

end Sys2Proof.Machine
end
